-- ==== Sys2Proof/Word.lean ====
section
/-! DEFINITION. The words the manual counts in (R11 to R13) and the numbers it gives its units. -/

namespace Sys2Proof

/-- One byte (R13). -/
abbrev Byte := BitVec 8

/-- A word of registers, queue cells and tokens: 32 bits (Table 0.4). -/
abbrev Word32 := BitVec 32

/-- A general register of a tile, or a token's value: 64 bits (R190, Table 2.1). -/
abbrev Word64 := BitVec 64

/-- A physical tile, T00 to T33 (Table 3.1). -/
abbrev TileId := Fin 34

/-- A general register number of a codelet instruction (Table 4.2). -/
abbrev RegNo := BitVec 5

/-- A lane cluster, LC0 to LC7 (R383). -/
abbrev ClusterId := Fin 8

/-- A halyard of a cluster (R383). -/
abbrev HalyardId := Fin 16

/-- A lane, 0 to 127 (R5). -/
abbrev LaneId := Fin 128

/-- A queue, 0 to 16,383 (R354). -/
abbrev QueueId := BitVec 14

/-- A host channel, 0 to 31 (R506). -/
abbrev ChannelId := Fin 32

/-- An uplink: 0 and 1 are the 10 GbE uplinks, 2 the management port (Table 11.6). -/
abbrev UplinkId := Fin 3

end Sys2Proof
end

