-- ==== Sys2Proof/Machine/Units.lean ====
section
/-! DEFINITION. What the units of a blade hold: tokens, firings, matching entries, contexts, flows, packets, halyards, lane
ports, host channels, journal records and semaphores, as plain data. They stand before the commands because a LOG block of
the toggle link carries them (R563). -/

namespace Sys2Proof

/-- A requester of the queue pool: the command engine, a tile's firing or a halyard (R357, R403). -/
inductive Requester where
  | command
  | tile (t : TileId)
  | halyard (c : ClusterId) (h : HalyardId)
  deriving DecidableEq, Repr

/-- The transport on which a command packet arrives (R468). -/
inductive Transport where
  | uplink0
  | uplink1
  | management
  | usb
  deriving DecidableEq, Repr

end Sys2Proof

namespace Sys2Proof.Machine

/-- A sparse array: index and value, indices strictly rising, no entry equal to what an unlisted index reads as. -/
abbrev SMap (α : Type) := List (Nat × α)

/-- How a stored 64-bit word reads (R304 to R306): `single` holds one wrong bit, `uncorrectable` two, `poison` the marker. -/
inductive WordMark where
  | sound
  | single
  | uncorrectable
  | poison
  deriving DecidableEq, Repr

/-! ## Tokens, firings and matching -/

/-- A token (Table 2.1). Bit i of `parityBad` is set when the 33 bits of word Wi hold an odd number of ones (R60). -/
structure Token where
  context : BitVec 16
  iteration : BitVec 12
  port : BitVec 2
  kind : BitVec 2
  node : BitVec 20
  cls : BitVec 3
  ordered : Bool
  poison : Bool
  sequence : BitVec 16
  flow : BitVec 12
  value : Word64
  parityBad : BitVec 5
  deriving DecidableEq, Repr

/-- A token as the delay unit receives it (R229); its amount is in ticks of its list. -/
structure DelayRequest where
  token : Token
  list : Fin 4
  amount : Nat
  deriving DecidableEq, Repr

/-- What the release unit receives (R282): an ordered emission or a retire marker. -/
inductive ReleaseItem where
  | emission (t : Token)
  | marker (flow : BitVec 12) (sequence : BitVec 16)
  deriving DecidableEq, Repr

/-- What a SEND or SENDD leaves in the output buffer (R228, R229). -/
inductive Emission where
  | now (t : Token)
  | delayed (d : DelayRequest)
  deriving DecidableEq, Repr

/-- One ADJ (R103). -/
structure Adjustment where
  cls : BitVec 3
  value : Word64
  reason : BitVec 16
  deriving DecidableEq, Repr

/-- One OPEN of a firing, not yet in effect (R85, R86). -/
structure OpenRequest where
  context : BitVec 16
  slotB : Bool
  exceptionNode : BitVec 20
  flow : Option (BitVec 12)
  deriving DecidableEq, Repr

inductive ContextRequestKind where
  | close
  | cancel
  | park
  deriving DecidableEq, Repr

/-- One CLOSE, CANCEL or PARK of a firing (R234, R235). -/
structure ContextRequest where
  kind : ContextRequestKind
  context : BitVec 16
  deriving DecidableEq, Repr

/-- One ready firing (R263): its tokens in port order, and the order in which it became ready. -/
structure ReadyEntry where
  tokens : List Token
  age : Nat
  unreadable : Bool
  deriving DecidableEq, Repr

/-- A firing's hold on the reorder buffer (R279, R298): the entries reserved and not yet filled, and whether they are of
the 544. -/
structure Reservation where
  left : Nat
  ofHeads : Bool
  deriving DecidableEq, Repr

/-- A store to a full or struck queue that its firing waits on, and the frame it was issued in (R213, R375); `instruction` says
that it is the store instruction at the pc, which then completes with it. -/
structure QueueStall where
  queue : QueueId
  sealing : Bool
  value : Word32
  poison : Bool
  since : Word32
  instruction : Bool
  deriving DecidableEq, Repr

/-- The executing firing of a tile (Table 4.1): its tag, its inputs, its registers and what it has recorded, the tile cycles of a run that a
retirement cut short among it (R269). `g` holds
g1 to g31; g0 is never listed. -/
structure Firing where
  context : BitVec 16
  iteration : BitVec 12
  node : BitVec 20
  slotB : Bool
  inputs : List Token
  pc : Nat
  g : SMap Word64
  poisoned : BitVec 32
  fps : BitVec 5
  fcr : BitVec 3
  executed : Nat
  lastTag : BitVec 2
  poisonSeen : Bool
  emissions : List Emission
  adjustments : List Adjustment
  opens : List OpenRequest
  openCount : Nat
  requests : List ContextRequest
  heldSequence : Option (BitVec 12 × BitVec 16)
  stall : Option QueueStall
  spent : Nat
  deriving DecidableEq, Repr

/-- A tile (chapter 4): its ready queue, its executing firing, the firing records a retirement brought, and its wait
buffer. `icacheBad` lists the words of cached lines, by line and word, that an injection has damaged (Table 12.8). -/
structure Tile where
  ready : List ReadyEntry
  prefetched : Option Nat
  firing : Option Firing
  reruns : List Firing
  waiting : List Token
  spillOps : Nat
  lastNode : BitVec 20
  lastContext : BitVec 16
  lastIteration : BitVec 12
  icache : SMap (List Nat)
  icacheBad : List (Nat × Nat)
  deriving DecidableEq, Repr

/-- A matching entry (Table 3.4); `written` is the frame it was written in (Table 3.8), `age` its place in the order of
new entries (R133). `damage` tells what its check bits will
show: 1 to 3 so many corrected words, 4 a lost word, 5 both copies of the header word lost (R141 to R143). -/
structure MatchEntry where
  context : BitVec 16
  iteration : BitVec 12
  arity3 : Bool
  presence : BitVec 3
  node : BitVec 20
  poison : BitVec 3
  cls0 : BitVec 3
  cls1 : BitVec 3
  cls2 : BitVec 3
  value0 : Word64
  value1 : Word64
  value2 : Word64
  written : Word32
  age : Nat
  damage : BitVec 3
  deriving DecidableEq, Repr

/-- Why a set is locked (R136, R145). -/
inductive SetLock where
  | search (t : Token)
  | push
  deriving DecidableEq, Repr

/-- One set of a matching slice with its spill stack (R133, R144). `ways` and `stack` run oldest first; `blocked` says that its
first waiting token waits for a free spill block (R152), `dirBad` that its word of the spill directory cannot be read. -/
structure MatchSet where
  ways : List MatchEntry
  lock : Option SetLock
  stack : List MatchEntry
  filter : BitVec 32
  blocked : Bool
  dirBad : Bool
  deriving DecidableEq, Repr

/-- A migration of matching state (Table 3.6): its tiles, the firings re-executed, the redirect barrier, the sets moved, and
whether the slice can be read (R156). -/
structure Migration where
  source : TileId
  target : TileId
  rerun : Nat
  barrier : Bool
  moved : List Nat
  unreadable : Bool
  deriving DecidableEq, Repr

/-! ## Contexts and flows -/

inductive CtxState where
  | free
  | live
  | draining
  | closed
  | parked
  | damaged
  deriving DecidableEq, Repr

/-- A context: the record of Table 2.5, its entry of the activity table (R165), and what the ledger unit counts of it in
the current frame (R114, R269, R270). `told` says that it has become DAMAGED before (R114), `hurt` how its record will read from
the context cache. -/
structure Ctx where
  state : CtxState
  causeCancel : Bool
  damagedBit : Bool
  told : Bool
  slotB : Bool
  budget : BitVec 3
  flow : Option (BitVec 12)
  excNode : BitVec 20
  balance : BitVec 32
  openFrame : Word32
  tokensIn : Word64
  consumed : Word64
  cancelled : Word64
  discarded : Word64
  damage : BitVec 32
  stallLimit : BitVec 32
  trailSeq : Word64
  adjSum : List Word64
  cancelSum : List Word64
  discardSum : List Word64
  trapSum : List Word64
  parent : BitVec 16
  closeFrame : Word32
  lastActive : Word32
  reported : Bool
  usage : Nat
  overran : Bool
  frameDiscards : Nat
  frameReason : BitVec 16
  changed : Bool
  hurt : WordMark
  deriving DecidableEq, Repr

/-- A first-in, first-out free list: `head`, then every number from `fresh` to `last`, then `tail` (R89, R275, R351). -/
structure FreeList where
  head : List Nat
  fresh : Nat
  last : Nat
  tail : List Nat
  deriving DecidableEq, Repr, Inhabited

/-- An audit-trail record (Table 2.9). -/
structure TrailRecord where
  frame : Word32
  context : BitVec 16
  reason : BitVec 16
  node : BitVec 20
  cls : BitVec 3
  iteration : BitVec 12
  value : Word64
  sequence : Word64
  deriving DecidableEq, Repr

/-- A token in the reorder buffer (R282, R283), whether its entry is of the 544, and whether its turn has come while the unit is
struck (R298). -/
structure HeldToken where
  token : Token
  cancelled : Bool
  ofHeads : Bool
  due : Bool
  deriving DecidableEq, Repr

/-- A flow slot (R274, R275). `retired` lists sequences retired ahead of the head, `held` runs in arrival order, entries that are due first, `booked`
lists the reservations of sequences not yet retired; `closing` marks a slot that its context has given up and that still
holds tokens. -/
structure Flow where
  head : BitVec 16
  next : BitVec 16
  owner : BitVec 16
  owned : Bool
  retired : List (BitVec 16)
  held : List HeldToken
  booked : List (BitVec 16 × Reservation)
  closing : Bool
  deriving DecidableEq, Repr

/-- A delay entry (R285, R286): the ticks it still waits for and its insertion stamp. -/
structure DelayEntry where
  token : Token
  left : Nat
  stamp : Nat
  unreadable : Bool
  deriving DecidableEq, Repr

/-- A delay list (R285 to R289): its entries on chip and in overflow, each sorted by key, and its hold buffer. -/
structure DelayList where
  onChip : List DelayEntry
  overflow : List DelayEntry
  hold : List DelayEntry
  fullEpisode : Bool
  deriving DecidableEq, Repr

/-! ## Parking -/

/-- A parked-token record (Table 3.10), and the frame it was captured in (R178). -/
structure ParkRecord where
  token : Token
  location : BitVec 8
  list : BitVec 8
  remaining : BitVec 32
  frame : Word32
  deriving DecidableEq, Repr

/-- A park image (R177): its header's own fields, its records, how many of them the parked region holds, the rest being in
staging (R178), and the bytes of the region reserved for it (R179). `stored` says that the region holds a version of it, `final`
that this version is headed as its parking left it. -/
structure ParkImage where
  parkFrame : Word32
  flowNext : BitVec 16
  records : List ParkRecord
  written : Nat
  reserved : Nat
  stored : Bool
  final : Bool
  deriving DecidableEq, Repr

/-! ## Commands being answered -/

/-- Where a reply goes, and what of its request it repeats: it leaves `dest` and `destPort` for `source` and
`sourcePort`, in the key its request came in (R471, R472, R474). -/
structure ReplyTo where
  transport : Transport
  source : BitVec 128
  sourcePort : BitVec 16
  dest : BitVec 128
  destPort : BitVec 16
  opcode : Byte
  flags : BitVec 16
  sequence : Word32
  request : List Byte
  key : List Byte
  deriving DecidableEq, Repr

/-- Who asked for a parking (R172). -/
inductive ParkCause where
  | monitor
  | codelet
  | command (r : ReplyTo)
  deriving DecidableEq, Repr

/-- The parking or unparking in progress (R172), and what an unparking holds on arrival (R184). `paused` says that capture has
stopped for want of staging with tokens left that arrivals must not overtake (R175, R178). -/
structure Parking where
  context : BitVec 16
  cause : ParkCause
  unparking : Bool
  paused : Bool
  waiting : List Emission
  deriving DecidableEq, Repr

/-- A command that is answered when its operation ends (R483), with its operation's number: a function, a bank, an image
kind or an FRU. -/
structure Deferred where
  dest : ReplyTo
  operand : Nat
  data : List Byte
  deriving DecidableEq, Repr

/-- A reply that its frame's commit releases (R484). -/
structure HeldReply where
  frame : Word32
  dest : ReplyTo
  status : Byte
  data : List Byte
  deriving DecidableEq, Repr

/-- A key slot (R474 to R478, R612). -/
structure KeySlot where
  key : List Byte
  last : Word32
  floor : Word32
  request : List Byte
  reply : List Byte
  deriving DecidableEq, Repr

/-! ## The queue pool -/

inductive PacketState where
  | opened
  | held
  | pending
  | visible
  | reading
  | released
  deriving DecidableEq, Repr

/-- One payload word of a packet and how it reads (R349, R369): `bad` words come with the POISON tag. -/
structure QWord where
  value : Word32
  bad : Bool
  deriving DecidableEq, Repr

/-- Who writes a packet: a requester of the queue window, or a unit of the hub (R354, R658, R537, R163, R549). -/
inductive Producer where
  | requester (who : Requester)
  | ledger
  | collector
  | monitor
  | recorder
  deriving DecidableEq, Repr

/-- A packet (R350 to R353): its cells in chain order, its payload words, its producer while open or held,
the frame its state changed in, the frame it became VISIBLE in, `linkBad`, the place of
a cell whose word 0 fails (R378), `linkSeen`, that failure reported, and `descBad`, an unreadable descriptor (R379). -/
structure Packet where
  queue : QueueId
  state : PacketState
  cells : List Nat
  words : List QWord
  length : Nat
  tag : BitVec 8
  producer : Producer
  bad : Bool
  frame : Word32
  shown : Word32
  linkBad : Option Nat
  linkSeen : Bool
  descBad : Bool
  deriving DecidableEq, Repr

/-- A packet's notice (R373): the packet, its queue, its producer and its handle, which it outlives. -/
structure Notice where
  packet : Nat
  queue : QueueId
  producer : Producer
  handle : Word64
  deriving DecidableEq, Repr

/-- A write that a unit of the hub cannot complete (R374): a whole packet, or a word or a SEAL of the command engine. -/
inductive WaitingStore where
  | packet (who : Producer) (bytes : List Byte)
  | word (value : Word32) (poison : Bool)
  | seal (value : Word32)
  deriving DecidableEq, Repr

/-- A queue (R354, R355): its descriptor, its packets in the order they became PENDING or VISIBLE, the count of packets
opened in it, and the notices that wait for its HOIST (R377). -/
structure Queue where
  quota : Nat
  reserve : Nat
  stallFrames : BitVec 8
  tickRelease : Bool
  notice : BitVec 2
  noticeContext : BitVec 16
  noticeNode : BitVec 20
  expire : BitVec 8
  order : List Nat
  opens : Nat
  heldNotices : List Notice
  deriving DecidableEq, Repr

/-- A requester's cursor on a queue (R366 to R371), with the packet's index in `Pool.packets`. -/
structure Cursor where
  who : Requester
  queue : QueueId
  packet : Nat
  position : Nat
  ended : Bool
  deriving DecidableEq, Repr

/-- The tag of an item read from the queue window (R212). -/
inductive ItemTag where
  | data
  | idle
  | poison
  deriving DecidableEq, Repr

/-- An item read from the queue window, a register or memory, as its requester sees it. -/
structure Item where
  value : Word32
  tag : ItemTag
  deriving DecidableEq, Repr

/-! ## Lane clusters and lane ports -/

/-- A pennant in the receive area (R385, R439): its type, payload and place in its stream, how many of its words hold one
wrong bit, and whether one cannot be corrected. -/
structure RxPennant where
  urgent : Bool
  endpoint : BitVec 5
  sequence : BitVec 16
  payload : List Byte
  weak : Nat
  lost : Bool
  deriving DecidableEq, Repr

/-- A pennant in the transmit area (R385, R450): it has consumed pod credit since the link entered UP (`paid`), has been
sent, or is due to be sent again. -/
structure TxPennant where
  mgmt : Bool
  endpoint : BitVec 5
  sequence : BitVec 16
  payload : List Byte
  weak : Nat
  lost : Bool
  paid : Bool
  sent : Bool
  resend : Bool
  sentFrame : Word32
  deriving DecidableEq, Repr

/-- A halyard (Table 9.1), its open pennants and its notice queue, whose entries hold the tokens they become (R407). -/
structure Halyard where
  u : SMap Word32
  pc : BitVec 12
  stack : List (BitVec 12)
  latched : BitVec 16
  waitMask : BitVec 16
  flags : BitVec 4
  byteClass : BitVec 4
  queueGroup : BitVec 2
  endpoint : BitVec 5
  inTaint : Bool
  outTaint : Bool
  timer : BitVec 16
  txMask : BitVec 32
  yielded : Bool
  replaying : Bool
  waitsFor : Option QueueId
  rxOpen : Option RxPennant
  rxPosition : Nat
  txOpen : Option TxPennant
  notices : List Token
  parityBad : Bool
  deriving DecidableEq, Repr

/-- One personality of a microcode image's directory (Table 9.12). -/
structure Personality where
  number : BitVec 8
  family : BitVec 8
  entry : BitVec 16
  reserve : BitVec 16
  name : BitVec 64
  deriving DecidableEq, Repr

/-- What a control store is loaded from (R414): the image_id, the microwords and the directory of a microcode image. -/
structure MicroImage where
  imageId : Word32
  store : SMap (BitVec 128)
  directory : List Personality
  deriving DecidableEq, Repr

/-- A lane cluster (chapter 9): its control store, the damage of its 64-bit halves, its directory, where an in-service load
stands (Table 9.13), and the halyard at which its engine's rotation stands (R386). -/
structure Cluster where
  store : SMap (BitVec 128)
  damage : SMap WordMark
  directory : List Personality
  imageId : Word32
  loaded : Bool
  faultStruck : Bool
  quiescing : Bool
  loading : Bool
  injectNext : Nat
  linkLost : Bool
  turn : HalyardId
  deriving DecidableEq, Repr

/-- The pod's grants on one endpoint (R454, Table 10.7). -/
structure Credit where
  limit : BitVec 16
  consumed : BitVec 16
  acked : BitVec 16
  deriving DecidableEq, Repr

/-- The hub's grants on one endpoint or of URGENT units (R452): the limit and the one last sent, the units consumed, and the
cost of the pennants that released and that sent acknowledgements cover. -/
structure Grant where
  limit : BitVec 16
  sent : BitVec 16
  consumed : BitVec 16
  released : BitVec 16
  acked : BitVec 16
  deriving DecidableEq, Repr

/-- A sent AUDIT that waits for its reply (R456, R457): its frame and its payload. -/
structure AuditSent where
  frame : Word32
  payload : List Byte
  deriving DecidableEq, Repr

/-- A lane port (chapter 10). Times are in microseconds, as `Blade.now` gives them. -/
structure LanePort where
  state : BitVec 3
  energy : Bool
  lock : Bool
  /-- When code-group lock was gained, and the FILLs that have counted since (Table 10.11). -/
  lockSince : Nat
  fills : Nat
  /-- The frame in which the link entered SYNC, the last hoist echoed, and whether two consecutive ones were. -/
  syncFrame : Word32
  lastEcho : Option (BitVec 16)
  echoed : Bool
  podCredit : Bool
  rxExpected : BitVec 16
  txNext : BitVec 16
  rxAcked : BitVec 16
  txAcked : BitVec 16
  uExpected : BitVec 16
  uAcked : BitVec 16
  urgent : Grant
  up : SMap Grant
  down : SMap Credit
  /-- Pennants of the receive area not opened, in arrival order; the opened one is the halyard's. -/
  rx : List RxPennant
  tx : List TxPennant
  /-- Pennants freed by RXDONE in frames not yet committed. -/
  freed : List (Word32 × RxPennant)
  audits : List AuditSent
  auditPending : Bool
  auditAgain : Bool
  /-- NAKs due: reason, URGENT space or not, sequence; and those of the DATA space sent in the frame (R449). -/
  nakDue : List (BitVec 8 × Bool × BitVec 16)
  nakedAt : List (Word32 × BitVec 16)
  /-- When a DATA-space ACK, a committed ACK, a CREDIT and an AUDIT became due (R437). -/
  ackDue : Option Nat
  /-- The due ACK answers a duplicate or a failed audit (R448, R457): it need not wait for 20 µs. -/
  ackAlone : Bool
  uackDue : Option Nat
  creditDue : Option Nat
  auditDue : Option Nat
  /-- The entries of the CREDIT that is due: endpoints, and 32 for the URGENT units. -/
  creditFor : List Nat
  sentThisFrame : Bool
  lastProgress : Word32
  lastValid : Word32
  windowFrame : Word32
  windowErrors : Nat
  goodWindows : Nat
  podFrame : BitVec 16
  podState : BitVec 3
  deriving DecidableEq, Repr

/-! ## Host channels -/

/-- A segment sent and not yet acknowledged (R512): its sequence, its packet and its part of it. -/
structure SentSegment where
  sequence : Word32
  first : Nat
  index : Nat
  last : Bool
  deriving DecidableEq, Repr

/-- A host channel (R506 to R517). -/
structure Channel where
  isOpen : Bool
  stalled : Bool
  kind : BitVec 2
  slot : Fin 4
  via : Bool
  peer : BitVec 128
  peerPort : BitVec 16
  retxMs : Nat
  target : BitVec 16
  endpoint : BitVec 5
  node : BitVec 20
  txNext : Word32
  txAcked : Option Word32
  rxExpected : Word32
  rxAcked : Option Word32
  retx : Word32
  dropped : Word32
  sent : List SentSegment
  sending : Option (Nat × Nat)
  resend : List SentSegment
  badRun : Bool
  runSegments : Nat
  waitingWords : List QWord
  waitingSeal : Option Nat
  ackables : List (Word32 × Word32)
  base : Word32
  progress : Word32
  ackDue : Bool
  duplicateAck : Bool
  deriving DecidableEq, Repr

/-- A token that waits at port 44 (R119), counted into its context: the flow whose next sequence it takes as it leaves (R276,
R277), and the queue and the packet that a notice token announces. -/
structure Port44Item where
  token : Token
  flow : Option (BitVec 12)
  notice : Option (QueueId × Nat)
  deriving DecidableEq, Repr

/-! ## Journal records and semaphores -/

/-- A journal record in staging (R583, R585): the frame that committed it, its place in the order of records, its bytes, the
time of the hoist of that frame (R524), the block that holds its last byte, whether that block counts as written (R27), and
whether an open JOURNAL channel has acknowledged it. -/
structure StagedRecord where
  frame : Word32
  stamp : Word64
  id : Nat
  bytes : List Byte
  block : Word64
  written : Bool
  acknowledged : Bool
  deriving DecidableEq, Repr

/-- A semaphore (R335, R336): held, owner class, unit and context, generation. -/
structure Semaphore where
  held : Bool
  cls : BitVec 2
  unit : BitVec 8
  context : BitVec 16
  generation : BitVec 16
  deriving DecidableEq, Repr

end Sys2Proof.Machine
end

