-- ==== Sys2Proof/Syntax.lean ====
section
/-! DEFINITION. The commands of the hub: one constructor of `Instr` for each row of the table of operations and events,
with the operands the row's rule names. A codelet instruction carries its tile and the fields of its format as Table 4.2
lays them out, its "zero" fields included, because R195 traps on them. An event carries what its surroundings decide. -/

namespace Sys2Proof

/-- Fields of format F (Table 4.2). -/
structure FpFields where
  rd : RegNo
  ra : RegNo
  rb : RegNo
  rm : BitVec 3
  zero : BitVec 1
  size : BitVec 1
  deriving DecidableEq, Repr

/-- Fields of format M (Table 4.2). -/
structure FmaFields where
  rd : RegNo
  ra : RegNo
  rb : RegNo
  rc : RegNo
  rm : BitVec 3
  zero : BitVec 2
  size : BitVec 1
  deriving DecidableEq, Repr

/-- Fields of format N (Table 4.2). -/
structure SendFields where
  rv : RegNo
  rt : RegNo
  rdl : RegNo
  port : BitVec 2
  cls : BitVec 3
  ctrl : BitVec 1
  list : BitVec 2
  zero : BitVec 3
  deriving DecidableEq, Repr

/-- The fields of a microword that its I/O operation reads (Tables 9.3 and 9.7); `len` is the cycle length minus one. -/
structure IoFields where
  len : BitVec 2
  asel : BitVec 4
  ioreg : BitVec 4
  ioarg : BitVec 8
  evmask : BitVec 16
  deriving DecidableEq, Repr

/-- The fields of a microword that its next-address form reads (Tables 9.3 and 9.4). -/
structure NextFields where
  next : BitVec 12
  csel : BitVec 4
  mask : BitVec 4
  evmask : BitVec 16
  deriving DecidableEq, Repr

/-- A requester port of the register window: each has its own key arm and selections (R653, R382). -/
inductive Port where
  | command
  | tile (t : TileId)
  | cluster (c : ClusterId)
  deriving DecidableEq, Repr

/-- A command packet as received (Table 11.1). `size` is the byte count of the datagram or USB frame, `dest` and `destPort`
where the datagram was sent, `vlan` the tag of its frame, `fragment` an IP fragment, or a packet with IPv4 options
or IPv6 extension headers. -/
structure Request where
  transport : Transport
  source : BitVec 128
  sourcePort : BitVec 16
  dest : BitVec 128
  destPort : BitVec 16
  vlan : Option (BitVec 12)
  fragment : Bool
  size : Nat
  magic : Word32
  version : Byte
  opcode : Byte
  flags : BitVec 16
  sequence : Word32
  length : Word32
  params : List Byte
  tag : List Byte
  deriving DecidableEq, Repr

/-- A host-channel datagram as received (Table 11.7), and the uplink, the address and the tag it arrived with. `fragment` tells
of an IP fragment, of IPv4 options or of IPv6 extension headers. -/
structure Datagram where
  type : Byte
  uplink : UplinkId
  dest : BitVec 128
  vlan : Option (BitVec 12)
  fragment : Bool
  source : BitVec 128
  sourcePort : BitVec 16
  destPort : BitVec 16
  magic : Word32
  version : Byte
  channel : Byte
  flags : Byte
  sequence : Word32
  ack : Word32
  length : BitVec 16
  zero : BitVec 16
  payload : List Byte
  tag : List Byte
  deriving DecidableEq, Repr

/-- A received pennant: the header fields of Table 10.2 but its type, the payload, the CRC as received, and what the line
showed within it (R426, R429). -/
structure Pennant where
  endpoint : BitVec 5
  ackv : Bool
  retx : Bool
  uspace : Bool
  receipt : Bool
  zeroHi : BitVec 3
  sequence : BitVec 16
  length : BitVec 11
  zeroLen : BitVec 5
  ack : BitVec 16
  payload : List Byte
  crc : Word32
  codeGroupError : Bool
  innerStart : Bool
  deriving DecidableEq, Repr

/-- The tag of a PTP message's frame, and what it leads the slave clock to (R523): the arriving port's new state, the offset it measured and the
time it gives. The IEEE 1588 exchange itself is the clock's own. -/
structure PtpMessage where
  vlan : Option (BitVec 12)
  domain : Byte
  state : BitVec 3
  offset : Word32
  time : Word64
  deriving DecidableEq, Repr

/-- One failing word of a march (R322); rows 512 to 515 are the spare rows. -/
structure MarchFail where
  row : Fin 516
  line : BitVec 3
  word : BitVec 3
  deriving DecidableEq, Repr

/-- What the reads of one word in a destructive march returned, where it was not what a good word returns: the read's place among
those the march makes of the word, and its 72 bits (R322). -/
structure MarchWord where
  row : Fin 516
  line : BitVec 3
  word : BitVec 3
  returned : List (Nat × BitVec 72)
  deriving DecidableEq, Repr

/-- A mux of the module (R24). -/
inductive MuxId where
  | portCard (slot : Fin 8)
  | carrier (k : Fin 2)
  | service
  deriving DecidableEq, Repr

/-- What an INBOUND block carries (Table 13.6). -/
inductive InboundItem where
  | pennant (l : LaneId) (type : BitVec 4) (p : Pennant)
  | segment (d : Datagram)
  deriving DecidableEq, Repr

/-- One state write of a LOG block (R563): a word or byte of memory, a register, or what one unit holds at one index after
the write (Table 13.4). A tile is named by its logical number (R559); `mergeTile` is a retirement under R155, which changes
the logical tiling (R581). -/
inductive LogWrite where
  | memory (address : BitVec 48) (value : Byte)
  | poison (address : BitVec 48)
  | register (address value : Word32)
  | context (c : BitVec 16) (v : Machine.Ctx)
  | freeContexts (v : Machine.FreeList)
  | trail (v : List Machine.TrailRecord)
  | graphSlot (slotB : Bool)
  | parked (c : BitVec 16) (v : Machine.ParkImage)
  | parking (v : Option Machine.Parking) (requests : List (BitVec 16 × Machine.ParkCause))
  | tile (k : TileId) (v : Machine.Tile)
  | arriving (k : TileId) (v : List Machine.Token)
  | matchSet (k : TileId) (s : Fin 512) (v : Machine.MatchSet)
  | release (v : List Machine.ReleaseItem)
  | delayInput (v : List Machine.DelayRequest)
  | flow (f : BitVec 12) (v : Machine.Flow)
  | freeFlows (v : Machine.FreeList) (booked headBooked : Nat)
  | delayList (n : Fin 4) (v : Machine.DelayList)
  | semaphore (n : Fin 1024) (v : Machine.Semaphore)
  | packet (i : Nat) (v : Machine.Packet)
  | queueState (q : QueueId) (v : Machine.Queue)
  | freeCells (v : Machine.FreeList) (next : Nat)
  | cursors (v : List Machine.Cursor)
  | waitingStores (v : List (Nat × Machine.WaitingStore))
  | port44 (v : List Machine.Port44Item)
  | halyard (l : LaneId) (v : Machine.Halyard)
  | lanePort (l : LaneId) (v : Machine.LanePort)
  | injector (c : ClusterId) (next : Nat)
  | channel (h : ChannelId) (v : Machine.Channel)
  | journal (r : Machine.StagedRecord)
  | journalWritten (id : Nat)
  /-- The time stamped on the journal records of a frame (R524). -/
  | stamp (time : Word64)
  | mergeTile (k target : TileId)
  deriving DecidableEq, Repr

/-- What a CONFIG block carries (R560, R479). -/
inductive ConfigItem where
  | write (address value : Word32)
  | queue (q : QueueId) (address value : Word32)
  | strike (fn : BitVec 16)
  | hoist (fn : BitVec 16)
  | sequence (slot : Fin 4) (sequence : Word32) (request reply : List Byte)
  /-- A key slot as a whole: at a join, and after SET_KEY. -/
  | key (slot : Fin 4) (value : Machine.KeySlot)
  /-- The mirrored configuration as a whole, at a join (Table 13.2 step 2): its register words, and its functions whose struck
  state is not the reset one. -/
  | configuration (words : Machine.SMap Word32) (struck : Machine.SMap Bool)
  /-- A graph slot's image, and the microcode image in force, at a join (Table 13.2 step 2). -/
  | graph (slotB : Bool) (image : List Byte)
  | microcode (image : Machine.MicroImage)
  /-- A verified image on its way to its activation, and the activation itself: of a graph in a slot, of microcode in the clusters
  of a mask, or of firmware (R589 to R591). -/
  | image (kind : Byte) (bytes : List Byte)
  | activate (kind : Byte) (slotB : Bool) (clusters : BitVec 8)
  /-- The cluster of a port card is brought into service (R588). -/
  | card (slot : Fin 8)
  deriving DecidableEq, Repr

/-- What a ROLE block carries (Table 13.6). -/
inductive RoleMessage where
  | startup (complete : Bool)
  | claimIntent
  | unjoined
  | handover
  deriving DecidableEq, Repr

/-- A recorder dump (Table 12.12): its header fields and its records of 32 bytes, oldest first. -/
structure DumpBlock where
  blade : BitVec 8
  cause : BitVec 8
  head : BitVec 16
  frame : Word32
  first : Word32
  lost : Word32
  records : List (BitVec 256)
  deriving DecidableEq, Repr

/-- What the partner shows at a join (R559). -/
structure PairFacts where
  sysId : Word32
  duplexVersion : BitVec 16
  activeTiles : Nat
  deriving DecidableEq, Repr

/-- The words of DRAM that a step of the DRAM test corrected, by channel (R603). -/
structure DramFixes where
  ch0 : BitVec 32
  ch1 : BitVec 32
  deriving DecidableEq, Repr

/-- What a blade finds during start-up (Table 14.1): its own tests, its firmware slots, the partner and the carriers. -/
structure StartFacts where
  bladeB : Bool
  dramFirmwareOk : Bool
  dramRestOk : Bool
  tilePasses : BitVec 34
  marchWords : List (Fin 64 × MarchWord)
  cards : BitVec 8
  carriersPresent : BitVec 2
  carriersReady : BitVec 2
  fans : BitVec 4
  partnerPresent : Bool
  partnerSysId : Word32
  partnerActive : Bool
  partnerAlive : Bool
  partnerComplete : Bool
  lastJournalFrame : Option Word32
  firmwareFixes : DramFixes
  restFixes : DramFixes
  deriving DecidableEq, Repr

/-- One supply's PMBus readings (Table 15.19). -/
structure SupplyReading where
  stat : Word32
  vin : Word32
  vout : Word32
  env : Word32
  power : BitVec 16
  expectedAbsent : Bool
  deriving DecidableEq, Repr

/-- What one PMBUS_REFRESH reads (Table 15.7). -/
structure Readings where
  supplies : List SupplyReading
  temps : List (Option (BitVec 16))
  fans : List (Bool × BitVec 16)
  supercap : BitVec 8
  saveReady : Bool
  deriving DecidableEq, Repr

/-- What a mux samples (R24); `edge` tells that the partner's ALIVE line has toggled since the last sample (R23). -/
structure MuxReading where
  mux : MuxId
  edge : Bool
  deriving DecidableEq, Repr

/-- The bits that read wrong in each of the four words that a borrow tests (R326): those in which the read of a word's complement
differs from the complement written. -/
structure BorrowReads where
  w0 : BitVec 72
  w1 : BitVec 72
  w2 : BitVec 72
  w3 : BitVec 72
  deriving DecidableEq, Repr

/-- The commands: operations a requester issues and events the hub's parts bring about, in the table's order. -/
inductive Instr where
  /-- ADD (R245). -/
  | add (t : TileId) (rd ra rb rc : RegNo)
  /-- SUB (R245). -/
  | sub (t : TileId) (rd ra rb rc : RegNo)
  /-- ADDC (R245). -/
  | addc (t : TileId) (rd ra rb rc : RegNo)
  /-- SUBB (R245). -/
  | subb (t : TileId) (rd ra rb rc : RegNo)
  /-- CARRY (R201). -/
  | carry (t : TileId) (rd ra rb rc : RegNo)
  /-- BORROW (R201). -/
  | borrow (t : TileId) (rd ra rb rc : RegNo)
  /-- NEG (R203). -/
  | neg (t : TileId) (rd ra rb rc : RegNo)
  /-- AND (R245). -/
  | and (t : TileId) (rd ra rb rc : RegNo)
  /-- OR (R245). -/
  | or (t : TileId) (rd ra rb rc : RegNo)
  /-- XOR (R245). -/
  | xor (t : TileId) (rd ra rb rc : RegNo)
  /-- ANDN (R245). -/
  | andn (t : TileId) (rd ra rb rc : RegNo)
  /-- SLL (R202). -/
  | sll (t : TileId) (rd ra rb rc : RegNo)
  /-- SRL (R202). -/
  | srl (t : TileId) (rd ra rb rc : RegNo)
  /-- SRA (R202). -/
  | sra (t : TileId) (rd ra rb rc : RegNo)
  /-- ROL (R202). -/
  | rol (t : TileId) (rd ra rb rc : RegNo)
  /-- ROR (R202). -/
  | ror (t : TileId) (rd ra rb rc : RegNo)
  /-- CMPEQ (R201). -/
  | cmpeq (t : TileId) (rd ra rb rc : RegNo)
  /-- CMPLT (R201). -/
  | cmplt (t : TileId) (rd ra rb rc : RegNo)
  /-- CMPLTU (R201). -/
  | cmpltu (t : TileId) (rd ra rb rc : RegNo)
  /-- SEL (R199). -/
  | sel (t : TileId) (rd ra rb rc : RegNo)
  /-- MUL (R245). -/
  | mul (t : TileId) (rd ra rb rc : RegNo)
  /-- MULHU (R245). -/
  | mulhu (t : TileId) (rd ra rb rc : RegNo)
  /-- MULHS (R245). -/
  | mulhs (t : TileId) (rd ra rb rc : RegNo)
  /-- DIV (R203). -/
  | div (t : TileId) (rd ra rb rc : RegNo)
  /-- DIVU (R203). -/
  | divu (t : TileId) (rd ra rb rc : RegNo)
  /-- REM (R203). -/
  | rem (t : TileId) (rd ra rb rc : RegNo)
  /-- REMU (R203). -/
  | remu (t : TileId) (rd ra rb rc : RegNo)
  /-- FADD (R257). -/
  | fadd (t : TileId) (f : FpFields)
  /-- FSUB (R258). -/
  | fsub (t : TileId) (f : FpFields)
  /-- FMUL (R257). -/
  | fmul (t : TileId) (f : FpFields)
  /-- FDIV (R257). -/
  | fdiv (t : TileId) (f : FpFields)
  /-- FSQRT (R257). -/
  | fsqrt (t : TileId) (f : FpFields)
  /-- FMA (R259). -/
  | fma (t : TileId) (f : FmaFields)
  /-- FCMPEQ (R260). -/
  | fcmpeq (t : TileId) (f : FpFields)
  /-- FCMPLT (R260). -/
  | fcmplt (t : TileId) (f : FpFields)
  /-- FCMPLE (R260). -/
  | fcmple (t : TileId) (f : FpFields)
  /-- FCVT_I (R261). -/
  | fcvtI (t : TileId) (f : FpFields)
  /-- FCVT_U (R261). -/
  | fcvtU (t : TileId) (f : FpFields)
  /-- FCVT_FI (R262). -/
  | fcvtFi (t : TileId) (f : FpFields)
  /-- FCVT_FU (R262). -/
  | fcvtFu (t : TileId) (f : FpFields)
  /-- FWIDEN (R262). -/
  | fwiden (t : TileId) (f : FpFields)
  /-- FNARROW (R262). -/
  | fnarrow (t : TileId) (f : FpFields)
  /-- ADDI (R245). -/
  | addi (t : TileId) (rd ra : RegNo) (imm : BitVec 16)
  /-- ANDI (R245). -/
  | andi (t : TileId) (rd ra : RegNo) (imm : BitVec 16)
  /-- ORI (R245). -/
  | ori (t : TileId) (rd ra : RegNo) (imm : BitVec 16)
  /-- XORI (R245). -/
  | xori (t : TileId) (rd ra : RegNo) (imm : BitVec 16)
  /-- SETH (R199). -/
  | seth (t : TileId) (rd ra : RegNo) (imm : BitVec 16)
  /-- CMPEQI (R201). -/
  | cmpeqi (t : TileId) (rd ra : RegNo) (imm : BitVec 16)
  /-- CMPLTI (R201). -/
  | cmplti (t : TileId) (rd ra : RegNo) (imm : BitVec 16)
  /-- CMPLTUI (R201). -/
  | cmpltui (t : TileId) (rd ra : RegNo) (imm : BitVec 16)
  /-- SHIFTI (R202). -/
  | shifti (t : TileId) (rd ra : RegNo) (imm : BitVec 16)
  /-- LD8U (R207). -/
  | ld8u (t : TileId) (rd ra : RegNo) (imm : BitVec 16)
  /-- LD8S (R207). -/
  | ld8s (t : TileId) (rd ra : RegNo) (imm : BitVec 16)
  /-- LD16U (R208). -/
  | ld16u (t : TileId) (rd ra : RegNo) (imm : BitVec 16)
  /-- LD16S (R208). -/
  | ld16s (t : TileId) (rd ra : RegNo) (imm : BitVec 16)
  /-- LD32U (R207). -/
  | ld32u (t : TileId) (rd ra : RegNo) (imm : BitVec 16)
  /-- LD32S (R207). -/
  | ld32s (t : TileId) (rd ra : RegNo) (imm : BitVec 16)
  /-- LD64 (R207). -/
  | ld64 (t : TileId) (rd ra : RegNo) (imm : BitVec 16)
  /-- ST8 (R307). -/
  | st8 (t : TileId) (rd ra : RegNo) (imm : BitVec 16)
  /-- ST16 (R307). -/
  | st16 (t : TileId) (rd ra : RegNo) (imm : BitVec 16)
  /-- ST32 (R213). -/
  | st32 (t : TileId) (rd ra : RegNo) (imm : BitVec 16)
  /-- ST64 (R306). -/
  | st64 (t : TileId) (rd ra : RegNo) (imm : BitVec 16)
  /-- CAS64 (R217). -/
  | cas64 (t : TileId) (rd ra rb rc : RegNo)
  /-- CAS32 (R217). -/
  | cas32 (t : TileId) (rd ra rb rc : RegNo)
  /-- BZ (R237). -/
  | bz (t : TileId) (ra : RegNo) (disp : BitVec 21)
  /-- BNZ (R237). -/
  | bnz (t : TileId) (ra : RegNo) (disp : BitVec 21)
  /-- JAL (R237). -/
  | jal (t : TileId) (ra : RegNo) (disp : BitVec 21)
  /-- JALR (R237). -/
  | jalr (t : TileId) (rd ra rb rc : RegNo) (func : BitVec 6)
  /-- SEND (R228). -/
  | send (t : TileId) (f : SendFields)
  /-- SENDD (R229). -/
  | sendd (t : TileId) (f : SendFields)
  /-- ADJ (R231). -/
  | adj (t : TileId) (rd ra : RegNo) (imm : BitVec 16)
  /-- OPEN (R85). -/
  | openCtx (t : TileId) (rd ra : RegNo) (imm : BitVec 16)
  /-- CLOSE (R91). -/
  | closeCtx (t : TileId) (rd ra : RegNo) (imm : BitVec 16)
  /-- CANCEL (R91). -/
  | cancelCtx (t : TileId) (rd ra : RegNo) (imm : BitVec 16)
  /-- PARK (R95). -/
  | parkCtx (t : TileId) (rd ra : RegNo) (imm : BitVec 16)
  /-- MFS (R236). -/
  | mfs (t : TileId) (rd ra : RegNo) (imm : BitVec 16)
  /-- MTS (R236). -/
  | mts (t : TileId) (rd ra : RegNo) (imm : BitVec 16)
  /-- SEM_ACQ (R220). -/
  | semAcq (t : TileId) (rd ra rb rc : RegNo) (func : BitVec 6)
  /-- SEM_REL (R221). -/
  | semRel (t : TileId) (rd ra rb rc : RegNo) (func : BitVec 6)
  /-- END (R238). -/
  | endFiring (t : TileId) (zero : BitVec 26)
  /-- DATA_STORE (R359). -/
  | qDataStore (who : Requester) (q : QueueId) (value : BitVec 32) (poison : Bool)
  /-- DATA_LOAD (R368). -/
  | qDataLoad (who : Requester) (q : QueueId)
  /-- HEAD (R366). -/
  | qHead (who : Requester) (q : QueueId)
  /-- SELECT (R367). -/
  | qSelect (who : Requester) (q : QueueId) (value : BitVec 32)
  /-- DROP_REST (R371). -/
  | qDropRest (who : Requester) (q : QueueId)
  /-- SEAL (R360). -/
  | qSeal (who : Requester) (q : QueueId) (value : BitVec 32)
  /-- ABORT (R361). -/
  | qAbort (who : Requester) (q : QueueId)
  /-- MICROWORD (R393). -/
  | microword (c : ClusterId) (h : HalyardId)
  /-- SEQ (R390). -/
  | naSeq (c : ClusterId) (h : HalyardId) (f : NextFields)
  /-- JUMP (R390). -/
  | naJump (c : ClusterId) (h : HalyardId) (f : NextFields)
  /-- MWAY (R390). -/
  | naMway (c : ClusterId) (h : HalyardId) (f : NextFields)
  /-- CALL (R391). -/
  | naCall (c : ClusterId) (h : HalyardId) (f : NextFields)
  /-- RET (R391). -/
  | naRet (c : ClusterId) (h : HalyardId) (f : NextFields)
  /-- YIELD (R398). -/
  | naYield (c : ClusterId) (h : HalyardId) (f : NextFields)
  /-- YIELD_RESUME (R398). -/
  | yieldResume (c : ClusterId) (h : HalyardId)
  /-- RXOPEN (R400). -/
  | rxopen (c : ClusterId) (h : HalyardId) (f : IoFields)
  /-- RXB (R395). -/
  | rxb (c : ClusterId) (h : HalyardId) (f : IoFields)
  /-- RXW (R395). -/
  | rxw (c : ClusterId) (h : HalyardId) (f : IoFields)
  /-- RXSKIP (R395). -/
  | rxskip (c : ClusterId) (h : HalyardId) (f : IoFields)
  /-- RXDONE (R402). -/
  | rxdone (c : ClusterId) (h : HalyardId) (f : IoFields)
  /-- QW (R403). -/
  | qw (c : ClusterId) (h : HalyardId) (f : IoFields)
  /-- QSEAL (R404). -/
  | ioQseal (c : ClusterId) (h : HalyardId) (f : IoFields)
  /-- QABORT (R404). -/
  | ioQabort (c : ClusterId) (h : HalyardId) (f : IoFields)
  /-- QHEAD (R395). -/
  | ioQhead (c : ClusterId) (h : HalyardId) (f : IoFields)
  /-- QDATA (R395). -/
  | ioQdata (c : ClusterId) (h : HalyardId) (f : IoFields)
  /-- QDROP (R370). -/
  | ioQdrop (c : ClusterId) (h : HalyardId) (f : IoFields)
  /-- TXOPEN (R405). -/
  | txopen (c : ClusterId) (h : HalyardId) (f : IoFields)
  /-- TXB (R405). -/
  | txb (c : ClusterId) (h : HalyardId) (f : IoFields)
  /-- TXW (R405). -/
  | txw (c : ClusterId) (h : HalyardId) (f : IoFields)
  /-- TXSEND (R405). -/
  | txsend (c : ClusterId) (h : HalyardId) (f : IoFields)
  /-- TXCANCEL (R404). -/
  | txcancel (c : ClusterId) (h : HalyardId) (f : IoFields)
  /-- TXPEND (R395). -/
  | txpend (c : ClusterId) (h : HalyardId) (f : IoFields)
  /-- EVCLR (R397). -/
  | evclr (c : ClusterId) (h : HalyardId) (f : IoFields)
  /-- TIMER (R395). -/
  | timer (c : ClusterId) (h : HalyardId) (f : IoFields)
  /-- MRD (R395). -/
  | mrd (c : ClusterId) (h : HalyardId) (f : IoFields)
  /-- MWR (R395). -/
  | mwr (c : ClusterId) (h : HalyardId) (f : IoFields)
  /-- CRD (R395). -/
  | crd (c : ClusterId) (h : HalyardId) (f : IoFields)
  /-- CWR (R406). -/
  | cwr (c : ClusterId) (h : HalyardId) (f : IoFields)
  /-- SEMACQ (R395). -/
  | semacq (c : ClusterId) (h : HalyardId) (f : IoFields)
  /-- SEMREL (R395). -/
  | semrel (c : ClusterId) (h : HalyardId) (f : IoFields)
  /-- TIMER_EVENT (R399). -/
  | timerEvent (c : ClusterId) (h : HalyardId)
  /-- KEY_UNLOCK (R653). -/
  | keyUnlock (who : Port) (value : BitVec 32)
  /-- FAULT_STICKY (R531). -/
  | faultSticky (who : Port) (g : Fin 48) (value : BitVec 32)
  /-- FAULT_WDOG_KICK (R541). -/
  | faultWdogKick (who : Port) (value : BitVec 32)
  /-- DESTRUCTIVE_MARCH_START (R323). -/
  | destructiveMarchStart (who : Port) (value : BitVec 32)
  /-- PRESERVING_PASS_START (R328). -/
  | preservingPassStart (who : Port) (value : BitVec 32)
  /-- HW_CLEAR (R188). -/
  | hwClear (who : Port) (t : TileId) (value : BitVec 32)
  /-- ACK_NS_CLEAR (R592). -/
  | ackNsClear (who : Port) (value : BitVec 32)
  /-- UACK_MAX_CLEAR (R467). -/
  | uackMaxClear (who : Port) (l : LaneId) (value : BitVec 32)
  /-- DOMAIN_OFF_REQUEST (R615). -/
  | domainOffRequest (who : Port) (d : Fin 33) (value : BitVec 32)
  /-- DOMAIN_ON_REQUEST (R616). -/
  | domainOnRequest (who : Port) (d : Fin 33) (value : BitVec 32)
  /-- FEED_ON_COMMAND (R28). -/
  | feedOnCommand (who : Port) (k : Fin 16) (value : BitVec 32)
  /-- FEED_OFF_COMMAND (R28). -/
  | feedOffCommand (who : Port) (k : Fin 16) (value : BitVec 32)
  /-- PEER_DATA_WRITE (R592). -/
  | peerDataWrite (who : Port) (value : BitVec 32)
  /-- PEER_DATA_READ (R592). -/
  | peerDataRead (who : Port)
  /-- LO_READ_LATCH (R499). -/
  | loReadLatch (who : Port) (addr : BitVec 32)
  /-- SEM_STATE_READ (R347). -/
  | semStateRead (who : Port) (n : Fin 1024)
  /-- REGISTER_WRITE (R495). -/
  | registerWrite (who : Port) (addr value : BitVec 32)
  /-- POSTED_WRITE_EFFECT (R501). -/
  | postedWriteEffect (who : Port)
  /-- PING (R485). -/
  | ping (r : Request)
  /-- IDENT (R489). -/
  | ident (r : Request)
  /-- KEY_STATUS (R485). -/
  | keyStatus (r : Request)
  /-- SET_KEY (R476). -/
  | setKey (r : Request)
  /-- CONFIG_SAVE (R485). -/
  | configSave (r : Request)
  /-- READ_REG (R497). -/
  | readReg (r : Request)
  /-- WRITE_REG (R497). -/
  | writeReg (r : Request)
  /-- READ_BLOCK (R498). -/
  | readBlock (r : Request)
  /-- WRITE_BLOCK (R498). -/
  | writeBlock (r : Request)
  /-- SYNC (R504). -/
  | sync (r : Request)
  /-- SYNC_TIMEOUT (R504). -/
  | syncTimeout
  /-- LOAD_IMAGE (R485). -/
  | loadImage (r : Request)
  /-- VERIFY_IMAGE (R65). -/
  | verifyImage (r : Request)
  /-- ACTIVATE_IMAGE_GRAPH (R590). -/
  | activateImageGraph (r : Request)
  /-- ACTIVATE_IMAGE_MICROCODE (R589). -/
  | activateImageMicrocode (r : Request)
  /-- ACTIVATE_IMAGE_FIRMWARE (R591). -/
  | activateImageFirmware (r : Request)
  /-- ACTIVE_SLOT_CHANGE (R590). -/
  | activeSlotChange
  /-- CLUSTER_QUIET (R417). -/
  | clusterQuiet (c : ClusterId)
  /-- QUIESCE_TIMEOUT (R418). -/
  | quiesceTimeout (c : ClusterId)
  /-- STRIKE (R491). -/
  | strike (r : Request)
  /-- STRIKE_COMPLETE (R491). -/
  | strikeComplete (fn : BitVec 16)
  /-- HOIST (R493). -/
  | hoist (r : Request)
  /-- RETIRE_TILE (R580). -/
  | retireTile (r : Request)
  /-- MARCH (R329). -/
  | march (r : Request)
  /-- MARCH_ABORT (R485). -/
  | marchAbort (r : Request)
  /-- INJECT (R543). -/
  | inject (r : Request)
  /-- FAULT_ACK (R531). -/
  | faultAck (r : Request)
  /-- RECORDER_READ (R551). -/
  | recorderRead (r : Request)
  /-- RECORDER_FREEZE (R547). -/
  | recorderFreeze (r : Request)
  /-- RECORDER_RELEASE (R548). -/
  | recorderRelease (r : Request)
  /-- FAILOVER (R576). -/
  | failover (r : Request)
  /-- FRU_PREPARE (R587). -/
  | fruPrepare (r : Request)
  /-- FRU_RESUME (R588). -/
  | fruResume (r : Request)
  /-- BLADE_RESET (R610). -/
  | bladeReset (r : Request)
  /-- BLADE_RESET_FABRIC (R610). -/
  | bladeResetFabric (r : Request)
  /-- PARK_COMMAND (R182). -/
  | parkCommand (r : Request)
  /-- UNPARK (R183). -/
  | unpark (r : Request)
  /-- CONTEXT_QUERY (R485). -/
  | contextQuery (r : Request)
  /-- CONTEXT_CANCEL (R487). -/
  | contextCancel (r : Request)
  /-- POST (R486). -/
  | post (r : Request)
  /-- SEM_FORCE (R342). -/
  | semForce (r : Request)
  /-- CHANNEL_OPEN (R517). -/
  | channelOpen (r : Request)
  /-- CHANNEL_CLOSE (R517). -/
  | channelClose (r : Request)
  /-- CHANNEL_STATUS (R485). -/
  | channelStatus (r : Request)
  /-- TIME_STATUS (R524). -/
  | timeStatus (r : Request)
  /-- USB_RESYNC (R469). -/
  | usbResync
  /-- CHANNEL_DATA (R509). -/
  | channelData (d : Datagram)
  /-- CHANNEL_ACK (R512). -/
  | channelAck (d : Datagram)
  /-- CHANNEL_SEGMENT_SEND (R512). -/
  | channelSegmentSend (ch : ChannelId)
  /-- CHANNEL_ACK_DUE (R511). -/
  | channelAckDue (ch : ChannelId)
  /-- CHANNEL_RETRANSMIT (R513). -/
  | channelRetransmit (ch : ChannelId)
  /-- CHANNEL_STALLED (R513). -/
  | channelStalled (ch : ChannelId)
  /-- ARP (R519). -/
  | arp (u : UplinkId) (target : BitVec 32) (vlan : Option (BitVec 12))
  /-- NEIGHBOUR_SOLICITATION (R519). -/
  | neighbourSolicitation (u : UplinkId) (target : BitVec 128) (vlan : Option (BitVec 12))
  /-- ECHO_REQUEST (R519). -/
  | echoRequest (u : UplinkId) (target : BitVec 128) (vlan : Option (BitVec 12)) (payload : List Byte)
  /-- PTP_MESSAGE (R523). -/
  | ptpMessage (u : UplinkId) (m : PtpMessage)
  /-- ANNOUNCEMENT_REPEAT (R521). -/
  | announcementRepeat
  /-- DATA_PENNANT (R440). -/
  | dataPennant (l : LaneId) (p : Pennant)
  /-- MGMT_PENNANT (R440). -/
  | mgmtPennant (l : LaneId) (p : Pennant)
  /-- URGENT_PENNANT (R442). -/
  | urgentPennant (l : LaneId) (p : Pennant)
  /-- ACK_PENNANT (R450). -/
  | ackPennant (l : LaneId) (p : Pennant)
  /-- NAK_PENNANT (R451). -/
  | nakPennant (l : LaneId) (p : Pennant)
  /-- CREDIT_PENNANT (R454). -/
  | creditPennant (l : LaneId) (p : Pennant)
  /-- AUDIT_REPLY (R457). -/
  | auditReply (l : LaneId) (p : Pennant)
  /-- FILL_PENNANT (R459). -/
  | fillPennant (l : LaneId) (p : Pennant)
  /-- PENNANT_ABORT (R429). -/
  | pennantAbort (l : LaneId)
  /-- UNDEFINED_PENNANT (R464). -/
  | undefinedPennant (l : LaneId) (type : BitVec 4) (p : Pennant)
  /-- CODE_GROUP_ERROR (R426). -/
  | codeGroupError (l : LaneId)
  /-- PENNANT_BOUNDARY (R437). -/
  | pennantBoundary (l : LaneId)
  /-- DOWNSTREAM_RETRANSMIT (R450). -/
  | downstreamRetransmit (l : LaneId)
  /-- AUDIT (R456). -/
  | audit (l : LaneId)
  /-- AUDIT_TIMEOUT (R457). -/
  | auditTimeout (l : LaneId)
  /-- TRAIN_FILL (R459). -/
  | trainFill (l : LaneId)
  /-- SIGNAL_ENERGY (R459). -/
  | signalEnergy (l : LaneId)
  /-- SIGNAL_LOSS (R459). -/
  | signalLoss (l : LaneId)
  /-- LOCK_LOST (R459). -/
  | lockLost (l : LaneId)
  /-- PENNANT_SILENCE (R459). -/
  | pennantSilence (l : LaneId)
  /-- FAULT_RETRAIN (R459). -/
  | faultRetrain (l : LaneId)
  /-- ERROR_WINDOW (R460). -/
  | errorWindow (l : LaneId)
  /-- TICK (R34). -/
  | tick
  /-- FINE_TICK (R285). -/
  | fineTick
  /-- DELAY_MATURITY (R288). -/
  | delayMaturity (n : Fin 4)
  /-- DELAY_INSERT (R286). -/
  | delayInsert
  /-- GLOBAL_STALL (R162). -/
  | globalStall
  /-- PER_CONTEXT_STALL (R168). -/
  | perContextStall (ctx : BitVec 16)
  /-- QUEUE_EXPIRY (R372). -/
  | queueExpiry (q : QueueId)
  /-- TIMER_ESC (R535). -/
  | timerEsc (source : BitVec 11)
  /-- WATCHDOG (R541). -/
  | watchdog
  /-- CORRECTED_WINDOW (R308). -/
  | correctedWindow
  /-- FORCED_ASSERTION (R543). -/
  | forcedAssertion (source : BitVec 11)
  /-- TOKEN_ACCEPT (R135). -/
  | tokenAccept (t : TileId)
  /-- SPILL_SEARCH_COMPLETE (R135). -/
  | spillSearchComplete (t : TileId) (set : Fin 512)
  /-- SPILL_PUSH_COMPLETE (R145). -/
  | spillPushComplete (t : TileId) (set : Fin 512)
  /-- REFILL (R146). -/
  | refill (t : TileId) (set : Fin 512)
  /-- COMPACTION (R148). -/
  | compaction (t : TileId) (set : Fin 512)
  /-- SPILL_SWEEP (R150). -/
  | spillSweep (t : TileId) (set : Fin 512)
  /-- BLOCKED_SET_ACCEPT (R152). -/
  | blockedSetAccept (t : TileId)
  /-- CANCEL_REMOVAL (R140). -/
  | cancelRemoval (t : TileId) (set : Fin 512) (way : Fin 8)
  /-- DELAY_CANCEL_REMOVAL (R290). -/
  | delayCancelRemoval (n : Fin 4) (index : Nat)
  /-- DISPATCH (R264). -/
  | dispatch (t : TileId)
  /-- ORDERED_EMISSION (R282). -/
  | orderedEmission
  /-- RETIRE_MARKER (R282). -/
  | retireMarker
  /-- INJECTOR_NOTICE (R407). -/
  | injectorNotice (c : ClusterId)
  /-- CELL_GRANT (R374). -/
  | cellGrant (who : Requester) (q : QueueId)
  /-- QFULL (R375). -/
  | qfull (t : TileId)
  /-- TRAIL_BUFFER_DRAIN (R658). -/
  | trailBufferDrain
  /-- PARKING_BEGIN (R173). -/
  | parkingBegin
  /-- PARKING_COMPLETE (R176). -/
  | parkingComplete
  /-- PARK_STAGING_RESUME (R178). -/
  | parkStagingResume
  /-- UNPARK_COMPLETE (R184). -/
  | unparkComplete
  /-- TILE_RETIREMENT (R577). -/
  | tileRetirement (t : TileId)
  /-- MIGRATION_COMPLETE (R153). -/
  | migrationComplete
  /-- LIVE_REPAIR_COMPLETE (R331). -/
  | liveRepairComplete
  /-- MARCH_END (R329). -/
  | marchEnd (words : List MarchWord)
  /-- DRAM_SCRUB (R316). -/
  | dramScrub
  /-- FENCE (R539). -/
  | fence
  /-- SOLO_RESTART (R539). -/
  | soloRestart
  /-- ALIVE_TOGGLE (R540). -/
  | aliveToggle
  /-- PARTNER_ALIVE_LOSS (R573). -/
  | partnerAliveLoss
  /-- CLAIM_LINE_CHANGE (R573). -/
  | claimLineChange (asserted : Bool)
  /-- MUX_SAMPLE (R24). -/
  | muxSample (m : MuxReading)
  /-- INBOUND (R566). -/
  | inboundBlock (b : InboundItem)
  /-- LOG (R566). -/
  | logBlock (b : List LogWrite)
  /-- COMMIT (R564). -/
  | commitBlock (frame : BitVec 32) (blocks : Nat) (crc : BitVec 32)
  /-- ACK (R39). -/
  | ackBlock (frame : BitVec 32)
  /-- CONFIG (R560). -/
  | configBlock (m : ConfigItem)
  /-- ROLE (R576). -/
  | roleBlock (m : RoleMessage)
  /-- FATAL (R573). -/
  | fatalBlock
  /-- DUMP (R549). -/
  | dumpBlock (d : DumpBlock)
  /-- IDLE (R561). -/
  | idleBlock
  /-- TOGGLE_SILENCE (R568). -/
  | toggleSilence
  /-- SB_DOUBT_EXPIRY (R569). -/
  | sbDoubtExpiry
  /-- ACT_DOUBT_EXPIRY (R570). -/
  | actDoubtExpiry
  /-- COMMIT_TIMEOUT (R567). -/
  | commitTimeout
  /-- TICK_ALIGN (R562). -/
  | tickAlign (skew : Int)
  /-- JOIN (R557). -/
  | join (p : PairFacts)
  /-- JOIN_COMPLETE (R557). -/
  | joinComplete
  /-- JOIN_TIMEOUT (R558). -/
  | joinTimeout
  /-- JOIN_RETRY (R558). -/
  | joinRetry
  /-- PARTNER_WAIT_TIMEOUT (R555). -/
  | partnerWaitTimeout
  /-- TAKEOVER (R574). -/
  | takeover
  /-- POWER_ON_RESET (R594). -/
  | powerOnReset (e : StartFacts)
  /-- RESET_PULSE (R613). -/
  | resetPulse
  /-- FABRIC_RESET (R611). -/
  | fabricReset
  /-- POWER_LOSS (R550). -/
  | powerLoss
  /-- FRU_PRESENCE_CHANGE (R618). -/
  | fruPresenceChange (fru : Fin 18) (present : Bool)
  /-- FEED_TRIP (R619). -/
  | feedTrip (k : Fin 16)
  /-- FEED_REARM (R619). -/
  | feedRearm (k : Fin 16)
  /-- PLL_LOCK_LOSS (R622). -/
  | pllLockLoss (k : Fin 5)
  /-- TEMP_CRITICAL (R642). -/
  | tempCritical (k : Fin 7) (temp : BitVec 16)
  /-- FAN_FAULT (R640). -/
  | fanFault (k : Fin 4)
  /-- MIDPLANE_LINK (R528). -/
  | midplaneLink (c : ClusterId)
  /-- CARRIER_COMMAND_TIMEOUT (R584). -/
  | carrierCommandTimeout (k : Fin 2)
  /-- CARRIER_READY_TIMEOUT (R605). -/
  | carrierReadyTimeout
  /-- JOURNAL_WRITE_COMPLETE (R27). -/
  | journalWriteComplete (k : Fin 2)
  /-- RESILVER_COMPLETE (R586). -/
  | resilverComplete (k : Fin 2)
  /-- CODE_GROUP_LOCK (R462). -/
  | codeGroupLock (l : LaneId)
  /-- UPLINK_LINK_CHANGE (R521). -/
  | uplinkLinkChange (u : UplinkId) (up : Bool)
  /-- MIDPLANE_LINK_LOCK (R528). -/
  | midplaneLinkLock (c : ClusterId)
  /-- PLL_LOCK_REGAINED (R622). -/
  | pllLockRegained (k : Fin 5)
  /-- SWEEP_BORROW (R327). -/
  | sweepBorrow (reads : BorrowReads)
  /-- PMBUS_REFRESH (R636). -/
  | pmbusRefresh (r : Readings)
  /-- CLK_MEAS_COMPLETE (R623). -/
  | clkMeasComplete (who : Port) (khz : BitVec 28) (absent : Bool)
  /-- EEPROM_WRITE_COMPLETE (R476). -/
  | eepromWriteComplete (ok : Bool)
  /-- IMAGE_VERIFY_COMPLETE (R65). -/
  | imageVerifyComplete (kind : BitVec 8)
  deriving DecidableEq, Repr

end Sys2Proof
end

