-- ==== Sys2Proof/WellFormed.lean ====
section
/-! DEFINITION. What a command must be to arrive at all: the conditions on its operands that their types do not state. -/

namespace Sys2Proof

/-- An aligned address of the register window (Table 16.1, R212). -/
def registerWf (a : Word32) : Bool := 0x02000000 ≤ a.toNat && a.toNat < 0x03000000 && a.toNat % 4 = 0

/-- A source of the 48 groups (R526). -/
def sourceWf (s : BitVec 11) : Bool := s.toNat < 1536

/-- A command packet: what its datagram or frame brings beyond the 16 bytes of header is parameters and tag (Table 11.1). -/
def Request.wf (r : Request) : Bool := r.size < 16 || r.params.length + r.tag.length + 16 = r.size

/-- A pennant's fields, and a payload no longer than the line can bring (R432). -/
def Pennant.wf (p : Pennant) : Bool := p.payload.length ≤ 2047

/-- A host-channel datagram: a tag of 16 bytes follows its payload (Table 11.7). -/
def Datagram.wf (d : Datagram) : Bool := d.tag.length = 16 && d.payload.length ≤ 65535

/-- An INBOUND block carries what the active blade has accepted (Table 13.6). -/
def InboundItem.wf : InboundItem → Bool
  | .pennant _ type p => (type.toNat = 1 || type.toNat = 2 || type.toNat = 7) && p.wf
  | .segment d => d.wf

/-- A LOG block writes the SRAM or the DRAM, a register, or a unit (R563, Table 16.1). -/
def LogWrite.wf : LogWrite → Bool
  | .memory a _ => a.toNat < 0x1000000 || (0x100000000 ≤ a.toNat && a.toNat < 0x300000000)
  | .poison a => a.toNat < 0x1000000 || (0x100000000 ≤ a.toNat && a.toNat < 0x300000000)
  | .register a _ => registerWf a
  | _ => true

/-- A CONFIG block's write names a register, its STRIKE or HOIST a number below those of the queues' end (Table 11.6). -/
def ConfigItem.wf : ConfigItem → Bool
  | .write a _ => registerWf a
  | .queue _ a _ => registerWf a
  | .strike fn => fn.toNat < 0x5000
  | .hoist fn => fn.toNat < 0x5000
  | .configuration words _ => words.all fun e => e.1 < 2 ^ 32 && registerWf (BitVec.ofNat 32 e.1)
  | .activate kind _ _ => kind.toNat < 4
  | _ => true

/-- A dump holds 4,096 records of one of the two blades (R549, Table 12.12). -/
def DumpBlock.wf (d : DumpBlock) : Bool := d.records.length = 4096 && d.head.toNat < 4096 && d.blade.toNat < 2

/-- No blade has more tiles than 34 (Table 3.1). -/
def PairFacts.wf (p : PairFacts) : Bool := p.activeTiles ≤ 34

/-- A partner that is not there holds no role and toggles nothing. -/
def StartFacts.wf (e : StartFacts) : Bool :=
  e.partnerPresent || (!e.partnerActive && !e.partnerAlive && !e.partnerComplete)

/-- Two supplies, seven sensors and four fans (Tables 15.7 and 15.11). -/
def Readings.wf (r : Readings) : Bool :=
  r.supplies.length = 2 && r.temps.length = 7 && r.fans.length = 4 && r.supercap.toNat ≤ 100

/-- A command's operands are such as can arrive. -/
def Instr.wf : Instr → Bool
  | .add _ _ _ _ _ => true
  | .sub _ _ _ _ _ => true
  | .addc _ _ _ _ _ => true
  | .subb _ _ _ _ _ => true
  | .carry _ _ _ _ _ => true
  | .borrow _ _ _ _ _ => true
  | .neg _ _ _ _ _ => true
  | .and _ _ _ _ _ => true
  | .or _ _ _ _ _ => true
  | .xor _ _ _ _ _ => true
  | .andn _ _ _ _ _ => true
  | .sll _ _ _ _ _ => true
  | .srl _ _ _ _ _ => true
  | .sra _ _ _ _ _ => true
  | .rol _ _ _ _ _ => true
  | .ror _ _ _ _ _ => true
  | .cmpeq _ _ _ _ _ => true
  | .cmplt _ _ _ _ _ => true
  | .cmpltu _ _ _ _ _ => true
  | .sel _ _ _ _ _ => true
  | .mul _ _ _ _ _ => true
  | .mulhu _ _ _ _ _ => true
  | .mulhs _ _ _ _ _ => true
  | .div _ _ _ _ _ => true
  | .divu _ _ _ _ _ => true
  | .rem _ _ _ _ _ => true
  | .remu _ _ _ _ _ => true
  | .fadd _ _ => true
  | .fsub _ _ => true
  | .fmul _ _ => true
  | .fdiv _ _ => true
  | .fsqrt _ _ => true
  | .fma _ _ => true
  | .fcmpeq _ _ => true
  | .fcmplt _ _ => true
  | .fcmple _ _ => true
  | .fcvtI _ _ => true
  | .fcvtU _ _ => true
  | .fcvtFi _ _ => true
  | .fcvtFu _ _ => true
  | .fwiden _ _ => true
  | .fnarrow _ _ => true
  | .addi _ _ _ _ => true
  | .andi _ _ _ _ => true
  | .ori _ _ _ _ => true
  | .xori _ _ _ _ => true
  | .seth _ _ _ _ => true
  | .cmpeqi _ _ _ _ => true
  | .cmplti _ _ _ _ => true
  | .cmpltui _ _ _ _ => true
  | .shifti _ _ _ _ => true
  | .ld8u _ _ _ _ => true
  | .ld8s _ _ _ _ => true
  | .ld16u _ _ _ _ => true
  | .ld16s _ _ _ _ => true
  | .ld32u _ _ _ _ => true
  | .ld32s _ _ _ _ => true
  | .ld64 _ _ _ _ => true
  | .st8 _ _ _ _ => true
  | .st16 _ _ _ _ => true
  | .st32 _ _ _ _ => true
  | .st64 _ _ _ _ => true
  | .cas64 _ _ _ _ _ => true
  | .cas32 _ _ _ _ _ => true
  | .bz _ _ _ => true
  | .bnz _ _ _ => true
  | .jal _ _ _ => true
  | .jalr _ _ _ _ _ _ => true
  | .send _ _ => true
  | .sendd _ _ => true
  | .adj _ _ _ _ => true
  | .openCtx _ _ _ _ => true
  | .closeCtx _ _ _ _ => true
  | .cancelCtx _ _ _ _ => true
  | .parkCtx _ _ _ _ => true
  | .mfs _ _ _ _ => true
  | .mts _ _ _ _ => true
  | .semAcq _ _ _ _ _ _ => true
  | .semRel _ _ _ _ _ _ => true
  | .endFiring _ _ => true
  | .qDataStore _ _ _ _ => true
  | .qDataLoad _ _ => true
  | .qHead _ _ => true
  | .qSelect _ _ _ => true
  | .qDropRest _ _ => true
  | .qSeal _ _ _ => true
  | .qAbort _ _ => true
  | .microword _ _ => true
  | .naSeq _ _ _ => true
  | .naJump _ _ _ => true
  | .naMway _ _ _ => true
  | .naCall _ _ _ => true
  | .naRet _ _ _ => true
  | .naYield _ _ _ => true
  | .yieldResume _ _ => true
  | .rxopen _ _ _ => true
  | .rxb _ _ _ => true
  | .rxw _ _ _ => true
  | .rxskip _ _ _ => true
  | .rxdone _ _ _ => true
  | .qw _ _ _ => true
  | .ioQseal _ _ _ => true
  | .ioQabort _ _ _ => true
  | .ioQhead _ _ _ => true
  | .ioQdata _ _ _ => true
  | .ioQdrop _ _ _ => true
  | .txopen _ _ _ => true
  | .txb _ _ _ => true
  | .txw _ _ _ => true
  | .txsend _ _ _ => true
  | .txcancel _ _ _ => true
  | .txpend _ _ _ => true
  | .evclr _ _ _ => true
  | .timer _ _ _ => true
  | .mrd _ _ _ => true
  | .mwr _ _ _ => true
  | .crd _ _ _ => true
  | .cwr _ _ _ => true
  | .semacq _ _ _ => true
  | .semrel _ _ _ => true
  | .timerEvent _ _ => true
  | .keyUnlock _ _ => true
  | .faultSticky _ _ _ => true
  | .faultWdogKick _ _ => true
  | .destructiveMarchStart _ _ => true
  | .preservingPassStart _ _ => true
  | .hwClear _ _ _ => true
  | .ackNsClear _ _ => true
  | .uackMaxClear _ _ _ => true
  | .domainOffRequest _ _ _ => true
  | .domainOnRequest _ _ _ => true
  | .feedOnCommand _ _ _ => true
  | .feedOffCommand _ _ _ => true
  | .peerDataWrite _ _ => true
  | .peerDataRead _ => true
  | .loReadLatch _ addr => registerWf addr
  | .semStateRead _ _ => true
  | .registerWrite _ addr _ => registerWf addr
  | .postedWriteEffect _ => true
  | .ping r => r.wf
  | .ident r => r.wf
  | .keyStatus r => r.wf
  | .setKey r => r.wf
  | .configSave r => r.wf
  | .readReg r => r.wf
  | .writeReg r => r.wf
  | .readBlock r => r.wf
  | .writeBlock r => r.wf
  | .sync r => r.wf
  | .syncTimeout => true
  | .loadImage r => r.wf
  | .verifyImage r => r.wf
  | .activateImageGraph r => r.wf
  | .activateImageMicrocode r => r.wf
  | .activateImageFirmware r => r.wf
  | .activeSlotChange => true
  | .clusterQuiet _ => true
  | .quiesceTimeout _ => true
  | .strike r => r.wf
  | .strikeComplete _ => true
  | .hoist r => r.wf
  | .retireTile r => r.wf
  | .march r => r.wf
  | .marchAbort r => r.wf
  | .inject r => r.wf
  | .faultAck r => r.wf
  | .recorderRead r => r.wf
  | .recorderFreeze r => r.wf
  | .recorderRelease r => r.wf
  | .failover r => r.wf
  | .fruPrepare r => r.wf
  | .fruResume r => r.wf
  | .bladeReset r => r.wf
  | .bladeResetFabric r => r.wf
  | .parkCommand r => r.wf
  | .unpark r => r.wf
  | .contextQuery r => r.wf
  | .contextCancel r => r.wf
  | .post r => r.wf
  | .semForce r => r.wf
  | .channelOpen r => r.wf
  | .channelClose r => r.wf
  | .channelStatus r => r.wf
  | .timeStatus r => r.wf
  | .usbResync => true
  | .channelData d => d.wf
  | .channelAck d => d.wf
  | .channelSegmentSend _ => true
  | .channelAckDue _ => true
  | .channelRetransmit _ => true
  | .channelStalled _ => true
  | .arp _ _ _ => true
  | .neighbourSolicitation _ _ _ => true
  | .echoRequest _ _ _ _ => true
  | .ptpMessage _ _ => true
  | .announcementRepeat => true
  | .dataPennant _ p => p.wf
  | .mgmtPennant _ p => p.wf
  | .urgentPennant _ p => p.wf
  | .ackPennant _ p => p.wf
  | .nakPennant _ p => p.wf
  | .creditPennant _ p => p.wf
  | .auditReply _ p => p.wf
  | .fillPennant _ p => p.wf
  | .pennantAbort _ => true
  | .undefinedPennant _ _ p => p.wf
  | .codeGroupError _ => true
  | .pennantBoundary _ => true
  | .downstreamRetransmit _ => true
  | .audit _ => true
  | .auditTimeout _ => true
  | .trainFill _ => true
  | .signalEnergy _ => true
  | .signalLoss _ => true
  | .lockLost _ => true
  | .pennantSilence _ => true
  | .faultRetrain _ => true
  | .errorWindow _ => true
  | .tick => true
  | .fineTick => true
  | .delayMaturity _ => true
  | .delayInsert => true
  | .globalStall => true
  | .perContextStall _ => true
  | .queueExpiry _ => true
  | .timerEsc source => sourceWf source
  | .watchdog => true
  | .correctedWindow => true
  | .forcedAssertion source => sourceWf source
  | .tokenAccept _ => true
  | .spillSearchComplete _ _ => true
  | .spillPushComplete _ _ => true
  | .refill _ _ => true
  | .compaction _ _ => true
  | .spillSweep _ _ => true
  | .blockedSetAccept _ => true
  | .cancelRemoval _ _ _ => true
  | .delayCancelRemoval _ index => decide (index < 73728)
  | .dispatch _ => true
  | .orderedEmission => true
  | .retireMarker => true
  | .injectorNotice _ => true
  | .cellGrant _ _ => true
  | .qfull _ => true
  | .trailBufferDrain => true
  | .parkingBegin => true
  | .parkingComplete => true
  | .parkStagingResume => true
  | .unparkComplete => true
  | .tileRetirement _ => true
  | .migrationComplete => true
  | .liveRepairComplete => true
  | .marchEnd _ => true
  | .dramScrub => true
  | .fence => true
  | .soloRestart => true
  | .aliveToggle => true
  | .partnerAliveLoss => true
  | .claimLineChange _ => true
  | .muxSample _ => true
  | .inboundBlock b => b.wf
  | .logBlock b => b.all LogWrite.wf
  | .commitBlock _ _ _ => true
  | .ackBlock _ => true
  | .configBlock m => m.wf
  | .roleBlock _ => true
  | .fatalBlock => true
  | .dumpBlock d => d.wf
  | .idleBlock => true
  | .toggleSilence => true
  | .sbDoubtExpiry => true
  | .actDoubtExpiry => true
  | .commitTimeout => true
  | .tickAlign _ => true
  | .join p => p.wf
  | .joinComplete => true
  | .joinTimeout => true
  | .joinRetry => true
  | .partnerWaitTimeout => true
  | .takeover => true
  | .powerOnReset e => e.wf
  | .resetPulse => true
  | .fabricReset => true
  | .powerLoss => true
  | .fruPresenceChange _ _ => true
  | .feedTrip _ => true
  | .feedRearm _ => true
  | .pllLockLoss _ => true
  | .tempCritical _ _ => true
  | .fanFault _ => true
  | .midplaneLink _ => true
  | .carrierCommandTimeout _ => true
  | .carrierReadyTimeout => true
  | .journalWriteComplete _ => true
  | .resilverComplete _ => true
  | .codeGroupLock _ => true
  | .uplinkLinkChange _ _ => true
  | .midplaneLinkLock _ => true
  | .pllLockRegained _ => true
  | .sweepBorrow _ => true
  | .pmbusRefresh r => r.wf
  | .clkMeasComplete _ _ _ => true
  | .eepromWriteComplete _ => true
  | .imageVerifyComplete _ => true

end Sys2Proof
end

