-- ==== Sys2Proof/Machine/State.lean ====
section
/-! DEFINITION. The state of one blade and of the parts of the module it works with, as plain data, and the state after
power-on reset. `mem` holds the shared SRAM and the DRAM, `blade` everything else, `pending` the commands that wait.
Large arrays are sparse maps: an unlisted index reads as the value that its rule gives at reset. -/

namespace Sys2Proof.Machine

/-! ## Memory -/

/-- The shared SRAM and the DRAM (R303, R314, Table 16.1). An unlisted byte reads 0 (Table 14.6: tested, then zero); an
unlisted word is sound. `marks` is indexed by address div 8. -/
structure Memory where
  cells : List Host.Cell
  marks : SMap WordMark
  deriving DecidableEq, Repr, Inhabited

/-! ## Faults and the recorder -/

/-- A fault source (R526 to R535): its sticky bit, effective class, deadline in ticks, injection, L cause, and the window
count of a W source; `hurt` says that the collector's word of it fails its parity. -/
structure Source where
  sticky : Bool
  eff : BitVec 2
  deadline : Nat
  mode : BitVec 2
  remaining : Nat
  cause : Bool
  count : Nat
  thresholdPassed : Bool
  hurt : Bool
  deriving DecidableEq, Repr

/-- An assertion on its way to the collector, with what its FAULT record says (Tables 12.9 and 12.11). -/
structure Assertion where
  source : Nat
  forced : Bool
  unit : BitVec 8
  sub : BitVec 8
  context : Option (BitVec 16)
  detail : Word32 × Word32 × Word32
  deriving DecidableEq, Repr

/-! ## The duplex pair, the journal and the module -/

inductive BladeRole where
  | starting
  | active
  | standby
  deriving DecidableEq, Repr

inductive Duplex where
  | solo
  | joining
  | joined
  | doubt
  | unjoined
  deriving DecidableEq, Repr

inductive CarrierState where
  | absent
  | off
  | starting
  | resilvering
  | inService
  | failed
  deriving DecidableEq, Repr

/-- A journal carrier (R584), its presence, its link, its capacity in GB, and the journal blocks it has written. -/
structure Carrier where
  state : CarrierState
  present : Bool
  link : Bool
  capacity : BitVec 16
  written : Nat
  deriving DecidableEq, Repr

/-- A journal block that waits for its carriers (R583): its number, the frame of its last packet byte, its 4,096 bytes, and
the carriers that have completed it. -/
structure JournalBlock where
  seq : Word64
  frame : Word32
  bytes : List Byte
  done : BitVec 2
  deriving DecidableEq, Repr

inductive FruState where
  | absent
  | present
  | prepared
  | inService
  | failed
  deriving DecidableEq, Repr

/-- A switched feed as this blade sees it (R28, R619). -/
structure Feed where
  command : Bool
  partnerCommand : Bool
  present : Bool
  tripped : Bool
  deriving DecidableEq, Repr

/-- The requested march, if one runs (R328, R329): its bank, its MARCH_START word, the next borrow of a preserving pass, and
the command it answers. -/
structure MarchRun where
  bank : Fin 64
  word : Word32
  borrow : Nat
  dest : Option ReplyTo
  deriving DecidableEq, Repr

/-- A live repair in progress (R330): bank, row, spare row, and the lines copied so far (R331). -/
structure LiveRepair where
  bank : Fin 64
  row : Fin 512
  spare : Fin 4
  copied : Nat
  deriving DecidableEq, Repr

/-- A posted write of a slow domain (R501). -/
structure PostedWrite where
  port : Port
  address : Word32
  value : Word32
  deriving DecidableEq, Repr

/-- A latched word (R499, Table 7.30): the requester whose read latched it, its address and its value. -/
structure LoLatch where
  port : Port
  address : Word32
  value : Word32
  deriving DecidableEq, Repr

/-- The image in staging (R485): its kind and size, the ranges loaded, and how far its verification has come. -/
structure ImageStaging where
  kind : Byte
  total : Nat
  ranges : List (Nat × Nat)
  verified : Bool
  verifying : Bool
  deriving DecidableEq, Repr

/-- An activation of a microcode image in progress (R417): the clusters still to load and the command it answers. -/
structure Activation where
  clusters : List (Fin 8)
  dest : ReplyTo
  deriving DecidableEq, Repr

/-- The pair's slots, trial and fuses of the boot NOR and the FN-1 (Table 14.3, R600, R601). -/
structure Boot where
  preferredB : Bool
  confirmedB : Bool
  trialCount : Nat
  bootedB : Bool
  trial : Bool
  fallback : Bool
  factory : Bool
  revoked : BitVec 4
  /-- The public keys in the fuses (R599), by number: an unlisted one is the build's own. -/
  fuses : SMap (Nat × Nat)
  deriving DecidableEq, Repr

/-- Registers and the rules that guard them (R15, R494 to R505, R653, R382). -/
structure Csr where
  /-- Register words that hold settings, counts or readings, by address; an unlisted one reads as its reset value. -/
  words : SMap Word32
  /-- Words staged since their function was struck (R494), by address, or by queue and word for the queue descriptors. -/
  staged : SMap Word32
  /-- Functions whose struck state differs from the reset one, by identifier (R490). -/
  struck : SMap Bool
  /-- Functions whose STRIKE has been accepted and not answered (R491). -/
  striking : List Nat
  /-- Ports whose key arm is set (R653), and the source of the command that set the command engine's (R481): a key slot,
  or none for provisioning. -/
  arms : List Port
  armSource : Option (Option (Fin 4))
  /-- Selections held per requester port (R382). -/
  queueSel : SMap Word32
  recSel : SMap Word32
  injSel : SMap Word32
  measSel : SMap Word32
  measured : SMap Word32
  latches : List LoLatch
  posted : List PostedWrite
  postDropped : SMap Word32
  deriving DecidableEq, Repr

/-- The token network, the tiles and the matching store (chapters 3, 4 and 6). -/
structure Net where
  home : SMap (List Token)
  release : List ReleaseItem
  delayIn : List DelayRequest
  /-- Tokens at port 44 in the order formed: its queue of 256, and what units hold for it (R119). -/
  port44 : List Port44Item
  /-- Tokens, with their ports, that senders hold at the redirect barrier (Table 3.6). -/
  barrierHeld : List (Nat × Token)
  rotors : SMap (BitVec 8)
  tiling : SMap Nat
  activeTiles : BitVec 34
  spareValid : BitVec 2
  retiredTiles : BitVec 34
  failedTiles : BitVec 34
  migration : Option Migration
  retireQueue : List TileId
  /-- Counts entries into ready queues and insertions into delay lists: the order of ages (R266) and stamps (R286). -/
  stamp : Nat
  tiles : SMap Tile
  sets : SMap MatchSet
  /-- Whether the frame has seen progress of R161, and the counts of R162, R168 and R272. -/
  progressed : Bool
  stallFrames : Nat
  stallUnresolved : Bool
  stallTokens : Nat
  /-- Stalled contexts found at a tick and not yet reported (R168). -/
  stallWaiting : List Nat
  /-- Admission throttling is active (R157). -/
  throttling : Bool
  budgetTokens : Nat
  deriving DecidableEq, Repr, Inhabited

/-- Contexts, the ledger and parking (chapters 2 and 3). -/
structure Ledger where
  contexts : SMap Ctx
  free : FreeList
  trail : List TrailRecord
  activeSlotB : Bool
  /-- The slot that CTX_ACTIVE_SLOT takes at the tick after a frame (R590). -/
  slotChange : Option (Bool × Word32)
  lostDescriptors : List (Bool × BitVec 20)
  parking : Option Parking
  parkRequests : List (BitVec 16 × ParkCause)
  parked : SMap ParkImage
  deriving DecidableEq, Repr, Inhabited

/-- Ordered flows, the reorder buffer and the delay lists (chapter 6). -/
structure Order where
  flows : SMap Flow
  free : FreeList
  booked : Nat
  headBooked : Nat
  delays : SMap DelayList
  deriving DecidableEq, Repr, Inhabited

/-- Semaphores and the sweep (chapter 7). `zeroed` marks the banks that a destructive march ran on while struck. -/
structure Banks where
  semaphores : SMap Semaphore
  march : Option MarchRun
  repair : Option LiveRepair
  zeroed : BitVec 64
  deriving DecidableEq, Repr

/-- The queue pool (chapter 8). Packets are indexed by the order in which they were opened; `waiting` holds writes of the hub's
own units that find their queue struck or no cell, each with its queue, in the order issued (R374). -/
structure Pool where
  free : FreeList
  packets : SMap Packet
  next : Nat
  queues : SMap Queue
  cursors : List Cursor
  waiting : List (Nat × WaitingStore)
  lost : Nat
  deriving DecidableEq, Repr, Inhabited

/-- Lane clusters, halyards and lane ports (chapters 9 and 10). Halyards and ports are indexed by lane. -/
structure Lanes where
  clusters : SMap Cluster
  halyards : SMap Halyard
  ports : SMap LanePort
  deriving DecidableEq, Repr, Inhabited

/-- The command engine, its host channels, images and clocks of day (chapter 11). -/
structure Engine where
  keys : SMap KeySlot
  /-- CONTEXT_CANCELs that the trail buffer holds up (R658), with their contexts. -/
  cancels : List (BitVec 16 × ReplyTo)
  deferred : List Deferred
  heldReplies : List HeldReply
  usbDiscarding : Bool
  staging : ImageStaging
  activation : Option Activation
  /-- Writes of the identity EEPROM not yet completed, oldest first. -/
  eepromWrites : List Deferred
  savedUplinks : SMap Word32
  /-- The microcode image in force. -/
  microcode : Option MicroImage
  channels : SMap Channel
  notices : Word32
  noticesLost : BitVec 16
  /-- The clock at the last hoist, and the time stamped on the journal records of the frame (R524). -/
  ptpTime : Word64
  stamp : Word64
  ptpOffset : Word32
  /-- Repeats of the address announcements that are due (R521). -/
  announcements : Nat
  deriving DecidableEq, Repr

/-- The fault collector and the event recorder (chapter 12). -/
structure Faults where
  sources : SMap Source
  /-- Assertions of the present step, not yet taken by the collector. -/
  due : List Assertion
  /-- A fatal assertion has occurred; the fence of Table 12.5 is due, or has come. -/
  fatal : Bool
  fencing : Bool
  fenced : Bool
  soloFence : Bool
  kickFrames : Nat
  windowLeft : Nat
  aliveLevel : Bool
  moduleLevel : Bool
  /-- The blade has begun to toggle its module ALIVE transistor, at its first hoist as active (R632). -/
  moduleRuns : Bool
  /-- A bank has a failing row with no spare (Table 12.22). -/
  noSpareRow : Bool
  ring : SMap (BitVec 256)
  /-- Ring positions whose record holds a word with a single-bit error, once for each such word. -/
  ringHurt : List Nat
  head : BitVec 12
  number : Word32
  /-- The number that the first record had, or the first one after the ring was last cleared (R551). -/
  firstNumber : Word32
  frozen : Bool
  cause : BitVec 3
  freezeFrame : Word32
  lost : BitVec 16
  saved : Option DumpBlock
  saveFailed : Bool
  /-- The saved copy has not been dumped since it was saved (R551). -/
  dumpDue : Bool
  /-- Dumps that the partner has sent, oldest first. -/
  partnerDumps : List DumpBlock
  deriving DecidableEq, Repr

/-- The units of a joined standby, as of the last applied frame (Table 13.4); their tiles go by logical number (R559). -/
structure Held where
  net : Net
  led : Ledger
  ord : Order
  semaphores : SMap Semaphore
  pool : Pool
  lan : Lanes
  channels : SMap Channel
  journal : List StagedRecord
  deriving DecidableEq, Repr, Inhabited

/-- What has left the hub, or passed between its parts, oldest first: the model's own record of the outputs. -/
inductive Output where
  | hoist (l : LaneId) (frame : BitVec 16) (crc : Byte)
  | pennant (l : LaneId) (bytes : List Byte)
  | inset (l : LaneId) (bytes : List Byte)
  | abort (l : LaneId)
  | reply (dest : ReplyTo) (bytes : List Byte)
  /-- A channel datagram: to its peer's address, from and to its UDP ports. -/
  | segment (ch : ChannelId) (peer : BitVec 128) (source dest : BitVec 16) (bytes : List Byte)
  | arp (u : UplinkId) (address : BitVec 128) (gratuitous : Bool)
  | echo (u : UplinkId) (payload : List Byte)
  | delayRequest (u : UplinkId)
  /-- A frame of an uplink that leaves with an 802.1Q tag. -/
  | tagged (vlan : BitVec 12) (frame : Output)
  /-- A block of the toggle link that carries no more than its type and a frame (Table 13.6). -/
  | toggle (type : BitVec 8) (frame : Word32)
  | inbound (i : InboundItem)
  | role (r : RoleMessage)
  /-- The LOG blocks of a frame (R563), and the duplex state as a join copies it (Table 13.2 step 3). -/
  | log (frame : Word32) (writes : List LogWrite)
  | copied (units : Held) (mem : Memory)
  | mirror (c : ConfigItem)
  | dump (d : DumpBlock)
  | peerWrite (address value : Word32)
  | resetPulse
  /-- A write to a carrier, at a byte offset of its regions (Table 13.10). -/
  | carrierWrite (k : Fin 2) (offset : Nat) (bytes : List Byte)
  | alive (module : Bool) (level : Bool)
  deriving DecidableEq, Repr

/-- The duplex pair (chapters 1 and 13). -/
structure Pair where
  role : BladeRole
  duplex : Duplex
  claim : Bool
  lock : Bool
  partnerPresent : Bool
  partnerRefused : Bool
  /-- The SYS_ID that the inserted partner last showed (R3). -/
  partnerSysId : Word32
  partnerClaim : Bool
  partnerAlive : Bool
  /-- Frames ended and not yet released, oldest first (R39, R42), with the times stamped on their records (R524). -/
  unreleased : List (Word32 × Word64)
  /-- How many of them, the oldest, have had their COMMIT sent (R564). -/
  commitsSent : Nat
  /-- The copy of a join has completed, and the COMMIT that ends it is due or sent (Table 13.2). -/
  copyDone : Bool
  doubtFrames : Nat
  misaligned : Nat
  /-- The last frame acknowledged to the partner while it was active (R549). -/
  ackedFrame : Word32
  joinRetry : Bool
  /-- What the partner showed when the link last trained (R559). -/
  partnerFacts : Option PairFacts
  /-- The frame in which this blade took over from its partner, which until then held the active role (R549). -/
  tookOver : Option Word32
  handingOver : Option Deferred
  /-- Blocks that wait until the toggle link trains again (R561). -/
  unsent : List Output
  /-- What a standby holds: its copy, and the INBOUND blocks, with the frame they came in, and LOG blocks of the frames it has
  not acknowledged (Table 13.4). On the active blade `held` and `logged` are the units and the memory as its LOG last left them
at the standby (R563). -/
  held : Held
  logged : Memory
  /-- This blade's own tiles by logical number (R559, R581). -/
  logical : List Nat
  inbound : List (Word32 × InboundItem)
  log : List (List LogWrite)
  applying : List (List LogWrite)
  /-- A standby has detected the failure of the active blade and has not yet begun to execute (R573, R574). -/
  detected : Bool
  /-- Muxes that select blade B, and muxes that have selected (R24). -/
  muxB : List Nat
  muxChosen : List Nat
  /-- Bytes of LOG that wait to be sent, as last sampled, and whether they stop dispatch (R565, Tables 13.16 and 13.17). -/
  logUnsent : Nat
  throttled : Bool
  deriving DecidableEq, Repr

/-- Carriers, FRUs, boot, power and clocks (chapters 13 to 15). -/
structure Hardware where
  carriers : SMap Carrier
  journal : List StagedRecord
  blocks : List JournalBlock
  nextRecord : Nat
  blockSeq : Word64
  /-- The image store of the carriers, by kind (Table 13.10), and the firmware slots of the boot NOR (Table 14.3). -/
  imageStore : SMap (List Byte)
  nor : SMap (List Byte)
  resilvering : Option (Fin 2)
  /-- A carrier that FRU_PREPARE has marked out of service, its writes that are still outstanding, and the command (R587). -/
  leaving : Option (Fin 2 × List JournalBlock × ReplyTo)
  frus : SMap FruState
  fruPending : Option Deferred
  boot : Boot
  startStep : BitVec 4
  startFailed : Bool
  startCause : BitVec 5
  /-- What the start-up in progress has found. -/
  startFacts : Option StartFacts
  inService : Bool
  waitingPartner : Bool
  resetType : BitVec 2
  resetCause : BitVec 3
  domainsOn : BitVec 33
  feeds : SMap Feed
  pllLocks : BitVec 5
  cards : BitVec 8
  deriving DecidableEq, Repr

/-- Everything of the blade but its memories. -/
structure Blade where
  /-- Source of the free values: the model's own counter, advanced at every draw. -/
  draws : Nat
  bladeB : Bool
  frame : Word32
  fineTicks : Nat
  /-- What the last load, register read or microcode I/O read returned to its requester. -/
  response : Item
  outputs : List Output
  csr : Csr
  net : Net
  led : Ledger
  ord : Order
  bank : Banks
  pool : Pool
  lan : Lanes
  eng : Engine
  flt : Faults
  pair : Pair
  hw : Hardware
  deriving DecidableEq, Repr

/-- The whole state. `pending` is the queue of waiting commands, first in, first out. -/
structure State where
  mem : Memory
  blade : Blade
  pending : List Instr
  deriving DecidableEq, Repr

/-- Why the model stops. No command of this hub ends in a fault: a codelet's trap, a cluster's strike and a blade's fence
are next states. -/
inductive Fault where
  /-- Never raised: kept so that the type of faults has a member. Safe: no step answers it. -/
  | none
  deriving DecidableEq, Repr

/-- Why the model gives a command no meaning. -/
inductive Refusal where
  /-- Raised by an arm of the dispatch that has no meaning yet. Safe: nothing can be proved of what such a command does. -/
  | notModelled (mnemonic : String)
  deriving DecidableEq, Repr

/-! ## Reset -/

/-- An empty free list over the numbers from `a` to `b`. -/
def FreeList.full (a b : Nat) : FreeList := { head := [], fresh := a, last := b, tail := [] }

def Csr.reset : Csr :=
  { words := [], staged := [], struck := [], striking := [], arms := [], armSource := none, queueSel := [], recSel := [],
    injSel := [], measSel := [], measured := [], latches := [], posted := [], postDropped := [] }

def Net.reset : Net :=
  { home := [], release := [], delayIn := [], port44 := [], barrierHeld := [], rotors := [], tiling := [], activeTiles := 0,
    spareValid := 3, retiredTiles := 0, failedTiles := 0, migration := none, retireQueue := [], stamp := 0, tiles := [],
    sets := [], progressed := false, stallFrames := 0, stallUnresolved := false, stallTokens := 0, stallWaiting := [], throttling := false, budgetTokens := 0 }

def Ledger.reset : Ledger :=
  { contexts := [], free := .full 256 65535, trail := [], activeSlotB := false, slotChange := none, lostDescriptors := [],
    parking := none, parkRequests := [], parked := [] }

def Order.reset : Order := { flows := [], free := .full 128 4095, booked := 0, headBooked := 0, delays := [] }

def Banks.reset : Banks := { semaphores := [], march := none, repair := none, zeroed := 0 }

def Pool.reset : Pool :=
  { free := .full 0 65535, packets := [], next := 0, queues := [], cursors := [], waiting := [], lost := 0 }

def Lanes.reset : Lanes := { clusters := [], halyards := [], ports := [] }

def Engine.reset : Engine :=
  { keys := [], cancels := [], deferred := [], heldReplies := [], usbDiscarding := false,
    staging := { kind := 0, total := 0, ranges := [], verified := false, verifying := false }, activation := none, eepromWrites := [],
    savedUplinks := [], microcode := none, channels := [], notices := 0, noticesLost := 0, ptpTime := 0, stamp := 0, ptpOffset := 0, announcements := 0 }

def Faults.reset : Faults :=
  { sources := [], due := [], fatal := false, fencing := false, fenced := false, soloFence := false, kickFrames := 0,
    windowLeft := 0, aliveLevel := false, moduleLevel := false, moduleRuns := false, noSpareRow := false, ring := [], ringHurt := [], head := 0, number := 0, firstNumber := 0,
    frozen := false, cause := 0, freezeFrame := 0, lost := 0, saved := none, saveFailed := false, dumpDue := false, partnerDumps := [] }

def Held.reset : Held :=
  { net := .reset, led := .reset, ord := .reset, semaphores := [], pool := .reset, lan := .reset, channels := [], journal := [] }

def Pair.reset : Pair :=
  { role := .starting, duplex := .solo, claim := false, lock := false, partnerPresent := false, partnerRefused := false, partnerSysId := 0,
    partnerClaim := false, partnerAlive := false, unreleased := [], commitsSent := 0, copyDone := false, doubtFrames := 0, misaligned := 0, ackedFrame := 0, joinRetry := false, partnerFacts := none, tookOver := none,
    handingOver := none, unsent := [], held := .reset, logged := { cells := [], marks := [] }, logical := [], inbound := [], log := [], applying := [], detected := false, muxB := [],
    muxChosen := [], logUnsent := 0, throttled := false }

def Hardware.reset : Hardware :=
  { carriers := [], journal := [], blocks := [], nextRecord := 0, blockSeq := 0, imageStore := [], nor := [], resilvering := none, leaving := none, frus := [], fruPending := none,
    boot := { preferredB := false, confirmedB := false, trialCount := 0, bootedB := false, trial := false,
              fallback := false, factory := false, revoked := 0, fuses := [] },
    startStep := 0, startFailed := false, startCause := 0, startFacts := none, inService := false, waitingPartner := false, resetType := 0,
    resetCause := 0, domainsOn := 0x100000000, feeds := [], pllLocks := 0, cards := 0 }

/-- The blade right after power-on reset, before its start-up sequencer has run. -/
def Blade.reset : Blade :=
  { draws := 0, bladeB := false, frame := 0, fineTicks := 0, response := { value := 0, tag := .data }, outputs := [],
    csr := .reset, net := .reset, led := .reset, ord := .reset, bank := .reset, pool := .reset, lan := .reset,
    eng := .reset, flt := .reset, pair := .reset, hw := .reset }

/-- The machine right after reset: every register at the value R17 and the reset columns give, nothing listed in memory,
no command waiting. -/
def State.reset : State := { mem := { cells := [], marks := [] }, blade := .reset, pending := [] }

end Sys2Proof.Machine
end

