-- ==== Sys2Proof/Machine/Util.lean ====
section
/-! DEFINITION. Sparse arrays, byte strings, bit fields and the two checksums of the manual's formats. -/

namespace Sys2Proof.Machine

/-! ## Sparse arrays -/

/-- The value at an index; `d` is what an unlisted index reads as. -/
def mget {α : Type} (d : α) (k : Nat) : SMap α → α
  | [] => d
  | (i, v) :: r => if i = k then v else mget d k r

/-- The array with a value listed at an index, before every higher index. -/
def minsert {α : Type} (k : Nat) (v : α) : SMap α → SMap α
  | [] => [(k, v)]
  | (i, w) :: r => if i < k then (i, w) :: minsert k v r else if i = k then (k, v) :: r else (k, v) :: (i, w) :: r

/-- The array with the value at one index replaced, in canonical form when it was. -/
def mput {α : Type} [DecidableEq α] (d : α) (k : Nat) (v : α) (m : SMap α) : SMap α :=
  if v = d then m.filter fun e => e.1 ≠ k else minsert k v m

/-- The listed indices that meet a test. -/
def mkeys {α : Type} (p : Nat → α → Bool) (m : SMap α) : List Nat :=
  (m.filter fun e => p e.1 e.2).map (·.1)

/-- The sum of a measure over the listed entries. -/
def msum {α : Type} (f : α → Nat) (m : SMap α) : Nat := (m.map fun e => f e.2).sum

/-- Canonical form: indices strictly rising, no listed value equal to `d`. -/
def canon {α : Type} [DecidableEq α] (d : α) : SMap α → Bool
  | [] => true
  | [(_, v)] => v ≠ d
  | (i, v) :: (j, w) :: r => v ≠ d && i < j && canon d ((j, w) :: r)

/-! ## Bit fields and bytes -/

/-- Bits [lo + len − 1 : lo] of a number (R11). -/
def bits (n lo len : Nat) : Nat := n / 2 ^ lo % 2 ^ len

/-- A number's bit. -/
def bitOf (n i : Nat) : Bool := n / 2 ^ i % 2 = 1

/-- One as a bit, or zero. -/
def b2n (b : Bool) : Nat := if b then 1 else 0

/-- A 32-bit word from fields given as (position, width, value): each is cut to its width. -/
def pack (fs : List (Nat × Nat × Nat)) : Word32 :=
  BitVec.ofNat 32 (fs.foldl (fun a f => a + f.2.2 % 2 ^ f.2.1 * 2 ^ f.1) 0)

/-- The bits of a mask taken from `new`, the rest from `old`. -/
def merge (mask old new : Word32) : Word32 := (old &&& ~~~mask) ||| (new &&& mask)

/-- A count one higher that stays at its maximum (saturation). -/
def satInc {w : Nat} (x : BitVec w) : BitVec w := if x = BitVec.allOnes w then x else x + 1

/-- `n` little-endian bytes of a number (R12). -/
def leBytes : Nat → Nat → List Byte
  | 0, _ => []
  | n + 1, v => BitVec.ofNat 8 v :: leBytes n (v / 256)

/-- The number that little-endian bytes spell (R12). -/
def leNat : List Byte → Nat
  | [] => 0
  | b :: r => b.toNat + 256 * leNat r

/-- `n` big-endian bytes of a number. -/
def beBytes (n v : Nat) : List Byte := (leBytes n v).reverse

/-- The number that big-endian bytes spell. -/
def beNat (bs : List Byte) : Nat := leNat bs.reverse

/-- `len` bytes from an offset, zero-filled past the end. -/
def sliceBytes (bs : List Byte) (off len : Nat) : List Byte :=
  let s := (bs.drop off).take len
  s ++ List.replicate (len - s.length) 0

/-- The little-endian field of `len` bytes at an offset. -/
def fieldAt (bs : List Byte) (off len : Nat) : Nat := leNat (sliceBytes bs off len)

/-- 32-bit words of a byte string, the last one zero-filled. -/
def wordsOf : List Byte → List Word32
  | [] => []
  | [a] => [BitVec.ofNat 32 (leNat [a])]
  | [a, b] => [BitVec.ofNat 32 (leNat [a, b])]
  | [a, b, c] => [BitVec.ofNat 32 (leNat [a, b, c])]
  | a :: b :: c :: d :: r => BitVec.ofNat 32 (leNat [a, b, c, d]) :: wordsOf r

/-- The bytes of words in order. -/
def bytesOf (ws : List Word32) : List Byte := ws.flatMap fun w => leBytes 4 w.toNat

/-- A 64-bit value's signed reading modulo 2^64. -/
def ofInt64 (i : Int) : Word64 := BitVec.ofInt 64 i

/-! ## Checksums -/

/-- One step of a CRC with the polynomial's bits reflected. -/
def crcBitR (w poly c : Nat) : Nat := if c % 2 = 1 then (c / 2) ^^^ poly else c / 2 % 2 ^ w

/-- One byte into a reflected CRC. -/
def crcByteR (w poly c : Nat) (b : Byte) : Nat :=
  (List.range 8).foldl (fun c _ => crcBitR w poly c) (c ^^^ b.toNat)

/-- CRC-32 of IEEE 802.3 (R430): reflected, initial and final value all ones. -/
def crc32 (bs : List Byte) : Word32 :=
  BitVec.ofNat 32 (bs.foldl (crcByteR 32 0xEDB88320) 0xFFFFFFFF) ^^^ BitVec.allOnes 32

/-- One byte into a CRC-8 that shifts left. -/
def crcByteL (poly c : Nat) (b : Byte) : Nat :=
  (List.range 8).foldl (fun c _ => if c / 128 % 2 = 1 then (c * 2 % 256) ^^^ poly else c * 2 % 256) (c ^^^ b.toNat)

/-! ## Lists -/

/-- The list without its first element that meets a test. -/
def dropFirst {α : Type} (p : α → Bool) : List α → List α
  | [] => []
  | a :: r => if p a then r else a :: dropFirst p r

/-- The list with its first element that meets a test replaced. -/
def modFirst {α : Type} (p : α → Bool) (f : α → α) : List α → List α
  | [] => []
  | a :: r => if p a then f a :: r else a :: modFirst p f r

/-- The least index below a bound, from `i` on, that meets a test. -/
def firstFrom (p : Nat → Bool) : Nat → Nat → Option Nat
  | 0, _ => none
  | n + 1, i => if p i then some i else firstFrom p n (i + 1)

/-- A function applied a number of times. -/
def times {α : Type} : Nat → (α → α) → α → α
  | 0, _, a => a
  | n + 1, f, a => times n f (f a)

end Sys2Proof.Machine
end

