-- ==== Sys2Proof/Machine/Encoding.lean ====
section
/-! DEFINITION. The words of codelet instructions: the formats of Table 4.2 and the opcode map of Tables 4.3 to 4.6. -/

namespace Sys2Proof.Machine

/-! ## From a word to its instruction (R195, R196) -/

/-- The fields of formats R, I and S: [25:21], [20:16], [15:11] and [10:6]. -/
def fieldRd (w : Word32) : RegNo := BitVec.ofNat 5 (bits w.toNat 21 5)
def fieldRa (w : Word32) : RegNo := BitVec.ofNat 5 (bits w.toNat 16 5)
def fieldRb (w : Word32) : RegNo := BitVec.ofNat 5 (bits w.toNat 11 5)
def fieldRc (w : Word32) : RegNo := BitVec.ofNat 5 (bits w.toNat 6 5)
def fieldFunc (w : Word32) : BitVec 6 := BitVec.ofNat 6 (bits w.toNat 0 6)
def fieldImm (w : Word32) : BitVec 16 := BitVec.ofNat 16 (bits w.toNat 0 16)

/-- [20:0] of format B. -/
def fieldDisp (w : Word32) : BitVec 21 := BitVec.ofNat 21 (bits w.toNat 0 21)

/-- The fields of format F. -/
def fieldsF (w : Word32) : FpFields :=
  { rd := fieldRd w, ra := fieldRa w, rb := fieldRb w, rm := BitVec.ofNat 3 (bits w.toNat 8 3),
    zero := BitVec.ofNat 1 (bits w.toNat 7 1), size := BitVec.ofNat 1 (bits w.toNat 6 1) }

/-- The fields of format M. -/
def fieldsM (w : Word32) : FmaFields :=
  { rd := fieldRd w, ra := fieldRa w, rb := fieldRb w, rc := fieldRc w, rm := BitVec.ofNat 3 (bits w.toNat 3 3),
    zero := BitVec.ofNat 2 (bits w.toNat 1 2), size := BitVec.ofNat 1 (bits w.toNat 0 1) }

/-- The fields of format N. -/
def fieldsN (w : Word32) : SendFields :=
  { rv := fieldRd w, rt := fieldRa w, rdl := fieldRb w, port := BitVec.ofNat 2 (bits w.toNat 9 2),
    cls := BitVec.ofNat 3 (bits w.toNat 6 3), ctrl := BitVec.ofNat 1 (bits w.toNat 5 1),
    list := BitVec.ofNat 2 (bits w.toNat 3 2), zero := BitVec.ofNat 3 (bits w.toNat 0 3) }

/-- Table 4.4. -/
def decodeAlu (t : TileId) (w : Word32) : Option Instr :=
  let i := fun k : TileId → RegNo → RegNo → RegNo → RegNo → Instr =>
    some (k t (fieldRd w) (fieldRa w) (fieldRb w) (fieldRc w))
  match (fieldFunc w).toNat with
  | 0x00 => i .add
  | 0x01 => i .sub
  | 0x02 => i .addc
  | 0x03 => i .subb
  | 0x04 => i .carry
  | 0x05 => i .borrow
  | 0x06 => i .neg
  | 0x08 => i .and
  | 0x09 => i .or
  | 0x0A => i .xor
  | 0x0B => i .andn
  | 0x10 => i .sll
  | 0x11 => i .srl
  | 0x12 => i .sra
  | 0x13 => i .rol
  | 0x14 => i .ror
  | 0x18 => i .cmpeq
  | 0x19 => i .cmplt
  | 0x1A => i .cmpltu
  | 0x1C => i .sel
  | _ => none

/-- Table 4.5. -/
def decodeMulDiv (t : TileId) (w : Word32) : Option Instr :=
  let i := fun k : TileId → RegNo → RegNo → RegNo → RegNo → Instr =>
    some (k t (fieldRd w) (fieldRa w) (fieldRb w) (fieldRc w))
  match (fieldFunc w).toNat with
  | 0x00 => i .mul
  | 0x01 => i .mulhu
  | 0x02 => i .mulhs
  | 0x04 => i .div
  | 0x05 => i .divu
  | 0x06 => i .rem
  | 0x07 => i .remu
  | _ => none

/-- Table 4.6. -/
def decodeFp (t : TileId) (w : Word32) : Option Instr :=
  let i := fun k : TileId → FpFields → Instr => some (k t (fieldsF w))
  match (fieldFunc w).toNat with
  | 0x00 => i .fadd
  | 0x01 => i .fsub
  | 0x02 => i .fmul
  | 0x03 => i .fdiv
  | 0x04 => i .fsqrt
  | 0x08 => i .fcmpeq
  | 0x09 => i .fcmplt
  | 0x0A => i .fcmple
  | 0x10 => i .fcvtI
  | 0x11 => i .fcvtU
  | 0x12 => i .fcvtFi
  | 0x13 => i .fcvtFu
  | 0x18 => i .fwiden
  | 0x19 => i .fnarrow
  | _ => none

/-- The CAS opcode's two functions (Table 4.3). -/
def decodeCas (t : TileId) (w : Word32) : Option Instr :=
  match (fieldFunc w).toNat with
  | 0x00 => some (.cas64 t (fieldRd w) (fieldRa w) (fieldRb w) (fieldRc w))
  | 0x01 => some (.cas32 t (fieldRd w) (fieldRa w) (fieldRb w) (fieldRc w))
  | _ => none

/-- The instruction of a word on a tile (Table 4.3); none where Tables 4.3 to 4.6 list no such opcode or func (R196). -/
def decodeCode (t : TileId) (w : Word32) : Option Instr :=
  let imm := fun k : TileId → RegNo → RegNo → BitVec 16 → Instr => some (k t (fieldRd w) (fieldRa w) (fieldImm w))
  let long := fun k : TileId → RegNo → RegNo → RegNo → RegNo → BitVec 6 → Instr =>
    some (k t (fieldRd w) (fieldRa w) (fieldRb w) (fieldRc w) (fieldFunc w))
  let jump := fun k : TileId → RegNo → BitVec 21 → Instr => some (k t (fieldRd w) (fieldDisp w))
  match bits w.toNat 26 6 with
  | 0x01 => decodeAlu t w
  | 0x02 => decodeMulDiv t w
  | 0x03 => decodeFp t w
  | 0x04 => some (.fma t (fieldsM w))
  | 0x08 => imm .addi
  | 0x09 => imm .andi
  | 0x0A => imm .ori
  | 0x0B => imm .xori
  | 0x0C => imm .seth
  | 0x0D => imm .cmpeqi
  | 0x0E => imm .cmplti
  | 0x0F => imm .cmpltui
  | 0x10 => imm .shifti
  | 0x14 => imm .ld8u
  | 0x15 => imm .ld8s
  | 0x16 => imm .ld16u
  | 0x17 => imm .ld16s
  | 0x18 => imm .ld32u
  | 0x19 => imm .ld32s
  | 0x1A => imm .ld64
  | 0x1C => imm .st8
  | 0x1D => imm .st16
  | 0x1E => imm .st32
  | 0x1F => imm .st64
  | 0x20 => decodeCas t w
  | 0x24 => jump .bz
  | 0x25 => jump .bnz
  | 0x26 => jump .jal
  | 0x27 => long .jalr
  | 0x28 => some (.send t (fieldsN w))
  | 0x29 => some (.sendd t (fieldsN w))
  | 0x2A => imm .adj
  | 0x2C => imm .openCtx
  | 0x2D => imm .closeCtx
  | 0x2E => imm .cancelCtx
  | 0x2F => imm .parkCtx
  | 0x30 => imm .mfs
  | 0x31 => imm .mts
  | 0x32 => long .semAcq
  | 0x33 => long .semRel
  | 0x3F => some (.endFiring t (BitVec.ofNat 26 (bits w.toNat 0 26)))
  | _ => none

/-! ## From an instruction to its word -/

/-- A word of opcode, [25:21], [20:16] and [15:0]. -/
def packWord (op a b low : Nat) : Word32 := BitVec.ofNat 32 (op * 2 ^ 26 + a * 2 ^ 21 + b * 2 ^ 16 + low)

def wordR (op : Nat) (rd ra rb rc : RegNo) (func : Nat) : Word32 :=
  packWord op rd.toNat ra.toNat (rb.toNat * 2 ^ 11 + rc.toNat * 2 ^ 6 + func)

def wordI (op : Nat) (rd ra : RegNo) (imm : BitVec 16) : Word32 := packWord op rd.toNat ra.toNat imm.toNat

def wordF (f : FpFields) (func : Nat) : Word32 :=
  packWord 0x03 f.rd.toNat f.ra.toNat
    (f.rb.toNat * 2 ^ 11 + f.rm.toNat * 2 ^ 8 + f.zero.toNat * 2 ^ 7 + f.size.toNat * 2 ^ 6 + func)

def wordM (f : FmaFields) : Word32 :=
  packWord 0x04 f.rd.toNat f.ra.toNat
    (f.rb.toNat * 2 ^ 11 + f.rc.toNat * 2 ^ 6 + f.rm.toNat * 2 ^ 3 + f.zero.toNat * 2 + f.size.toNat)

def wordN (op : Nat) (f : SendFields) : Word32 :=
  packWord op f.rv.toNat f.rt.toNat
    (f.rdl.toNat * 2 ^ 11 + f.port.toNat * 2 ^ 9 + f.cls.toNat * 2 ^ 6 + f.ctrl.toNat * 2 ^ 5 + f.list.toNat * 2 ^ 3 + f.zero.toNat)

def wordB (op : Nat) (ra : RegNo) (disp : BitVec 21) : Word32 :=
  BitVec.ofNat 32 (op * 2 ^ 26 + ra.toNat * 2 ^ 21 + disp.toNat)

/-- The word of an integer or floating-point instruction, by Tables 4.3 to 4.6. -/
def computeWord : Instr → Option Word32
  | .add _ rd ra rb rc => some (wordR 0x01 rd ra rb rc 0x00)
  | .sub _ rd ra rb rc => some (wordR 0x01 rd ra rb rc 0x01)
  | .addc _ rd ra rb rc => some (wordR 0x01 rd ra rb rc 0x02)
  | .subb _ rd ra rb rc => some (wordR 0x01 rd ra rb rc 0x03)
  | .carry _ rd ra rb rc => some (wordR 0x01 rd ra rb rc 0x04)
  | .borrow _ rd ra rb rc => some (wordR 0x01 rd ra rb rc 0x05)
  | .neg _ rd ra rb rc => some (wordR 0x01 rd ra rb rc 0x06)
  | .and _ rd ra rb rc => some (wordR 0x01 rd ra rb rc 0x08)
  | .or _ rd ra rb rc => some (wordR 0x01 rd ra rb rc 0x09)
  | .xor _ rd ra rb rc => some (wordR 0x01 rd ra rb rc 0x0A)
  | .andn _ rd ra rb rc => some (wordR 0x01 rd ra rb rc 0x0B)
  | .sll _ rd ra rb rc => some (wordR 0x01 rd ra rb rc 0x10)
  | .srl _ rd ra rb rc => some (wordR 0x01 rd ra rb rc 0x11)
  | .sra _ rd ra rb rc => some (wordR 0x01 rd ra rb rc 0x12)
  | .rol _ rd ra rb rc => some (wordR 0x01 rd ra rb rc 0x13)
  | .ror _ rd ra rb rc => some (wordR 0x01 rd ra rb rc 0x14)
  | .cmpeq _ rd ra rb rc => some (wordR 0x01 rd ra rb rc 0x18)
  | .cmplt _ rd ra rb rc => some (wordR 0x01 rd ra rb rc 0x19)
  | .cmpltu _ rd ra rb rc => some (wordR 0x01 rd ra rb rc 0x1A)
  | .sel _ rd ra rb rc => some (wordR 0x01 rd ra rb rc 0x1C)
  | .mul _ rd ra rb rc => some (wordR 0x02 rd ra rb rc 0x00)
  | .mulhu _ rd ra rb rc => some (wordR 0x02 rd ra rb rc 0x01)
  | .mulhs _ rd ra rb rc => some (wordR 0x02 rd ra rb rc 0x02)
  | .div _ rd ra rb rc => some (wordR 0x02 rd ra rb rc 0x04)
  | .divu _ rd ra rb rc => some (wordR 0x02 rd ra rb rc 0x05)
  | .rem _ rd ra rb rc => some (wordR 0x02 rd ra rb rc 0x06)
  | .remu _ rd ra rb rc => some (wordR 0x02 rd ra rb rc 0x07)
  | .fadd _ f => some (wordF f 0x00)
  | .fsub _ f => some (wordF f 0x01)
  | .fmul _ f => some (wordF f 0x02)
  | .fdiv _ f => some (wordF f 0x03)
  | .fsqrt _ f => some (wordF f 0x04)
  | .fma _ f => some (wordM f)
  | .fcmpeq _ f => some (wordF f 0x08)
  | .fcmplt _ f => some (wordF f 0x09)
  | .fcmple _ f => some (wordF f 0x0A)
  | .fcvtI _ f => some (wordF f 0x10)
  | .fcvtU _ f => some (wordF f 0x11)
  | .fcvtFi _ f => some (wordF f 0x12)
  | .fcvtFu _ f => some (wordF f 0x13)
  | .fwiden _ f => some (wordF f 0x18)
  | .fnarrow _ f => some (wordF f 0x19)
  | .addi _ rd ra imm => some (wordI 0x08 rd ra imm)
  | .andi _ rd ra imm => some (wordI 0x09 rd ra imm)
  | .ori _ rd ra imm => some (wordI 0x0A rd ra imm)
  | .xori _ rd ra imm => some (wordI 0x0B rd ra imm)
  | .seth _ rd ra imm => some (wordI 0x0C rd ra imm)
  | .cmpeqi _ rd ra imm => some (wordI 0x0D rd ra imm)
  | .cmplti _ rd ra imm => some (wordI 0x0E rd ra imm)
  | .cmpltui _ rd ra imm => some (wordI 0x0F rd ra imm)
  | .shifti _ rd ra imm => some (wordI 0x10 rd ra imm)
  | _ => none

/-- The word of an instruction, by Table 4.3; none of a command that is no codelet instruction. -/
def codeWord : Instr → Option Word32
  | .ld8u _ rd ra imm => some (wordI 0x14 rd ra imm)
  | .ld8s _ rd ra imm => some (wordI 0x15 rd ra imm)
  | .ld16u _ rd ra imm => some (wordI 0x16 rd ra imm)
  | .ld16s _ rd ra imm => some (wordI 0x17 rd ra imm)
  | .ld32u _ rd ra imm => some (wordI 0x18 rd ra imm)
  | .ld32s _ rd ra imm => some (wordI 0x19 rd ra imm)
  | .ld64 _ rd ra imm => some (wordI 0x1A rd ra imm)
  | .st8 _ rs ra imm => some (wordI 0x1C rs ra imm)
  | .st16 _ rs ra imm => some (wordI 0x1D rs ra imm)
  | .st32 _ rs ra imm => some (wordI 0x1E rs ra imm)
  | .st64 _ rs ra imm => some (wordI 0x1F rs ra imm)
  | .cas64 _ rd ra rb rc => some (wordR 0x20 rd ra rb rc 0x00)
  | .cas32 _ rd ra rb rc => some (wordR 0x20 rd ra rb rc 0x01)
  | .bz _ ra disp => some (wordB 0x24 ra disp)
  | .bnz _ ra disp => some (wordB 0x25 ra disp)
  | .jal _ ra disp => some (wordB 0x26 ra disp)
  | .jalr _ rd ra rb rc func => some (wordR 0x27 rd ra rb rc func.toNat)
  | .send _ f => some (wordN 0x28 f)
  | .sendd _ f => some (wordN 0x29 f)
  | .adj _ rd ra imm => some (wordI 0x2A rd ra imm)
  | .openCtx _ rd ra imm => some (wordI 0x2C rd ra imm)
  | .closeCtx _ rd ra imm => some (wordI 0x2D rd ra imm)
  | .cancelCtx _ rd ra imm => some (wordI 0x2E rd ra imm)
  | .parkCtx _ rd ra imm => some (wordI 0x2F rd ra imm)
  | .mfs _ rd ra imm => some (wordI 0x30 rd ra imm)
  | .mts _ rd ra imm => some (wordI 0x31 rd ra imm)
  | .semAcq _ rd ra rb rc func => some (wordR 0x32 rd ra rb rc func.toNat)
  | .semRel _ rd ra rb rc func => some (wordR 0x33 rd ra rb rc func.toNat)
  | .endFiring _ zero => some (BitVec.ofNat 32 (0x3F * 2 ^ 26 + zero.toNat))
  | i => computeWord i

end Sys2Proof.Machine
end

