-- ==== Sys2Proof/Config.lean ====
section
/-! DEFINITION. What one implementation fixes and the spec does not: the free values (constants with no body, of which
nothing can be proved) and the keys fused in a part. -/

namespace Sys2Proof.Config

/-- The free values. The model applies it to its own counter `Blade.draws` and to the bound the spec sets, and reduces the
result below that bound; see the assumption log for every use. -/
opaque freeNat : Nat → Nat

/-- The slot keys fused in an FN-1 (R599): for each of four, the two coordinates of its P-256 point. -/
opaque fusedKey : Nat → Nat × Nat

/-- The words of the chassis identity EEPROM from which the UPLINK registers of Table 11.22 take their reset values, by
register address. -/
opaque eepromWord : Nat → BitVec 32

/-- The serial numbers that IDENT returns (Table 11.5): bytes 0 to 15 of the chassis, 16 to 31 of the blade. -/
opaque serialByte : Nat → BitVec 8

/-- The factory images of the boot NOR (Table 14.3). -/
opaque factoryGraph : List (BitVec 8)

opaque factoryMicrocode : List (BitVec 8)

/-- What the image store of the carriers holds of a kind before the model has seen it written (Table 13.10). -/
opaque storedImage : Nat → List (BitVec 8)

/-- What a firmware slot of the boot NOR holds before the model has seen it written (Table 14.3). -/
opaque firmwareSlot : Nat → List (BitVec 8)

end Sys2Proof.Config
end

