-- ==== Sys2Proof/Machine/Crypto.lean ====
section
/-! DEFINITION. The algorithms that the manual names: SHA-256 and HMAC-SHA-256 (R474), and the verification of ECDSA
signatures over P-256 (R65, R599). Their constants are those of the published standards. -/

namespace Sys2Proof.Machine

/-! ## SHA-256 -/

def sha256K : List Word32 :=
  [0x428a2f98, 0x71374491, 0xb5c0fbcf, 0xe9b5dba5, 0x3956c25b, 0x59f111f1, 0x923f82a4, 0xab1c5ed5] ++
  [0xd807aa98, 0x12835b01, 0x243185be, 0x550c7dc3, 0x72be5d74, 0x80deb1fe, 0x9bdc06a7, 0xc19bf174] ++
  [0xe49b69c1, 0xefbe4786, 0x0fc19dc6, 0x240ca1cc, 0x2de92c6f, 0x4a7484aa, 0x5cb0a9dc, 0x76f988da] ++
  [0x983e5152, 0xa831c66d, 0xb00327c8, 0xbf597fc7, 0xc6e00bf3, 0xd5a79147, 0x06ca6351, 0x14292967] ++
  [0x27b70a85, 0x2e1b2138, 0x4d2c6dfc, 0x53380d13, 0x650a7354, 0x766a0abb, 0x81c2c92e, 0x92722c85] ++
  [0xa2bfe8a1, 0xa81a664b, 0xc24b8b70, 0xc76c51a3, 0xd192e819, 0xd6990624, 0xf40e3585, 0x106aa070] ++
  [0x19a4c116, 0x1e376c08, 0x2748774c, 0x34b0bcb5, 0x391c0cb3, 0x4ed8aa4a, 0x5b9cca4f, 0x682e6ff3] ++
  [0x748f82ee, 0x78a5636f, 0x84c87814, 0x8cc70208, 0x90befffa, 0xa4506ceb, 0xbef9a3f7, 0xc67178f2]

def sha256H : List Word32 := [0x6a09e667, 0xbb67ae85, 0x3c6ef372, 0xa54ff53a, 0x510e527f, 0x9b05688c, 0x1f83d9ab, 0x5be0cd19]

/-- The next word of the message schedule, from the last sixteen, newest first. -/
def sha256Word (w : List Word32) : Word32 :=
  let a := w.getD 1 0
  let b := w.getD 14 0
  let s0 := b.rotateRight 7 ^^^ b.rotateRight 18 ^^^ (b >>> 3)
  let s1 := a.rotateRight 17 ^^^ a.rotateRight 19 ^^^ (a >>> 10)
  s1 + w.getD 6 0 + s0 + w.getD 15 0

/-- The message schedule, newest first. -/
def sha256Schedule (block : List Word32) : List Word32 := times 48 (fun w => sha256Word w :: w) block.reverse

/-- One round over the working variables a to h. -/
def sha256Round (v : List Word32) (k w : Word32) : List Word32 :=
  let a := v.getD 0 0
  let e := v.getD 4 0
  let s1 := e.rotateRight 6 ^^^ e.rotateRight 11 ^^^ e.rotateRight 25
  let ch := (e &&& v.getD 5 0) ^^^ (~~~e &&& v.getD 6 0)
  let t1 := v.getD 7 0 + s1 + ch + k + w
  let s0 := a.rotateRight 2 ^^^ a.rotateRight 13 ^^^ a.rotateRight 22
  let mj := (a &&& v.getD 1 0) ^^^ (a &&& v.getD 2 0) ^^^ (v.getD 1 0 &&& v.getD 2 0)
  [t1 + s0 + mj, a, v.getD 1 0, v.getD 2 0, v.getD 3 0 + t1, e, v.getD 5 0, v.getD 6 0]

/-- The compression of one block of sixteen words. -/
def sha256Block (h block : List Word32) : List Word32 :=
  let v := (sha256K.zip (sha256Schedule block).reverse).foldl (fun v kw => sha256Round v kw.1 kw.2) h
  List.zipWith (· + ·) h v

/-- Big-endian words of a byte string whose length is a multiple of four. -/
def beWords : List Byte → List Word32
  | a :: b :: c :: d :: r => BitVec.ofNat 32 (beNat [a, b, c, d]) :: beWords r
  | _ => []

/-- Blocks of sixteen words, one for each unit of fuel. -/
def sha256Blocks : Nat → List Word32 → List Word32 → List Word32
  | 0, h, _ => h
  | n + 1, h, ws => if ws.isEmpty then h else sha256Blocks n (sha256Block h (ws.take 16)) (ws.drop 16)

/-- The digest of a message, 32 bytes. -/
def sha256 (msg : List Byte) : List Byte :=
  let n := msg.length
  let padded := msg ++ [0x80] ++ List.replicate ((119 - n % 64) % 64) 0 ++ beBytes 8 (8 * n)
  (sha256Blocks (n / 64 + 2) sha256H (beWords padded)).flatMap fun w => beBytes 4 w.toNat

/-- HMAC-SHA-256 with a key of at most 64 bytes. -/
def hmacSha256 (key msg : List Byte) : List Byte :=
  let k := key ++ List.replicate (64 - key.length) 0
  sha256 (k.map (· ^^^ 0x5C) ++ sha256 (k.map (· ^^^ 0x36) ++ msg))

/-- The tag of a command packet or of a datagram in a key (R474, R507). -/
def authTag (key msg : List Byte) : List Byte := (hmacSha256 key msg).take 16

/-! ## ECDSA over P-256 -/

def p256P : Nat := 0xffffffff00000001000000000000000000000000ffffffffffffffffffffffff
def p256N : Nat := 0xffffffff00000000ffffffffffffffffbce6faada7179e84f3b9cac2fc632551
def p256B : Nat := 0x5ac635d8aa3a93e7b3ebbd55769886bc651d06b0cc53b0f63bce3c3e27d2604b
def p256Gx : Nat := 0x6b17d1f2e12c4247f8bce6e563a440f277037d812deb33a0f4a13945d898c296
def p256Gy : Nat := 0x4fe342e2fe1a7f9b8ee7eb4a7c0f9e162bce33576b315ececbb6406837bf51f5

/-- A power modulo m, over `n` bits of the exponent. -/
def powMod (m : Nat) : Nat → Nat → Nat → Nat
  | 0, _, _ => 1 % m
  | n + 1, x, e =>
    let r := powMod m n (x * x % m) (e / 2)
    if e % 2 = 1 then r * x % m else r

/-- The inverse modulo a prime of 256 bits. -/
def invMod (m x : Nat) : Nat := powMod m 256 (x % m) (m - 2)

/-- A point of the curve in projective coordinates: x is X/Z², y is Y/Z³, and Z is 0 at infinity. -/
structure Point where
  x : Nat
  y : Nat
  z : Nat
  deriving DecidableEq, Repr

def Point.infinity : Point := { x := 1, y := 1, z := 0 }

/-- A difference modulo the prime of the curve, of two numbers below it. -/
def subP (a b : Nat) : Nat := (a + p256P - b) % p256P

def mulP (a b : Nat) : Nat := a * b % p256P

def Point.double (q : Point) : Point :=
  let zz := mulP q.z q.z
  let yy := mulP q.y q.y
  let s := mulP (4 * q.x) yy
  let m := mulP (3 * subP q.x zz) (q.x + zz)
  let x := subP (mulP m m) (2 * s % p256P)
  { x := x, y := subP (mulP m (subP s x)) (mulP (8 * yy) yy), z := mulP (2 * q.y) q.z }

def Point.add (p q : Point) : Point :=
  if p.z = 0 then q
  else if q.z = 0 then p
  else
    let zp := mulP p.z p.z
    let zq := mulP q.z q.z
    let u := mulP p.x zq
    let s := mulP p.y (mulP q.z zq)
    let h := subP (mulP q.x zp) u
    let r := subP (mulP q.y (mulP p.z zp)) s
    if h = 0 then (if r = 0 then p.double else .infinity)
    else
      let hh := mulP h h
      let hhh := mulP h hh
      let v := mulP u hh
      let x := subP (subP (mulP r r) hhh) (2 * v % p256P)
      { x := x, y := subP (mulP r (subP v x)) (mulP s hhh), z := mulP h (mulP p.z q.z) }

/-- A multiple of one point and another of a second, added, over `n` bits of both factors; `sum` is the points' own sum. -/
def twoMultiples (p q sum : Point) (j k : Nat) : Nat → Point
  | 0 => .infinity
  | n + 1 =>
    let r := (twoMultiples p q sum (j / 2) (k / 2) n).double
    if j % 2 = 1 then (if k % 2 = 1 then r.add sum else r.add p)
    else if k % 2 = 1 then r.add q else r

/-- A public key is a point of the curve other than infinity. -/
def onCurve (x y : Nat) : Bool :=
  x < p256P && y < p256P && (y * y % p256P = (x * x * x + (p256P - 3) * x + p256B) % p256P)

/-- Whether (r, s) is a signature of a digest under a key. -/
def ecdsaVerify (key : Nat × Nat) (digest : List Byte) (r s : Nat) : Bool :=
  let e := beNat digest
  let w := invMod p256N s
  let g : Point := { x := p256Gx, y := p256Gy, z := 1 }
  let q : Point := { x := key.1, y := key.2, z := 1 }
  let u := twoMultiples g q (g.add q) (e * w % p256N) (r * w % p256N) 256
  let zz := mulP u.z u.z
  0 < r && r < p256N && 0 < s && s < p256N && onCurve key.1 key.2 && u.z ≠ 0 &&
    (mulP r zz = u.x || (r + p256N < p256P && mulP (r + p256N) zz = u.x))

end Sys2Proof.Machine
end

