-- ==== Sys2Proof/Machine/Ops.lean ====
section
/-! DEFINITION. The named operations every command is built from: register words and counters, functions and their struck
state, free values, outputs, fault assertions, and the storage of the shared SRAM and the DRAM. -/

namespace Sys2Proof.Machine

/-! ## Free values, outputs and responses -/

/-- A free value below a bound (1 at least), and the state with the model's counter advanced. -/
def Blade.draw (b : Blade) (bound : Nat) : Nat × Blade :=
  (Config.freeNat b.draws % max bound 1, { b with draws := b.draws + 1 })

/-- A free 32-bit word. -/
def Blade.drawWord (b : Blade) : Word32 × Blade :=
  let d := b.draw (2 ^ 32)
  (BitVec.ofNat 32 d.1, d.2)

/-- Appends one thing that has left the hub or passed between its parts; a fenced blade drives nothing (R539, R554). -/
def Blade.out (b : Blade) (o : Output) : Blade := if b.flt.fenced then b else { b with outputs := b.outputs ++ [o] }

/-- Sets what the last read returned to its requester. -/
def Blade.respond (b : Blade) (i : Item) : Blade := { b with response := i }

/-- A plain word with the data tag. -/
def Item.data (w : Word32) : Item := { value := w, tag := .data }

/-- The idle item (Table 0.7). -/
def Item.idle : Item := { value := 0xFFFFFFFE, tag := .idle }

/-! ## Register words (Tables 16.5 to 16.8)

A register that holds a setting, a count or a reading is one stored word at its address. A register that shows other state
is computed from it when it is read (Machine/RegRead.lean). -/

def rSYS : Nat := 0x02000000
def rKEY : Nat := 0x02001000
def rCLK : Nat := 0x02002000
def rPWR : Nat := 0x02003000
def rCMD : Nat := 0x02004000
def rFAULT : Nat := 0x02010000
def rREC : Nat := 0x02020000
def rTNET : Nat := 0x02030000
def rMSTORE : Nat := 0x02040000
def rSCHED : Nat := 0x02050000
def rFLOW : Nat := 0x02060000
def rDELAY : Nat := 0x02070000
def rCTX : Nat := 0x02080000
def rMEM : Nat := 0x02090000
def rMARCH : Nat := 0x020A0000
def rATOM : Nat := 0x020B0000
def rQPOOL : Nat := 0x020C0000
def rJRNL : Nat := 0x020D0000
def rTOGGLE : Nat := 0x020E0000
def rUPLINK (n : Nat) : Nat := 0x020F0000 + 0x1000 * n
def rTILE (n : Nat) : Nat := 0x02100000 + 0x1000 * n
def rLANE (c : Nat) : Nat := 0x02200000 + 0x10000 * c
def rPORT (l : Nat) : Nat := rLANE (l / 16) + 0x8000 + 0x400 * (l % 16)
def rCHAS : Nat := 0x02300000

/-- Whether an address is a lane-port register, and its offset in the port's registers. -/
def portOffset (a : Nat) : Option Nat :=
  if 0x02200000 ≤ a ∧ a < 0x02280000 ∧ 0x8000 ≤ a % 0x10000 ∧ a % 0x10000 < 0xC000 then some (a % 0x400) else none

/-- SCHED_BUDGET's reset values (Table 6.8). -/
def budgetReset (k : Nat) : Word32 :=
  match k with
  | 1 => 1000000
  | 2 => 500000
  | 3 => 250000
  | 4 => 100000
  | 5 => 50000
  | 6 => 20000
  | 7 => 10000
  | _ => 0

/-- The reset value of the stored word at an address (R17, R652): zero where Tables 16.5 to 16.8 give no other. -/
def regReset (a : Nat) : Word32 :=
  if a = rCMD then 0x12D212D1
  else if a = rCMD + 4 then 7
  else if rPWR + 0x100 ≤ a ∧ a < rPWR + 0x100 + 4 * 33 ∧ a % 4 = 0 then 1
  else if a = rFAULT + 0x3000 then 1
  else if a = rFAULT + 0x3028 then 0x110
  else if a = rMSTORE then 3
  else if a = rMSTORE + 4 then 0x505A
  else if a = rMSTORE + 8 then 0x14004
  else if a = rSCHED then 0x4002
  else if rSCHED + 0x20 ≤ a ∧ a < rSCHED + 0x40 ∧ a % 4 = 0 then budgetReset ((a - rSCHED - 0x20) / 4)
  else if rDELAY + 0x30 ≤ a ∧ a < rDELAY + 0x40 ∧ a % 4 = 0 then 1
  else if a = rCTX then 1
  else if a = rCTX + 0x18 then 0x28
  else if a = rCTX + 0x20 then 1
  else if a = rMEM then 0x0FA00100
  else if a = rMEM + 4 then 0x108
  else if a = rMARCH then 0x03E80003
  else if rATOM + 0x100 ≤ a ∧ a < rATOM + 0x180 ∧ a % 4 = 0 then 5
  else if a = rQPOOL then 3
  else if a = rQPOOL + 0x20 then 1
  else if a = rJRNL then 0x01900001
  else if a = rTOGGLE then 0x320E0C01
  else if a = rUPLINK 0 ∨ a = rUPLINK 1 ∨ a = rUPLINK 2 then 0x4001
  else if rUPLINK 0 ≤ a ∧ a < rUPLINK 3 ∧ 8 ≤ a % 0x1000 ∧ a % 0x1000 < 0x50 ∧ a % 4 = 0 then Config.eepromWord a
  else if portOffset a = some 0 then 0x80080441
  else if a = rCHAS + 0x110 ∨ a = rCHAS + 0x130 then 0xFFFF0000
  else if rCHAS + 0x200 ≤ a ∧ a < rCHAS + 0x210 ∧ a % 4 = 0 then 0x00640000
  else if a = rCHAS + 0x220 then 0x23
  else 0

/-- The stored word at an address. -/
def Blade.reg (b : Blade) (a : Nat) : Word32 := mget (regReset a) a b.csr.words

def Blade.setReg (b : Blade) (a : Nat) (v : Word32) : Blade :=
  { b with csr.words := mput (regReset a) a v b.csr.words }

/-- A field of a stored word, as a number. -/
def Blade.field (b : Blade) (a lo len : Nat) : Nat := bits (b.reg a).toNat lo len

def Blade.flag (b : Blade) (a i : Nat) : Bool := bitOf (b.reg a).toNat i

/-- Replaces a field of a stored word. -/
def Blade.setField (b : Blade) (a lo len v : Nat) : Blade :=
  b.setReg a (merge (BitVec.ofNat 32 ((2 ^ len - 1) * 2 ^ lo)) (b.reg a) (BitVec.ofNat 32 (v % 2 ^ len * 2 ^ lo)))

/-- Adds to a 32-bit counter, which saturates. -/
def Blade.count (b : Blade) (a : Nat) (n : Nat := 1) : Blade :=
  b.setReg a (BitVec.ofNat 32 (min ((b.reg a).toNat + n) 0xFFFFFFFF))

/-- The value of a 64-bit counter pair; the LO word is at the address given. -/
def Blade.pair64 (b : Blade) (a : Nat) : Nat := (b.reg a).toNat + (b.reg (a + 4)).toNat * 2 ^ 32

def Blade.setPair64 (b : Blade) (a : Nat) (v : Nat) : Blade :=
  (b.setReg a (BitVec.ofNat 32 v)).setReg (a + 4) (BitVec.ofNat 32 (v / 2 ^ 32))

/-- Adds to a 64-bit counter pair. -/
def Blade.count64 (b : Blade) (a : Nat) (n : Nat := 1) : Blade := b.setPair64 a (b.pair64 a + n)

/-! ## Functions (Table 11.6) -/

/-- The functions that are struck after power-on and blade reset (Tables 16.4, 11.21, 13.16, 9.18, 10.17). -/
def struckReset (fn : Nat) : Bool := fn < 0x180 || (0x320 ≤ fn && fn ≤ 0x322) || fn = 0x340

def Blade.struck (b : Blade) (fn : Nat) : Bool := mget (struckReset fn) fn b.csr.struck

def Blade.setStruck (b : Blade) (fn : Nat) (v : Bool) : Blade :=
  { b with csr.struck := mput (struckReset fn) fn v b.csr.struck }

def fnTile (t : Nat) : Nat := t
def fnCluster (c : Nat) : Nat := 0x40 + c
def fnPort (l : Nat) : Nat := 0x100 + l
def fnBank (k : Nat) : Nat := 0x200 + k
def fnDelay (n : Nat) : Nat := 0x300 + n
def fnRelease : Nat := 0x310
def fnUplink (u : Nat) : Nat := 0x320 + u
def fnJournal : Nat := 0x330
def fnToggle : Nat := 0x340
def fnQueue (q : Nat) : Nat := 0x1000 + q

/-! ## Fault sources (Tables 12.1 to 12.3) -/

def srcTile (n k : Nat) : Nat := 32 * (11 + n / 4) + 8 * (n % 4) + k
def srcBank (n k : Nat) : Nat := 32 * (20 + n / 4) + 8 * (n % 4) + k
def srcCluster (c k : Nat) : Nat := 32 * (36 + c / 2) + 16 * (c % 2) + k
def srcPort (l k : Nat) : Nat := 32 * (40 + l / 16) + 2 * (l % 16) + k
def srcWide (g b : Nat) : Nat := 32 * g + b

inductive FaultClass where
  | corrected
  | contained
  | fatal
  | unassigned
  deriving DecidableEq, Repr

inductive FaultKind where
  | window
  | event
  | level
  deriving DecidableEq, Repr

def FaultClass.code : FaultClass → Nat
  | .corrected => 0
  | .contained => 1
  | .fatal => 2
  | .unassigned => 3

/-- Class and kind of a tile source by k (Table 12.2). -/
def tileSource : Nat → FaultClass × FaultKind
  | 0 => (.corrected, .window)
  | 1 => (.corrected, .window)
  | 2 => (.contained, .event)
  | 3 => (.fatal, .event)
  | 4 => (.contained, .event)
  | 5 => (.contained, .event)
  | 6 => (.contained, .event)
  | 7 => (.contained, .event)
  | _ => (.unassigned, .event)

/-- Class and kind of a bank source; M00 to M03 lose a word fatally (Table 12.2, R305). -/
def bankSource (bank : Nat) : Nat → FaultClass × FaultKind
  | 0 => (.corrected, .window)
  | 1 => (if bank < 4 then .fatal else .contained, .event)
  | 2 => (.contained, .event)
  | 3 => (.corrected, .event)
  | 4 => (.contained, .event)
  | _ => (.unassigned, .event)

/-- Class and kind of a cluster source (Table 12.2); `relaxed` is R421's condition for the contained class. -/
def clusterSource (relaxed : Bool) : Nat → FaultClass × FaultKind
  | 0 => (.corrected, .window)
  | 1 => (if relaxed then .contained else .fatal, .event)
  | 2 => (if relaxed then .contained else .fatal, .event)
  | 3 => (.contained, .event)
  | 4 => (.contained, .event)
  | 5 => (.corrected, .window)
  | 6 => (.contained, .event)
  | 7 => (.contained, .event)
  | 8 => (.contained, .event)
  | 9 => (.contained, .event)
  | 10 => (.contained, .level)
  | _ => (.unassigned, .event)

/-- Class and kind of a blade-wide source (Tables 12.3 and 8.8). -/
def wideSource (g k : Nat) : FaultClass × FaultKind :=
  match g, k with
  | 0, 0 => (.fatal, .event)
  | 0, 1 => (.contained, .event)
  | 0, 2 => (.contained, .event)
  | 0, 3 => (.fatal, .event)
  | 0, 4 => (.fatal, .level)
  | 1, 0 => (.contained, .event)
  | 1, 1 => (.contained, .event)
  | 1, 2 => (.corrected, .window)
  | 1, 3 => (.contained, .event)
  | 1, 4 => (.contained, .event)
  | 2, 0 => (.fatal, .event)
  | 2, 1 => (.corrected, .event)
  | 2, 2 => (.contained, .event)
  | 2, 3 => (.fatal, .event)
  | 2, 4 => (.contained, .event)
  | 3, 0 => (.corrected, .window)
  | 3, 1 => (.corrected, .window)
  | 3, 2 => (.contained, .event)
  | 3, 3 => (.contained, .event)
  | 3, 4 => (.contained, .event)
  | 4, 0 => (.corrected, .window)
  | 4, 1 => (.corrected, .window)
  | 4, 2 => (.contained, .event)
  | 4, 3 => (.contained, .event)
  | 5, 0 => (.contained, .event)
  | 5, 1 => (.contained, .event)
  | 5, 2 => (.contained, .level)
  | 6, 0 => (.corrected, .window)
  | 6, 1 => (.contained, .level)
  | 6, 2 => (.contained, .event)
  | 6, 3 => (.contained, .event)
  | 7, 0 => (.corrected, .level)
  | 7, 1 => (.corrected, .level)
  | 7, 2 => (.corrected, .level)
  | 7, 3 => (.contained, .event)
  | 8, 7 => (.fatal, .event)
  | 8, 8 => (.corrected, .event)
  | 8, 9 => (.corrected, .window)
  | 8, k => if k ≤ 6 then (.corrected, .level) else (.unassigned, .event)
  | 9, 0 => (.corrected, .window)
  | 9, 1 => (.contained, .event)
  | 9, 2 => (.fatal, .event)
  | 9, 3 => (.fatal, .event)
  | 9, 4 => (.corrected, .level)
  | _, _ => (.unassigned, .event)

/-- R421: an uncorrectable control-store or halyard error is contained when LANE_CTRL.uncorr_contained is 1 and no standby
blade is joined. -/
def Blade.relaxedCluster (b : Blade) (c : Nat) : Bool :=
  b.flag (rLANE c) 0 && b.pair.duplex ≠ .joined && b.pair.duplex ≠ .doubt

/-- Native class and kind of a source (R526, R528, R529). -/
def Blade.sourceOf (b : Blade) (s : Nat) : FaultClass × FaultKind :=
  let g := s / 32
  let k := s % 32
  if g < 10 then wideSource g k
  else if g = 10 then (.unassigned, .event)
  else if g < 20 then (if 4 * (g - 11) + k / 8 < 34 then tileSource (k % 8) else (.unassigned, .event))
  else if g < 36 then bankSource (4 * (g - 20) + k / 8) (k % 8)
  else if g < 40 then clusterSource (b.relaxedCluster (2 * (g - 36) + k / 16)) (k % 16)
  else if g < 48 then (.corrected, .event)
  else (.unassigned, .event)

def Source.init : Source :=
  { sticky := false, eff := 0, deadline := 0, mode := 0, remaining := 0, cause := false, count := 0,
    thresholdPassed := false, hurt := false }

def Blade.source (b : Blade) (s : Nat) : Source := mget Source.init s b.flt.sources

def Blade.setSource (b : Blade) (s : Nat) (v : Source) : Blade :=
  { b with flt.sources := mput Source.init s v b.flt.sources }

/-- The unit field of a source (Table 12.9): a tile, a cluster, a lane port, or none. -/
def unitOf (s : Nat) : Byte :=
  let g := s / 32
  if 11 ≤ g ∧ g < 20 then BitVec.ofNat 8 (4 * (g - 11) + s % 32 / 8)
  else if 36 ≤ g ∧ g < 40 then BitVec.ofNat 8 (0x40 + 2 * (g - 36) + s % 32 / 16)
  else if 40 ≤ g ∧ g < 48 then BitVec.ofNat 8 (0x80 + 16 * (g - 40) + s % 32 / 2)
  else 0x7F

/-- An assertion with no detail. -/
def Assertion.plain (s : Nat) : Assertion :=
  { source := s, forced := false, unit := unitOf s, sub := 0, context := none, detail := (0, 0, 0) }

/-- Hands an assertion to the collector, which takes it at the end of the step (Machine/Collector.lean). -/
def Blade.raiseWith (b : Blade) (a : Assertion) : Blade := { b with flt.due := b.flt.due ++ [a] }

def Blade.raise (b : Blade) (s : Nat) : Blade := b.raiseWith (.plain s)

/-- The detail of a checker at a location (Table 12.11), its syndrome a free value. -/
def Blade.locDetail (b : Blade) (loc count : Nat) : (Word32 × Word32 × Word32) × Blade :=
  let d := b.draw 256
  ((BitVec.ofNat 32 loc, BitVec.ofNat 32 (loc / 2 ^ 32 % 2 ^ 16 + d.1 * 2 ^ 16), BitVec.ofNat 32 count), d.2)

/-- Hands an assertion of a checker at a location to the collector. -/
def Blade.raiseAt (b : Blade) (s loc : Nat) : Blade :=
  let d := b.locDetail loc 0
  d.2.raiseWith { Assertion.plain s with detail := d.1 }

/-- A checker asserts at a location that the spec does not number: a free value (Table 12.11). -/
def Blade.raiseFree (b : Blade) (s : Nat) : Blade :=
  let d := b.draw (2 ^ 48)
  d.2.raiseAt s d.1

/-- One event of a W source (R308): it asserts when the window's count first exceeds the threshold. A location that the spec does
not number is a free value (Table 12.11). -/
def Blade.windowEvent (b : Blade) (s : Nat) (loc : Option Nat := none) : Blade :=
  let v := b.source s
  let n := v.count + 1
  let past := b.field rMEM 0 16 < n && !v.thresholdPassed
  let b := b.setSource s { v with count := n, thresholdPassed := v.thresholdPassed || past }
  if past then
    let l := b.draw (2 ^ 48)
    let d := l.2.locDetail (loc.getD l.1) n
    d.2.raiseWith { Assertion.plain s with detail := d.1 }
  else b

/-- Whether an injection in a mode is armed on a source (R543). -/
def Blade.armed (b : Blade) (s mode : Nat) : Bool :=
  (b.source s).mode.toNat = mode && 0 < (b.source s).remaining

/-! ## Contexts (R82, Table 2.5) -/

def Ctx.init : Ctx :=
  { state := .free, causeCancel := false, damagedBit := false, told := false, slotB := false, budget := 0, flow := none, excNode := 0,
    balance := 0, openFrame := 0, tokensIn := 0, consumed := 0, cancelled := 0, discarded := 0, damage := 0,
    stallLimit := 0, trailSeq := 0, adjSum := [0, 0, 0, 0], cancelSum := [0, 0, 0, 0], discardSum := [0, 0, 0, 0],
    trapSum := [0, 0, 0, 0], parent := 0, closeFrame := 0, lastActive := 0, reported := false, usage := 0,
    overran := false, frameDiscards := 0, frameReason := 0, changed := false, hurt := .sound }

def Blade.ctx (b : Blade) (c : Nat) : Ctx := mget Ctx.init c b.led.contexts

def Blade.setCtx (b : Blade) (c : Nat) (v : Ctx) : Blade :=
  { b with led.contexts := mput Ctx.init c v b.led.contexts }

def Blade.modCtx (b : Blade) (c : Nat) (f : Ctx → Ctx) : Blade := b.setCtx c (f (b.ctx c))

/-- The image slot a context resolves nodes in (R69): B when true. -/
def Blade.slotOf (b : Blade) (c : Nat) : Bool := if c < 256 then b.led.activeSlotB else (b.ctx c).slotB

/-- A context whose destruction R96 describes. -/
def Ctx.recordLost (x : Ctx) : Bool := x.damage = BitVec.allOnes 32

/-! ## Free lists -/

def FreeList.size (l : FreeList) : Nat := l.head.length + (l.last + 1 - l.fresh) + l.tail.length

/-- Takes the number at the head. -/
def FreeList.take (l : FreeList) : Option (Nat × FreeList) :=
  match l.head with
  | n :: r => some (n, { l with head := r })
  | [] =>
    if l.fresh ≤ l.last then some (l.fresh, { l with fresh := l.fresh + 1 })
    else
      match l.tail with
      | n :: r => some (n, { l with head := r, tail := [] })
      | [] => none

/-- A number joins the tail. -/
def FreeList.give (l : FreeList) (n : Nat) : FreeList := { l with tail := l.tail ++ [n] }

/-- Numbers return to the head, the first given becoming the head. -/
def FreeList.restore (l : FreeList) (ns : List Nat) : FreeList := { l with head := ns ++ l.head }

/-! ## Storage of the shared SRAM and the DRAM

A word of the shared SRAM lies in its bank's row (R303); a row that MEM_REPAIR maps to a spare lies in the spare row, which
the model keeps at addresses above the 48-bit space. Every byte of memory has one such place. -/

def sramSize : Nat := 0x1000000
def dramBase : Nat := 0x100000000
def dramEnd : Nat := 0x300000000
def appBase : Nat := 0x1C0000000
def slotBase (slotB : Bool) : Nat := if slotB then 0x160000000 else 0x150000000
def imageStagingBase : Nat := 0x170000000
def contextTable : Nat := 0x110000000

def bankOf (a : Nat) : Nat := bits a 6 6
/-- The bank-local byte address (R303). -/
def bankLocal (a : Nat) : Nat := bits a 12 12 * 64 + a % 64
def rowOf (a : Nat) : Nat := bankLocal a / 512
def lineOf (a : Nat) : Nat := bits (bankLocal a) 6 3

/-- The shared-SRAM address of a byte of a row (Table 7.1). -/
def sramAddr (bank row off : Nat) : Nat := (8 * row + off / 64) * 4096 + bank * 64 + off % 64

/-- Where a spare row's byte is kept. -/
def spareBase (bank spare : Nat) : Nat := 2 ^ 48 + (bank * 4 + spare) * 512

def rREPAIR (bank spare : Nat) : Nat := rMEM + 0x400 + 16 * bank + 4 * spare

/-- The spare row a row of a bank is mapped to (Table 7.20), an entry in use naming it. -/
def Blade.spareOf (b : Blade) (bank row : Nat) : Option Nat :=
  firstFrom (fun s => b.flag (rREPAIR bank s) 9 && b.field (rREPAIR bank s) 0 9 = row) 4 0

/-- The spare row that keeps an address: one that its line has been copied to (R331), or the one its row is mapped to. -/
def Blade.spareFor (b : Blade) (a : Nat) : Option Nat :=
  match b.bank.repair with
  | some r =>
    if r.bank.val = bankOf a && r.row.val = rowOf a && lineOf a < r.copied then some r.spare.val
    else b.spareOf (bankOf a) (rowOf a)
  | none => b.spareOf (bankOf a) (rowOf a)

/-- Where a byte of the map is kept: its own address, or its place in a spare row. -/
def Blade.place (b : Blade) (a : Nat) : Nat :=
  if a < sramSize then
    match b.spareFor a with
    | some s => spareBase (bankOf a) s + bankLocal a % 512
    | none => a
  else a

def Memory.byte (m : Memory) (k : Nat) : Byte := mget 0 k m.cells

def Memory.setByte (m : Memory) (k : Nat) (v : Byte) : Memory := { m with cells := mput 0 k v m.cells }

def Memory.mark (m : Memory) (k : Nat) : WordMark := mget .sound (k / 8) m.marks

def Memory.setMark (m : Memory) (k : Nat) (v : WordMark) : Memory := { m with marks := mput .sound (k / 8) v m.marks }

/-- `n` bytes from a place, as they are stored. -/
def Memory.read (m : Memory) (k : Nat) : Nat → List Byte
  | 0 => []
  | n + 1 => m.byte k :: m.read (k + 1) n

/-- Stores bytes from a place on. -/
def Memory.write (m : Memory) (k : Nat) : List Byte → Memory
  | [] => m
  | v :: r => (m.setByte k v).write (k + 1) r

/-- The canonical form of memory. -/
def Memory.wf (m : Memory) : Bool := canon (0 : Byte) m.cells && canon WordMark.sound m.marks

/-- A little-endian number read from memory as stored. -/
def Memory.nat (m : Memory) (k n : Nat) : Nat := leNat (m.read k n)

/-- Whether any word of a range of bytes cannot be read (R305, R306). -/
def Memory.unreadable (m : Memory) (k n : Nat) : Bool :=
  (List.range ((n + 7) / 8)).any fun i => m.mark (k + 8 * i) = .uncorrectable || m.mark (k + 8 * i) = .poison

/-! ## Graph images and node descriptors (R65, R70) -/

/-- N of an image slot (Table 2.25). -/
def Memory.nodeCount (m : Memory) (slotB : Bool) : Nat := m.nat (slotBase slotB + 0x0C) 4

/-- Where node k's descriptor lies. -/
def descAddr (slotB : Bool) (node : Nat) : Nat := slotBase slotB + 0x40 + 16 * node

def Memory.d0 (m : Memory) (slotB : Bool) (node : Nat) : Nat := m.nat (descAddr slotB node) 4
def Memory.d1 (m : Memory) (slotB : Bool) (node : Nat) : Nat := m.nat (descAddr slotB node + 4) 4
def Memory.d2 (m : Memory) (slotB : Bool) (node : Nat) : Nat := m.nat (descAddr slotB node + 8) 4

/-- The fields of a node descriptor (Table 2.2). -/
structure Desc where
  codelet : Nat
  arity : Nat
  priority : Nat
  budget : Nat
  placement : Nat
  pin : Nat
  orderedRelease : Bool
  /-- Expectations of classes 1 to 4. -/
  expect : List Nat
  debugTag : Nat

def Memory.desc (m : Memory) (slotB : Bool) (node : Nat) : Desc :=
  let d1 := m.d1 slotB node
  { codelet := m.d0 slotB node, arity := bits d1 0 2, priority := bits d1 2 3, budget := bits d1 5 3,
    placement := bits d1 8 2, pin := bits d1 10 8, orderedRelease := bitOf d1 18,
    expect := [bits d1 20 2, bits d1 22 2, bits d1 24 2, bits d1 26 2], debugTag := bits (m.d2 slotB node) 0 20 }

/-- A node whose descriptor is lost until its slot is reloaded (R78). -/
def Blade.descLost (b : Blade) (m : Memory) (slotB : Bool) (node : Nat) : Bool :=
  b.led.lostDescriptors.any (fun p => p.1 = slotB && p.2.toNat = node) || m.unreadable (descAddr slotB node) 16

/-! ## Tiles and their units -/

def Tile.init : Tile :=
  { ready := [], prefetched := none, firing := none, reruns := [], waiting := [], spillOps := 0,
    lastNode := 0, lastContext := 0, lastIteration := 0, icache := [], icacheBad := [] }

def Blade.tile (b : Blade) (t : Nat) : Tile := mget Tile.init t b.net.tiles

def Blade.setTile (b : Blade) (t : Nat) (v : Tile) : Blade :=
  { b with net.tiles := mput Tile.init t v b.net.tiles }

def Blade.modTile (b : Blade) (t : Nat) (f : Tile → Tile) : Blade := b.setTile t (f (b.tile t))

def MatchSet.init : MatchSet := { ways := [], lock := none, stack := [], filter := 0, blocked := false, dirBad := false }

/-- The index of a set among those of all tiles. -/
def setKey (t s : Nat) : Nat := t * 512 + s

def Blade.mset (b : Blade) (t s : Nat) : MatchSet := mget MatchSet.init (setKey t s) b.net.sets

def Blade.setMset (b : Blade) (t s : Nat) (v : MatchSet) : Blade :=
  { b with net.sets := mput MatchSet.init (setKey t s) v b.net.sets }

def Flow.init : Flow :=
  { head := 0, next := 0, owner := 0, owned := false, retired := [], held := [], booked := [], closing := false }

def Blade.flow (b : Blade) (f : Nat) : Flow := mget Flow.init f b.ord.flows

def Blade.setFlow (b : Blade) (f : Nat) (v : Flow) : Blade :=
  { b with ord.flows := mput Flow.init f v b.ord.flows }

def DelayList.init : DelayList := { onChip := [], overflow := [], hold := [], fullEpisode := false }

def Blade.delay (b : Blade) (n : Nat) : DelayList := mget DelayList.init n b.ord.delays

def Blade.setDelay (b : Blade) (n : Nat) (v : DelayList) : Blade :=
  { b with ord.delays := mput DelayList.init n v b.ord.delays }

def Semaphore.init : Semaphore := { held := false, cls := 0, unit := 0, context := 0, generation := 0 }

def Blade.sem (b : Blade) (n : Nat) : Semaphore := mget Semaphore.init n b.bank.semaphores

def Blade.setSem (b : Blade) (n : Nat) (v : Semaphore) : Blade :=
  { b with bank.semaphores := mput Semaphore.init n v b.bank.semaphores }

def Halyard.init : Halyard :=
  { u := [], pc := 0, stack := [], latched := 0, waitMask := 0, flags := 0, byteClass := 0, queueGroup := 0, endpoint := 0,
    inTaint := false, outTaint := false, timer := 0, txMask := 0, yielded := false, replaying := false, waitsFor := none,
    rxOpen := none, rxPosition := 0, txOpen := none, notices := [], parityBad := false }

/-- Halyards and lane ports are numbered by their lane. -/
def Blade.halyard (b : Blade) (l : Nat) : Halyard := mget Halyard.init l b.lan.halyards

def Blade.setHalyard (b : Blade) (l : Nat) (v : Halyard) : Blade :=
  { b with lan.halyards := mput Halyard.init l v b.lan.halyards }

def Cluster.init : Cluster :=
  { store := [], damage := [], directory := [], imageId := 0, loaded := false, faultStruck := false, quiescing := false, loading := false,
    injectNext := 0, linkLost := false, turn := 0 }

def Blade.cluster (b : Blade) (c : Nat) : Cluster := mget Cluster.init c b.lan.clusters

def Blade.setCluster (b : Blade) (c : Nat) (v : Cluster) : Blade :=
  { b with lan.clusters := mput Cluster.init c v b.lan.clusters }

/-! ## Role -/

/-- A standby is joined: the frames of a joined pair, and of one in doubt, commit at its acknowledgement (R39, R41). -/
def Blade.joined (b : Blade) : Bool := b.pair.duplex = .joined || b.pair.duplex = .doubt

/-- The active blade executes; one that has taken the role from a failed partner does so from its first tick on (R574). -/
def Blade.active (b : Blade) : Bool := b.pair.role = .active && !b.pair.detected

/-- A partner is joined or joining: state, settings and sequences are mirrored to it (R479, R560, R563). -/
def Blade.mirrors (b : Blade) : Bool :=
  b.pair.duplex = .joined || b.pair.duplex = .doubt || b.pair.duplex = .joining

/-- A standby executes nothing, and the active blade stops once the frame in which a hand-over was asked for has ended
(R576). -/
def Blade.stopped (b : Blade) : Bool :=
  b.pair.role = .standby || b.pair.handingOver.any fun d => b.active && BitVec.ofNat 32 d.operand ≠ b.frame

/-- The bytes of LOG not yet sent, a free value while this blade mirrors, and the throttle with its two limits (R565). -/
def Blade.sampleLog (b : Blade) : Blade :=
  if b.active && b.mirrors then
    let d := b.draw (2 ^ 35)
    let held := if 0x4000000 < d.1 then true else if d.1 ≤ 0x2000000 then false else b.pair.throttled
    { d.2 with pair.logUnsent := d.1, pair.throttled := held }
  else { b with pair.logUnsent := 0, pair.throttled := false }

/-- A number for each requester port. -/
def portId : Port → Nat
  | .command => 0
  | .tile t => 1 + t.val
  | .cluster c => 64 + c.val

/-- The requester port of a requester of the queue window (R653: a cluster's halyards share one). -/
def reqPort : Requester → Port
  | .command => .command
  | .tile t => .tile t
  | .halyard c _ => .cluster c

/-- Every meaning that is an effect on the blade alone. -/
abbrev Result := Host.Outcome State Fault Refusal

end Sys2Proof.Machine
end

