-- ==== Sys2Proof/Machine/Recorder.lean ====
section
/-! DEFINITION. The event recorder's ring (R546 to R548) and the injections that use it (R545). -/

namespace Sys2Proof.Machine

/-- Record types (Table 12.10). -/
def recFAULT : Nat := 1
def recTIMER : Nat := 2
def recCLEAR : Nat := 3
def recINJECT : Nat := 4
def recFENCE : Nat := 5
def recROLE : Nat := 6
def recFREEZE : Nat := 7
def recRETIRE : Nat := 8
def recREPAIR : Nat := 9
def recSEM : Nat := 10
def recPOWER : Nat := 11
def recRESET : Nat := 12

/-- What a record says beyond the frame, the cycle and its number (Table 12.9). -/
structure RecordFields where
  source : Nat
  type : Nat
  flags : Nat
  unit : Nat
  sub : Nat
  context : Nat
  d0 : Nat
  d1 : Nat
  d2 : Nat

/-- A record that concerns no source. -/
def RecordFields.plain (type d0 d1 d2 : Nat) : RecordFields :=
  { source := 0x7FF, type := type, flags := 0, unit := 0x7F, sub := 0, context := 0, d0 := d0, d1 := d1, d2 := d2 }

/-- The 32 bytes of a record (Table 12.9), least significant byte first. -/
def recordWord (frame : Word32) (cycle : Nat) (number : Word32) (r : RecordFields) : BitVec 256 :=
  BitVec.ofNat 256 (leNat (leBytes 4 frame.toNat ++ leBytes 4 cycle ++ leBytes 2 r.source ++ leBytes 1 r.type ++
    leBytes 1 r.flags ++ leBytes 1 r.unit ++ leBytes 1 r.sub ++ leBytes 2 r.context ++ leBytes 4 number.toNat ++
    leBytes 4 r.d0 ++ leBytes 4 r.d1 ++ leBytes 4 r.d2))

/-- A record is stored at the head of the ring; the cycle since the hoist is a free value below 250,000. -/
def Blade.storeRecord (b : Blade) (r : RecordFields) : BitVec 256 × Blade :=
  let d := b.draw 250000
  let w := recordWord b.frame d.1 b.flt.number r
  let i := d.2.flt.head.toNat
  (w, { d.2 with flt.ring := mput 0 i w d.2.flt.ring, flt.ringHurt := d.2.flt.ringHurt.filter (· ≠ i),
                 flt.head := d.2.flt.head + 1, flt.number := d.2.flt.number + 1 })

def srcRecEcc : Nat := srcWide 9 0

/-- The record of an injection that is used up (R545). -/
def injectionUsed (s mode : Nat) : RecordFields := { RecordFields.plain recINJECT mode 0 0 with source := s }

/-- Writes one record into the ring, frozen or not; the INJECT record that ends an injection is lost on a frozen ring. An armed
injection on the recorder's SRAM damages its words, of which a record has four (Table 12.8). -/
def Blade.writeRecord (b : Blade) (r : RecordFields) : BitVec 256 × Blade :=
  let i := b.flt.head.toNat
  let w := b.storeRecord r
  if w.2.armed srcRecEcc 1 then
    let v := w.2.source srcRecEcc
    let k := min 4 v.remaining
    let left := v.remaining - k
    let b := w.2.setSource srcRecEcc { v with remaining := left, mode := if left = 0 then 0 else v.mode }
    let b := { b with flt.ringHurt := b.flt.ringHurt ++ List.replicate k i }
    (w.1, if left ≠ 0 then b else if b.flt.frozen then { b with flt.lost := satInc b.flt.lost }
          else (b.storeRecord (injectionUsed srcRecEcc 1)).2)
  else w

/-- Records of the ring are read: their single-bit errors are corrected and counted (Table 12.8). -/
def Blade.checkRing (b : Blade) (is : List Nat) : Blade :=
  (b.flt.ringHurt.filter is.contains).foldl (fun b i => b.windowEvent srcRecEcc i)
    { b with flt.ringHurt := b.flt.ringHurt.filter fun i => !is.contains i }

/-- Records an event; a frozen ring only counts it (R547). -/
def Blade.record (b : Blade) (r : RecordFields) : Blade :=
  if b.flt.frozen then { b with flt.lost := satInc b.flt.lost } else (b.writeRecord r).2

/-- One armed event of an injection is used up; the last one is recorded (R543, R545). -/
def Blade.useInjection (b : Blade) (s : Nat) : Blade :=
  let v := b.source s
  let left := v.remaining - 1
  let b := b.setSource s { v with remaining := left, mode := if left = 0 then 0 else v.mode }
  if left = 0 then b.record (injectionUsed s v.mode.toNat) else b

/-- A write or a sending of `n` words: how many of them an armed injection damages, its events used up (R543). -/
def Blade.injectWords (b : Blade) (s mode n : Nat) : Nat × Blade :=
  if b.armed s mode then
    let k := min n (b.source s).remaining
    (k, times k (fun b => b.useInjection s) b)
  else (0, b)

/-! ## Blocks of the toggle link (R561) -/

def srcToggleCrc : Nat := srcWide 6 0

/-- The toggle link carries every block that is sent: it has lock, and no injection is armed on it. -/
def Blade.linkSound (b : Blade) : Bool := b.pair.lock && !b.armed srcToggleCrc 2

/-- A block is sent. Under an armed injection (mode CHECK_TX) its CRC fails at the partner, and it is sent again up to 3
times; after the fourth failure it is dropped and the link carries nothing until it trains again. DESIGN CHOICE (log 88): what is
meant for a joined or joining partner waits until then. -/
def Blade.sendOver (b : Blade) (o : Output) : Blade :=
  if !b.pair.lock then (if b.mirrors then { b with pair.unsent := b.pair.unsent ++ [o] } else b)
  else if !b.flt.fenced && b.armed srcToggleCrc 2 then
    let k := b.injectWords srcToggleCrc 2 4
    let b := if k.1 = 0 then k.2 else k.2.count (rTOGGLE + 0x20) (min 3 k.1)
    if k.1 = 4 then { b with pair.lock := false } else b.out o
  else b.out o

/-- A block that carries no more than its type and a frame. -/
def Blade.sendBlock (b : Blade) (type : BitVec 8) (n : Word32) : Blade := b.sendOver (.toggle type n)

/-- A ROLE block (Table 13.6). -/
def Blade.sendRole (b : Blade) (r : RoleMessage) : Blade := b.sendOver (.role r)

/-- The toggle link has trained: it carries blocks, those that waited first. -/
def Blade.relink (b : Blade) : Blade :=
  b.pair.unsent.foldl Blade.sendOver { b with pair.lock := true, pair.unsent := [] }

/-- The dump of the blade's own ring (Table 12.12). -/
def Blade.ownDump (b : Blade) : DumpBlock :=
  let kept := b.flt.number - b.flt.firstNumber
  { blade := BitVec.ofNat 8 (b2n b.bladeB), cause := BitVec.ofNat 8 b.flt.cause.toNat,
    head := BitVec.ofNat 16 b.flt.head.toNat, frame := b.flt.freezeFrame,
    first := if kept.toNat < 4096 then b.flt.firstNumber else b.flt.number - 4096, lost := BitVec.ofNat 32 b.flt.lost.toNat,
    records := (List.range 4096).map fun i => mget 0 ((b.flt.head.toNat + i) % 4096) b.flt.ring }

/-! ## Freezing (R547 to R549) -/

/-- The ring freezes with a cause (R547), its FREEZE record being its last; its dump goes to a joined partner (R549). -/
def Blade.freeze (b : Blade) (cause : Nat) : Blade :=
  if b.flt.frozen then b
  else
    let b := b.record (.plain recFREEZE cause 0 0)
    let b := { b with flt.frozen := true, flt.cause := BitVec.ofNat 3 cause, flt.freezeFrame := b.frame }
    if b.joined then b.sendOver (.dump b.ownDump) else b

/-- The ring is released and resumes at its head (R548). -/
def Blade.releaseRing (b : Blade) : Blade :=
  if b.flt.frozen then { b with flt.frozen := false, flt.cause := 0 }.record (.plain recFREEZE 0 0 0) else b

end Sys2Proof.Machine
end

