-- ==== Sys2Proof/Machine/Pool.lean ====
section
/-! DEFINITION. The queue pool (chapter 8): cells, packets, queues and cursors, and the host notices that travel in it. -/

namespace Sys2Proof.Machine

/-! ## Queues -/

/-- The default configuration of a queue (Table 8.3, R354). -/
def queueInit (q : Nat) : Queue :=
  let tick := (4096 ≤ q && q < 8193) || (8288 ≤ q && q < 8320)
  let notice : BitVec 2 :=
    if q < 4096 then 1 else if q < 8193 || q = 8194 || (8288 ≤ q && q < 8320) then 2
    else if 8256 ≤ q && q < 8288 then 1 else 0
  { quota := 0, reserve := 0, stallFrames := 1, tickRelease := tick, notice := notice,
    noticeContext := if q < 4096 then BitVec.ofNat 16 (q / 32 + 1) else 0,
    noticeNode := if q < 4096 then BitVec.ofNat 20 (0x1000 + q % 32) else 0,
    expire := 0, order := [], opens := 0, heldNotices := [] }

def Blade.queue (b : Blade) (q : Nat) : Queue := mget (queueInit q) q b.pool.queues

def Blade.setQueue (b : Blade) (q : Nat) (v : Queue) : Blade :=
  { b with pool.queues := mput (queueInit q) q v b.pool.queues }

def Packet.none : Packet :=
  { queue := 0, state := .opened, cells := [], words := [], length := 0, tag := 0, producer := .requester .command,
    bad := false, frame := 0, shown := 0, linkBad := Option.none, linkSeen := false, descBad := false }

def Blade.packet (b : Blade) (i : Nat) : Packet := mget Packet.none i b.pool.packets

def Blade.setPacket (b : Blade) (i : Nat) (p : Packet) : Blade :=
  { b with pool.packets := mput Packet.none i p b.pool.packets }

def Blade.dropPacket (b : Blade) (i : Nat) : Blade :=
  let q := (b.packet i).queue.toNat
  let b := { b with pool.packets := mput Packet.none i Packet.none b.pool.packets }
  b.setQueue q { b.queue q with order := (b.queue q).order.filter (· ≠ i) }

/-- A queue's cell count C. -/
def Blade.cellCount (b : Blade) (q : Nat) : Nat :=
  msum (fun p : Packet => if p.queue.toNat = q then p.cells.length else 0) b.pool.packets

/-- The sum of all reserves, and the reserved free count of the pool. -/
def Blade.reserveSum (b : Blade) : Nat := msum (fun v : Queue => v.reserve) b.pool.queues

def Blade.reservedFree (b : Blade) : Nat :=
  (b.pool.queues.map fun e => e.2.reserve - b.cellCount e.1).sum

/-- Whether `take_cell` of R355 would grant a cell. -/
def Blade.cellFree (b : Blade) (q : Nat) : Bool :=
  let v := b.queue q
  let c := b.cellCount q
  c < v.quota && 0 < b.pool.free.size && (c < v.reserve || b.reservedFree < b.pool.free.size)

/-- `take_cell` (R355). -/
def Blade.takeCell (b : Blade) (q : Nat) : Option (Nat × Blade) :=
  if b.cellFree q then
    match b.pool.free.take with
    | some (n, f) => some (n, { b with pool.free := f })
    | Option.none => Option.none
  else Option.none

/-- Cells join the free list's tail (R351). -/
def Blade.giveCells (b : Blade) (ns : List Nat) : Blade :=
  { b with pool.free := ns.foldl FreeList.give b.pool.free }

/-- The packet handle (Table 8.5). -/
def Packet.handle (p : Packet) : Nat :=
  p.cells.headD 0 + p.tag.toNat * 2 ^ 16 + p.queue.toNat * 2 ^ 32 + p.length * 2 ^ 48

/-- The header word that HEAD and CURSOR return. -/
def Packet.header (p : Packet) : Word32 := BitVec.ofNat 32 (p.length + p.tag.toNat * 2 ^ 16)

/-- The packet a producer has open in a queue. -/
def Blade.openPacket (b : Blade) (who : Producer) (q : Nat) : Option Nat :=
  (mkeys (fun _ (p : Packet) => p.state = .opened && p.producer = who && p.queue.toNat = q) b.pool.packets).head?

/-- The number of a producer's open packets. -/
def Blade.openCount (b : Blade) (who : Producer) : Nat :=
  (mkeys (fun _ (p : Packet) => p.state = .opened && p.producer = who) b.pool.packets).length

def Producer.isTile : Producer → Bool
  | .requester (.tile _) => true
  | _ => false

/-! ## Faults of the pool (Table 8.8) -/

def srcQCellParity : Nat := srcWide 3 0
def srcQWriteParity : Nat := srcWide 3 1
def srcQLinkLost : Nat := srcWide 3 2
def srcQDescLost : Nat := srcWide 3 3
def srcQAudit : Nat := srcWide 3 4

/-! ## Tokens that wait at port 44 (R119) -/

def Token.data (c : Nat) (iter : BitVec 12) (port : BitVec 2) (node : BitVec 20) (value : Word64) : Token :=
  { context := BitVec.ofNat 16 c, iteration := iter, port := port, kind := 0, node := node, cls := 0, ordered := false,
    poison := false, sequence := 0, flow := 0, value := value, parityBad := 0 }

/-- A token counts into its context, which is activity of it (R99, R100, R165). -/
def Blade.countIn (b : Blade) (c : Nat) : Blade :=
  b.modCtx c fun x => { x with tokensIn := x.tokensIn + 1, balance := x.balance + 1, changed := true,
                               lastActive := b.frame, reported := false }

/-- A discard that no balance accounts for (R112, R655, R96). -/
def Blade.unattributed (b : Blade) : Blade := (b.count (rCTX + 0x1C)).count64 (rCTX + 0x48)

/-- A token formed for port 44 is counted in and waits its turn; one of a context that is gone is discarded (R655). -/
def Blade.form44 (b : Blade) (i : Port44Item) : Blade :=
  let c := i.token.context.toNat
  if (b.ctx c).state = .free || (b.ctx c).state = .closed then b.unattributed
  else { b.countIn c with net.port44 := b.net.port44 ++ [i] }

/-- The notice of a packet. -/
def Blade.noticeOf (b : Blade) (i : Nat) : Notice :=
  let p := b.packet i
  { packet := i, queue := p.queue, producer := p.producer, handle := BitVec.ofNat 64 p.handle }

/-- The notice token of a packet (Table 8.6). -/
def Blade.noticeToken (b : Blade) (n : Notice) : Token :=
  let v := b.queue n.queue.toNat
  Token.data v.noticeContext.toNat 0 0 v.noticeNode n.handle

/-- The notice token goes to port 44, ordered in its context's flow when the command engine sealed the packet (R277). -/
def Blade.formNotice (b : Blade) (n : Notice) : Blade :=
  let t := b.noticeToken n
  b.form44 { token := t, notice := some (n.queue, n.packet),
             flow := if n.producer = .requester .command then (b.ctx t.context.toNat).flow else none }

/-- A lane's notice queue, counted with the packets that will fill it: sealed ones not yet VISIBLE, and those whose notice waits
for a HOIST (R407, R377). -/
def Blade.lanePending (b : Blade) (l : Nat) : Nat :=
  let mine := fun p : Packet => p.state = .pending && p.queue.toNat / 32 = l && (b.queue p.queue.toNat).notice = 1
  (b.halyard l).notices.length + (mkeys (fun _ p => mine p) b.pool.packets).length +
    ((List.range 32).map fun e => if (b.queue (32 * l + e)).notice = 1 then (b.queue (32 * l + e)).heldNotices.length else 0).sum

/-! ## Notices -/

/-- A packet's notice (R373, Table 8.6): an injector's, one at port 44, the tx notice of a halyard's endpoint (R398), or a
level that a hardware consumer sees. -/
def Blade.giveNotice (b : Blade) (n : Notice) : Blade :=
  let q := n.queue.toNat
  if (b.queue q).notice = 1 then
    match n.producer with
    | .requester (.halyard _ _) =>
      if q < 4096 then
        let h := b.halyard (q / 32)
        b.setHalyard (q / 32) { h with notices := h.notices ++ [b.noticeToken n] }
      else b
    | .requester (.tile _) => b
    | .ledger => b
    | _ => b.formNotice n
  else if (b.queue q).notice = 2 ∧ 4096 ≤ q ∧ q < 8192 then
    let l := (q - 4096) / 32
    let h := b.halyard l
    b.setHalyard l { h with txMask := h.txMask ||| BitVec.ofNat 32 (2 ^ (q % 32)) }
  else b

/-- A packet becomes VISIBLE (R363, R364, R373, R377). -/
def Blade.showPacket (b : Blade) (i : Nat) : Blade :=
  let p := b.packet i
  let q := p.queue.toNat
  let b := b.setPacket i { p with state := .visible, shown := b.frame }
  let v := b.queue q
  let b := b.setQueue q { v with order := v.order.filter (· ≠ i) ++ [i] }
  if b.struck (fnQueue q) then b.setQueue q { b.queue q with heldNotices := (b.queue q).heldNotices ++ [b.noticeOf i] }
  else b.giveNotice (b.noticeOf i)

/-- A seal takes effect (R363). -/
def Blade.sealEffect (b : Blade) (i : Nat) : Blade :=
  let p := b.packet i
  let q := p.queue.toNat
  let b := (b.count64 (rQPOOL + 0x28)).setPacket i { p with frame := b.frame }
  if (b.queue q).tickRelease then
    let b := b.setPacket i { b.packet i with state := .pending }
    let v := b.queue q
    b.setQueue q { v with order := v.order.filter (· ≠ i) ++ [i] }
  else b.showPacket i

/-! ## Writing and sealing -/

/-- Rewinds a packet: its cells return at once (R352). It stays open, and bad, until its producer ends it. -/
def Blade.rewind (b : Blade) (i : Nat) : Blade :=
  let p := b.packet i
  (b.giveCells p.cells).setPacket i { p with cells := [], words := [], bad := true, linkBad := Option.none }

/-- A packet turns bad and is rewound (R361). -/
def Blade.spoil (b : Blade) (i : Nat) : Blade := (b.rewind i).count (rQPOOL + 0x38)

/-- The cell whose word 0 fails. -/
def Packet.linkCell (p : Packet) : Nat := p.cells.getD (p.linkBad.getD 0) 0

/-- A packet is freed by its consumer, and waits for its frame's commit (R352, R353). -/
def Blade.freePacket (b : Blade) (i : Nat) : Blade :=
  let p := b.packet i
  let b := if p.linkBad.isSome && !p.linkSeen then b.raiseAt srcQLinkLost p.linkCell else b
  (b.setPacket i { p with state := .released, frame := b.frame, linkSeen := p.linkBad.isSome || p.linkSeen }).count64
    (rQPOOL + 0x30)

/-- Opens a packet (R359) with its first cell, or bad with none. -/
def Blade.openNew (b : Blade) (who : Producer) (q : Nat) (cell : Option Nat) : Nat × Blade :=
  let v := b.queue q
  let i := b.pool.next
  let p := { Packet.none with queue := BitVec.ofNat 14 q, cells := cell.toList, tag := BitVec.ofNat 8 v.opens,
                              producer := who, bad := cell.isNone, frame := b.frame }
  let b := b.setQueue q { v with opens := v.opens + 1 }
  (i, { b with pool.packets := mput Packet.none i p b.pool.packets, pool.next := i + 1 })

/-- Word 0 of a packet's cell is written; an armed injection of QCELL_LINK_LOST damages it (R544). -/
def Blade.writeLink (b : Blade) (i cell : Nat) : Blade :=
  if b.armed srcQLinkLost 1 then
    let p := b.packet i
    (b.setPacket i { p with linkBad := some (p.linkBad.getD cell) }).useInjection srcQLinkLost
  else b

/-- A packet whose descriptor cannot be read (R379): rewound while it is being written, freed otherwise. -/
def Blade.loseDescriptor (b : Blade) (i : Nat) : Blade :=
  let p := b.packet i
  let b := (b.raiseAt srcQDescLost (p.cells.headD 0)).setPacket i { p with descBad := false }
  let b := { b with pool.cursors := b.pool.cursors.filter (·.packet ≠ i) }
  if p.state = .opened then b.spoil i
  else if p.state = .held then (b.spoil i).dropPacket i
  else b.freePacket i

/-- A packet's consumer has done with it: it is freed (R370), or found lost (R379). -/
def Blade.consumePacket (b : Blade) (i : Nat) : Blade := if (b.packet i).descBad then b.loseDescriptor i else b.freePacket i

/-- A producer's open packet, its descriptor read (R379). -/
def Blade.checkOpen (b : Blade) (who : Producer) (q : Nat) : Blade :=
  match b.openPacket who q with
  | some i => if (b.packet i).descBad then b.loseDescriptor i else b
  | Option.none => b

/-- Writes a payload word into an open packet that has the cell for it; an armed injection damages it (R544). -/
def Blade.writeWord (b : Blade) (i : Nat) (value : Word32) : Blade :=
  let p := b.packet i
  let hurt := b.armed srcQCellParity 1
  let b := b.setPacket i { p with words := p.words ++ [{ value := value, bad := hurt }] }
  if hurt then b.useInjection srcQCellParity else b

/-- Appends a word to a producer's open packet, opening one first (R359, R361, R362). None where the word must wait:
the queue is struck (R376) or no cell is granted (R355). -/
def Blade.append (b : Blade) (who : Producer) (q : Nat) (value : Word32) (poison : Bool) : Option Blade :=
  if b.struck (fnQueue q) then Option.none
  else
    let b := b.checkOpen who q
    let hurt := b.armed srcQWriteParity 1
    let b := if hurt then b.useInjection srcQWriteParity else b
    let lost := poison || hurt
    match b.openPacket who q with
    | some i =>
      let p := b.packet i
      if p.bad then some (if lost then b.windowEvent srcQWriteParity else b)
      else if lost then some ((b.windowEvent srcQWriteParity).spoil i)
      else if p.words.length = 1024 then some (b.spoil i)
      else if p.words.length = 15 * p.cells.length then
        match b.takeCell q with
        | Option.none => Option.none
        | some (n, b) =>
          let b := b.writeLink i (p.cells.length - 1)
          let p := b.packet i
          some ((b.setPacket i { p with cells := p.cells ++ [n] }).writeWord i value)
      else some (b.writeWord i value)
    | Option.none =>
      if who.isTile && 8 ≤ b.openCount who then
        let r := b.openNew who q Option.none
        let b := r.2.count (rQPOOL + 0x38)
        some (if lost then b.windowEvent srcQWriteParity else b)
      else
        match b.takeCell q with
        | Option.none => Option.none
        | some (n, b) =>
          let r := b.openNew who q (some n)
          if lost then some ((r.2.windowEvent srcQWriteParity).spoil r.1) else some (r.2.writeWord r.1 value)

/-- Zeroes the pad bytes of a packet's last word (R360). -/
def padWords (ws : List QWord) (pad : Nat) : List QWord :=
  match ws.reverse with
  | [] => []
  | w :: r => (r.reverse) ++ [{ w with value := BitVec.ofNat 32 (w.value.toNat % 2 ^ (32 - 8 * pad)) }]

/-- Seals the packet a producer has open, which is there and not bad, with a SEAL value (R360, R363). -/
def Blade.sealOpen (b : Blade) (who : Producer) (i : Nat) (value : Word32) : Blade :=
  let p := b.packet i
  let pad := value.toNat
  if 3 < pad || 4 * p.words.length < pad then (b.spoil i).dropPacket i
  else
    let b := b.writeLink i (p.cells.length - 1)
    let p := b.packet i
    let b := b.setPacket i { p with length := 4 * p.words.length - pad, words := padWords p.words pad, state := .held }
    let v := b.queue p.queue.toNat
    if who.isTile then b.setQueue p.queue.toNat { v with order := v.order ++ [i] } else b.sealEffect i

/-- SEAL (R360). None where it seals an empty packet and no cell is granted. -/
def Blade.sealPacket (b : Blade) (who : Producer) (q : Nat) (value : Word32) : Option Blade :=
  let b := b.checkOpen who q
  match b.openPacket who q with
  | some i => if (b.packet i).bad then some (b.dropPacket i) else some (b.sealOpen who i value)
  | Option.none =>
    match b.takeCell q with
    | Option.none => Option.none
    | some (n, b) =>
      let r := b.openNew who q (some n)
      some (r.2.sealOpen who r.1 value)

/-- ABORT (R360, R361). -/
def Blade.abortPacket (b : Blade) (who : Producer) (q : Nat) : Blade :=
  let b := b.checkOpen who q
  match b.openPacket who q with
  | some i => if (b.packet i).bad then b.dropPacket i else (b.spoil i).dropPacket i
  | Option.none => b

/-- Appends words in turn; none where one of them would wait. -/
def Blade.appendAll (who : Producer) (q : Nat) : Blade → List Word32 → Option Blade
  | b, [] => some b
  | b, w :: ws =>
    match b.append who q w false with
    | some b => Blade.appendAll who q b ws
    | Option.none => Option.none

/-- A hardware unit writes one packet whole: none where a word or the seal finds no cell (R537, R170, R518). -/
def Blade.writePacket (b : Blade) (who : Producer) (q : Nat) (bytes : List Byte) : Option Blade :=
  match b.appendAll who q (wordsOf bytes) with
  | some b => b.sealPacket who q (BitVec.ofNat 32 ((4 - bytes.length % 4) % 4))
  | Option.none => Option.none

/-! ## Writes that wait (R374, R537, R518) -/

/-- Writes of the hub's own units wait for a queue. -/
def Blade.storesWait (b : Blade) (q : Nat) : Bool := b.pool.waiting.any (·.1 = q)

/-- A write joins those that wait for its queue. -/
def Blade.holdStore (b : Blade) (q : Nat) (w : WaitingStore) : Blade :=
  { b with pool.waiting := b.pool.waiting ++ [(q, w)] }

/-- A host notice is lost (R518). -/
def Blade.loseNotice (b : Blade) : Blade :=
  ({ b with eng.noticesLost := satInc b.eng.noticesLost }).count (rCMD + 0x40)

/-- A packet of a hoisted queue finds no cell: one of the collector, or a host notice, is lost and counted (R537, R518). None for
a unit that waits. -/
def Blade.losePacket (b : Blade) : Producer → Option Blade
  | .collector => some (b.count (rFAULT + 0x3050))
  | .requester .command => some b.loseNotice
  | _ => Option.none

/-- A waiting write completes; none where it must wait on. -/
def Blade.serveStore (b : Blade) (q : Nat) : WaitingStore → Option Blade
  | .packet who bytes =>
    if b.struck (fnQueue q) then Option.none
    else
      match b.writePacket who q bytes with
      | some b => some b
      | Option.none => b.losePacket who
  | .word v poison => b.append (.requester .command) q v poison
  | .seal v => b.sealPacket (.requester .command) q v

/-- Writes that wait for a queue complete in order, up to one that must wait on. -/
def Blade.serveStores (q : Nat) : List (Nat × WaitingStore) → Blade → Blade
  | [], b => b
  | w :: ws, b =>
    match b.serveStore q w.2 with
    | some b => Blade.serveStores q ws b
    | Option.none => { b with pool.waiting := b.pool.waiting ++ w :: ws }

def Blade.serveQueue (b : Blade) (q : Nat) : Blade :=
  if b.storesWait q then
    Blade.serveStores q (b.pool.waiting.filter (·.1 = q)) { b with pool.waiting := b.pool.waiting.filter (·.1 ≠ q) }
  else b

/-- Every queue that writes wait for. -/
def Blade.serveAll (b : Blade) : Blade := (b.pool.waiting.map (·.1)).foldl Blade.serveQueue b

/-- A unit writes a packet whole: none where it is lost for want of a cell. On a struck queue, or behind writes that wait, it
waits (R374). -/
def Blade.postPacket (b : Blade) (who : Producer) (q : Nat) (bytes : List Byte) : Option Blade :=
  if b.struck (fnQueue q) || b.storesWait q then some (b.holdStore q (.packet who bytes))
  else b.writePacket who q bytes

/-! ## Freeing -/

/-- A released packet's cells join the free list; those past a lost link are lost (R353, R378). -/
def Blade.returnCells (b : Blade) (i : Nat) : Blade :=
  let p := b.packet i
  let reached := match p.linkBad with
    | some k => p.cells.take (k + 1)
    | Option.none => p.cells
  let b := b.dropPacket i
  { b.giveCells reached with pool.lost := b.pool.lost + (p.cells.length - reached.length) }

/-! ## Reading -/

/-- A requester's cursor on a queue, if one is not ended. -/
def Blade.cursor (b : Blade) (who : Requester) (q : Nat) : Option Cursor :=
  b.pool.cursors.find? fun c => c.who = who && c.queue.toNat = q && !c.ended

def isTileRequester : Requester → Bool
  | .tile _ => true
  | _ => false

/-- Ends a requester's cursor on a queue: a hardware consumer's packet is freed, a firing's waits for its END (R370,
R371). -/
def Blade.endCursor (b : Blade) (who : Requester) (q : Nat) : Blade :=
  match b.cursor who q with
  | Option.none => b
  | some c =>
    if isTileRequester who then
      { b with pool.cursors := b.pool.cursors.map fun d => if d = c then { d with ended := true } else d }
    else
      ({ b with pool.cursors := b.pool.cursors.filter (· ≠ c) }).consumePacket c.packet

/-- Puts a packet into a requester's cursor. -/
def Blade.claim (b : Blade) (who : Requester) (q i : Nat) : Blade :=
  let b := b.setPacket i { b.packet i with state := .reading }
  { b with pool.cursors := b.pool.cursors ++
      [{ who := who, queue := BitVec.ofNat 14 q, packet := i, position := 0, ended := false }] }

/-- The oldest VISIBLE packet of a queue. -/
def Blade.oldestVisible (b : Blade) (q : Nat) : Option Nat :=
  (b.queue q).order.find? fun i => (b.packet i).state = .visible

/-- A frame has committed (R39, R41): it has ended, and waits for no commit. -/
def Blade.committed (b : Blade) (f : Word32) : Bool := f ≠ b.frame && !b.pair.unreleased.any (·.1 = f)

/-- The words of a packet that its cells reach. -/
def Packet.reached (p : Packet) : List QWord :=
  match p.linkBad with
  | some k => p.words.take (15 * (k + 1))
  | Option.none => p.words

/-- A packet that holds a POISON word is freed unsent by the command engine (R369). -/
def Blade.freePoisoned (b : Blade) (i : Nat) : Blade :=
  let p := b.packet i
  let cell := p.cells.getD ((p.reached.findIdx? (·.bad)).getD 0 / 15) 0
  ((b.windowEvent srcQCellParity cell).count (rQPOOL + 0x48)).freePacket i

/-- The command engine takes the oldest VISIBLE packet of a queue whose frame has committed (R40): one whose descriptor is lost
or that holds a POISON word is freed unsent; a struck queue keeps its packets (R376). -/
def Blade.takePacket (b : Blade) (q : Nat) : Option Nat × Blade :=
  if b.struck (fnQueue q) then (Option.none, b)
  else
    match (b.queue q).order.find? fun i => (b.packet i).state = .visible && b.committed (b.packet i).frame with
    | Option.none => (Option.none, b)
    | some i =>
      let p := b.packet i
      if p.descBad then (Option.none, b.loseDescriptor i)
      else if p.reached.any (·.bad) then (Option.none, b.freePoisoned i)
      else (some i, b.setPacket i { p with state := .reading })

/-- HEAD (R366); a struck queue returns the idle item and keeps its cursors (R376). -/
def Blade.headLoad (b : Blade) (who : Requester) (q : Nat) : Item × Blade :=
  if b.struck (fnQueue q) then (.idle, b)
  else
    let b := b.endCursor who q
    match b.oldestVisible q with
    | Option.none => (.idle, b)
    | some i =>
      if (b.packet i).descBad then (.idle, b.loseDescriptor i)
      else if who = .command && (b.packet i).reached.any (·.bad) then (.idle, b.freePoisoned i)
      else (.data (b.packet i).header, b.claim who q i)

/-- SELECT (R367). -/
def Blade.selectStore (b : Blade) (who : Requester) (q : Nat) (value : Word32) : Blade :=
  let b := b.endCursor who q
  let first := bits value.toNat 0 16
  let tag := bits value.toNat 16 8
  match (b.queue q).order.find? (fun i => (b.packet i).state = .visible && (b.packet i).cells.head? = some first &&
      (b.packet i).tag.toNat = tag) with
  | some i =>
    if (b.packet i).descBad then (b.loseDescriptor i).count (rQPOOL + 0x44) else b.claim who q i
  | Option.none => b.count (rQPOOL + 0x44)

/-- CURSOR. -/
def Blade.cursorLoad (b : Blade) (who : Requester) (q : Nat) : Item × Blade :=
  if b.struck (fnQueue q) then (.idle, b)
  else
    match b.cursor who q with
    | some c =>
      if (b.packet c.packet).descBad then (.idle, b.loseDescriptor c.packet) else (.data (b.packet c.packet).header, b)
    | Option.none => (.idle, b)

/-- DATA load (R368, R369, R378). -/
def Blade.dataLoad (b : Blade) (who : Requester) (q : Nat) : Item × Blade :=
  if b.struck (fnQueue q) then (.idle, b)
  else
    match b.cursor who q with
    | Option.none => (.idle, b)
    | some c =>
      let p := b.packet c.packet
      if p.descBad then (.idle, b.loseDescriptor c.packet)
      else if p.length ≤ 4 * c.position then (.idle, b)
      else if 15 * ((p.linkBad.getD p.cells.length) + 1) ≤ c.position then
        (.idle, if p.linkSeen then b
                else (b.setPacket c.packet { p with linkSeen := true }).raiseAt srcQLinkLost p.linkCell)
      else
        let w := p.words.getD c.position { value := 0, bad := false }
        let b := { b with pool.cursors := b.pool.cursors.map fun d =>
                     if d = c then { d with position := d.position + 1 } else d }
        if w.bad then
          ({ value := w.value, tag := .poison }, (b.windowEvent srcQCellParity (p.cells.getD (c.position / 15) 0)).count (rQPOOL + 0x48))
        else (.data w.value, b)

/-- The requesters' packets return to VISIBLE and their cursors end, at a retirement (R365, R422). -/
def Blade.unclaim (b : Blade) (who : Requester) : Blade :=
  let cs := b.pool.cursors.filter (·.who = who)
  let b := { b with pool.cursors := b.pool.cursors.filter (·.who ≠ who) }
  cs.foldl (fun b c => b.setPacket c.packet { b.packet c.packet with state := .visible }) b

/-- A firing's claimed packets are freed at its END or trap (R371). -/
def Blade.freeClaims (b : Blade) (who : Requester) : Blade :=
  let cs := b.pool.cursors.filter (·.who = who)
  let b := { b with pool.cursors := b.pool.cursors.filter (·.who ≠ who) }
  cs.foldl (fun b c => b.consumePacket c.packet) b

/-- The packets a producer holds in a state, in the order it opened them. -/
def Blade.held (b : Blade) (who : Producer) (st : PacketState) : List Nat :=
  mkeys (fun _ (p : Packet) => p.state = st && p.producer = who) b.pool.packets

/-- A firing's packets at a trap or a retirement: rewound and gone (R365). `counted` says whether QPOOL_TRAP_REWOUND
counts them. -/
def Blade.rewindAll (b : Blade) (who : Producer) (counted : Bool) : Blade :=
  (b.held who .opened ++ b.held who .held).foldl
    (fun b i =>
      let b := if counted && !(b.packet i).bad then b.count (rQPOOL + 0x3C) else b
      (b.giveCells (b.packet i).cells).dropPacket i) b

/-- A firing's packets at END: the open ones rewound and counted bad, the held ones sealed in the order it sealed them
(R365, R214). -/
def Blade.sealAll (b : Blade) (who : Producer) : Blade :=
  let b := (b.held who .opened).foldl
    (fun b i =>
      let b := if (b.packet i).bad then b else b.count (rQPOOL + 0x38)
      (b.giveCells (b.packet i).cells).dropPacket i) b
  let sealed := b.pool.queues.flatMap fun e => e.2.order.filter fun i =>
    (b.packet i).state = .held && (b.packet i).producer = who
  sealed.foldl (fun b i => if (b.packet i).descBad then b.loseDescriptor i else b.sealEffect i) b

/-! ## Frames -/

/-- Whether frame `f` is `n` or earlier, modulo 2^32 (R34). -/
def frameLe (f n : Word32) : Bool := (n - f).toNat < 2 ^ 31

/-- The commit of frames up to n in the pool: PENDING packets become VISIBLE in seal order and RELEASED cells return (R364,
R353), which writes that wait for cells take (R374). -/
def Blade.poolCommit (b : Blade) (n : Word32) : Blade :=
  let pend := b.pool.queues.flatMap fun e => e.2.order.filter fun i =>
    (b.packet i).state = .pending && frameLe (b.packet i).frame n
  let b := pend.foldl (fun b i => if (b.packet i).descBad then b.loseDescriptor i else b.showPacket i) b
  let gone := mkeys (fun _ (p : Packet) => p.state = .released && frameLe p.frame n) b.pool.packets
  (gone.foldl Blade.returnCells b).serveAll

/-- Cells counted in packets of some states. -/
def Blade.cellsIn (b : Blade) (f : PacketState → Bool) : Nat :=
  msum (fun p : Packet => if f p.state then p.cells.length else 0) b.pool.packets

def PacketState.isOpen : PacketState → Bool
  | .opened => true
  | .held => true
  | _ => false

def Blade.poolOpen (b : Blade) : Nat := b.cellsIn PacketState.isOpen
def Blade.poolQueued (b : Blade) : Nat := b.cellsIn fun s => !s.isOpen
def Blade.poolReleased (b : Blade) : Nat := b.cellsIn fun s => s = .released

/-- The pool auditor at a tick (R380). -/
def Blade.poolAudit (b : Blade) : Blade :=
  if b.flag rQPOOL 0 then
    let total := b.pool.free.size + b.poolOpen + b.poolQueued + b.pool.lost
    if total = 65536 then b.setField (rQPOOL + 0x20) 0 1 1
    else
      let n := b.field (rQPOOL + 0x20) 16 16
      let b := b.setReg (rQPOOL + 0x20) (pack [(0, 1, 0), (16, 16, min (n + 1) 0xFFFF)])
      b.raiseWith { Assertion.plain srcQAudit with detail := (65536, BitVec.ofNat 32 total, 0) }
  else b.setField (rQPOOL + 0x20) 0 1 1

/-- HOIST's check of a queue (R356). -/
def Blade.queueCheck (b : Blade) (q : Nat) (v : Queue) : Bool :=
  v.reserve ≤ v.quota && b.reserveSum - (b.queue q).reserve + v.reserve ≤ 61440 &&
    (v.notice.toNat = 0 || (v.notice.toNat = 1 && (q < 4096 || 8192 ≤ q)) || (v.notice.toNat = 2 && 4096 ≤ q))

/-! ## Host notices (R518) -/

/-- The open NOTICE channel. -/
def Blade.noticeChannel (b : Blade) : Option Nat :=
  (mkeys (fun _ (c : Channel) => c.isOpen && c.kind = 3) b.eng.channels).head?

/-- Forms one host notice; it is lost where no NOTICE channel is open or no cell is free. -/
def Blade.notify (b : Blade) (code : Nat) (detail : List Byte) : Blade :=
  let b := { b with eng.notices := b.eng.notices + 1 }
  let bytes := leBytes 2 code ++ leBytes 2 b.eng.noticesLost.toNat ++ leBytes 4 b.frame.toNat ++
    leBytes 4 b.eng.notices.toNat ++ leBytes 4 0 ++ sliceBytes detail 0 16
  match b.noticeChannel with
  | Option.none => b.loseNotice
  | some h =>
    match b.postPacket (.requester .command) (8288 + h) bytes with
    | some b => { b with eng.noticesLost := 0 }
    | Option.none => b.loseNotice

end Sys2Proof.Machine
end

