-- ==== Sys2Proof/Machine/Collector.lean ====
section
/-! DEFINITION. The fault collector (R530 to R538): assertions, escalation, reaction timers and clears. -/

namespace Sys2Proof.Machine

def rGROUP (g : Nat) : Nat := rFAULT + 0x100 * g

/-- Whether a source's mask bit is set, which R530 ignores for native-fatal sources. -/
def Blade.masked (b : Blade) (s : Nat) : Bool :=
  b.flag (rGROUP (s / 32) + 0x14) (s % 32) && (b.sourceOf s).1 ≠ .fatal

/-- Sticky bits of a group, as FAULT_STICKY reads. -/
def Blade.stickyWord (b : Blade) (g : Nat) : Word32 :=
  BitVec.ofNat 32 (((List.range 32).map fun k => if (b.source (32 * g + k)).sticky then 2 ^ k else 0).sum)

/-- An E or W source of the group holds a sticky bit of the class (R532, R527). -/
def Blade.outstanding (b : Blade) (g : Nat) (cls : Nat) : Bool :=
  (List.range 32).any fun k =>
    (b.source (32 * g + k)).sticky && (b.sourceOf (32 * g + k)).2 ≠ .level && (b.source (32 * g + k)).eff.toNat = cls

/-- The class an assertion takes (R532): one step up, once. -/
def Blade.assertClass (b : Blade) (s : Nat) : Nat :=
  let c := (b.sourceOf s).1.code
  if c < 2 && (b.sourceOf s).2 ≠ .level && b.outstanding (s / 32) c then c + 1 else c

/-- A record of a fault goes into the fault queue and to hosts (R537). A blade that is not active has no cells to grant, so that
its records are not queued and count as lost; it notifies nobody. -/
def Blade.publish (b : Blade) (word : BitVec 256) (s cls : Nat) : Blade :=
  let queued := 1 ≤ cls || b.flag (rFAULT + 0x3000) 1
  if !b.active then if queued then b.count (rFAULT + 0x3050) else b
  else
    let b := if queued then (b.postPacket .collector 8195 (leBytes 32 word.toNat)).getD (b.count (rFAULT + 0x3050)) else b
    if 1 ≤ cls || b.flag (rFAULT + 0x3000) 2 then b.notify 9 (leBytes 2 s ++ leBytes 1 cls) else b

/-- Writes a FAULT or TIMER_ESC record and publishes it (R536, R537); FAULT_RAISED counts the FAULT records written (Table
12.24). -/
def Blade.recordFault (b : Blade) (type : Nat) (a : Assertion) (cls : Nat) : Blade :=
  let native := (b.sourceOf a.source).1.code
  let r : RecordFields :=
    { source := a.source, type := type,
      flags := native + 4 * cls + 16 * b2n (native < cls) + 32 * b2n a.forced + 64 * b2n a.context.isSome,
      unit := a.unit.toNat, sub := a.sub.toNat, context := (a.context.getD 0).toNat, d0 := a.detail.1.toNat,
      d1 := a.detail.2.1.toNat, d2 := a.detail.2.2.toNat }
  if b.flt.frozen then { b with flt.lost := satInc b.flt.lost }
  else
    let w := (if type = recFAULT then b.count64 (rFAULT + 0x3040) else b).writeRecord r
    w.2.publish w.1 a.source cls

/-- FAULT_FIRST holds the first bit set since it was last cleared (Table 12.18). -/
def Blade.noteFirst (b : Blade) (s : Nat) : Blade :=
  let a := rGROUP (s / 32) + 0x18
  if b.flag a 31 then b else b.setReg a (pack [(0, 5, s % 32), (31, 1, 1)])

/-- A fatal assertion begins the fence (R538, Table 12.5 step 1). -/
def Blade.beginFence (b : Blade) : Blade :=
  if b.flt.fatal then b
  else
    let b := { b with flt.fatal := true, flt.fencing := true, flt.soloFence := !b.joined }
    b.sendBlock 7 b.frame

def srcCollector : Nat := srcWide 9 3

/-- A word of the collector's own state is written: an armed injection damages it (Table 12.8). -/
def Blade.collectorWord (b : Blade) (s : Nat) : Blade :=
  if s ≠ srcCollector && b.armed srcCollector 1 then
    let b := b.useInjection srcCollector
    b.setSource s { b.source s with hurt := true }
  else b

/-- The collector reads its word of a source: a damaged one fails its parity (R545). -/
def Blade.checkWord (b : Blade) (s : Nat) : Blade :=
  let v := b.source s
  if v.hurt then (b.setSource s { v with hurt := false }).raiseFree srcCollector else b

/-- One assertion, as the collector takes it (R530 to R533, R536). -/
def Blade.assertOne (b : Blade) (a : Assertion) : Blade :=
  let s := a.source
  let native := (b.sourceOf s).1
  let kind := (b.sourceOf s).2
  if native = .unassigned || b.masked s then b
  else
    let b := b.checkWord s
    let c := b.assertClass s
    let v := b.source s
    let rose := !v.sticky
    let eff := if rose then c else max v.eff.toNat c
    let dl := if c = 1 && kind ≠ .level && v.deadline = 0 then 4 else v.deadline
    let b := (b.setSource s { v with sticky := true, eff := BitVec.ofNat 2 eff, deadline := dl }).collectorWord s
    let b := if rose then b.noteFirst s else b
    let b := if native.code < c then b.count (rFAULT + 0x3048) else b
    let b := if rose || kind ≠ .level || native.code < c then b.recordFault recFAULT a c else b
    if c = 2 then b.beginFence else b

/-- The insertion of an assertion by ascending source number, after equals (R534). -/
def insertDue (a : Assertion) : List Assertion → List Assertion
  | [] => [a]
  | x :: r => if a.source < x.source then a :: x :: r else x :: insertDue a r

/-- The assertions of one step in ascending source number, then the freeze of a fatal one (R534, R547, Table 12.4). -/
def Blade.takeDue (b : Blade) : Blade :=
  let due := b.flt.due.foldl (fun l a => insertDue a l) []
  let b := due.foldl Blade.assertOne { b with flt.due := [] }
  if b.flt.fatal && b.flt.fencing then b.freeze 1 else b

/-- Takes every assertion of the step, those that taking them raises included (a record's packet may raise one more). -/
def Blade.collect (b : Blade) : Blade := b.takeDue.takeDue.takeDue

/-- Clears sticky bits of a group (R531), with who asked for the CLEAR record; a bit whose cause holds sets again. -/
def Blade.clearSticky (b : Blade) (g : Nat) (mask : Word32) (requester : Nat) : Blade :=
  let ks := (List.range 32).filter fun k => bitOf mask.toNat k && (b.source (32 * g + k)).sticky
  let b := ks.foldl (fun b k =>
    let b := b.checkWord (32 * g + k)
    let v := b.source (32 * g + k)
    b.setSource (32 * g + k) { v with sticky := false, eff := 0, deadline := 0 }) b
  let cleared := (ks.map fun k => 2 ^ k).sum
  let b := if cleared = 0 then b else b.record (.plain recCLEAR g cleared requester)
  (ks.filter fun k => (b.source (32 * g + k)).cause).foldl (fun b k => b.assertOne (.plain (32 * g + k))) b

/-- An L source's cause begins or ends (R527). -/
def Blade.setCause (b : Blade) (s : Nat) (v : Bool) : Blade :=
  let old := b.source s
  let b := b.setSource s { old with cause := v }
  if v && !old.sticky then b.raise s else b

/-- The escalation of a reaction timer at its tick (R535). -/
def Blade.timerEscalate (b : Blade) (s : Nat) : Blade :=
  let v := b.source s
  if v.sticky && v.eff.toNat = 1 && v.deadline = 1 then
    let b := b.setSource s { v with eff := 2, deadline := 0 }
    let b := b.count (rFAULT + 0x304C)
    let b := b.recordFault recTIMER (.plain s) 2
    b.beginFence.freeze 1
  else b

/-- The tick counts: a contained bit whose deadline it is becomes fatal, before the tick's own assertions (R534, R535); the
others have one tick less left. -/
def Blade.tickDeadlines (b : Blade) : Blade :=
  let b := (mkeys (fun _ (v : Source) => v.hurt) b.flt.sources).foldl Blade.checkWord b
  let b := (mkeys (fun _ (v : Source) => v.deadline = 1) b.flt.sources).foldl Blade.timerEscalate b
  let due := mkeys (fun _ (v : Source) => 1 < v.deadline) b.flt.sources
  due.foldl (fun b s => let v := b.source s; b.setSource s { v with deadline := v.deadline - 1 }) b

/-- The tick counts down the window of the W sources (R308). -/
def Blade.tickWindow (b : Blade) : Blade := { b with flt.windowLeft := b.flt.windowLeft - 1 }

/-- The next window of the W sources begins where the last has ended (R308). -/
def Blade.newWindow (b : Blade) : Blade :=
  if b.flt.windowLeft = 0 then
    let ks := mkeys (fun _ (v : Source) => v.count ≠ 0 || v.thresholdPassed) b.flt.sources
    let b := ks.foldl (fun b s => let v := b.source s; b.setSource s { v with count := 0, thresholdPassed := false }) b
    { b with flt.windowLeft := b.field rMEM 16 16 }
  else b

end Sys2Proof.Machine
end

