-- ==== Sys2Proof/Machine/Words.lean ====
section
/-! DEFINITION. The stored words of the banks and of the DRAM channels, with their SEC-DED: reads and writes of a word
(chapter 7), and those of whole images and of node descriptors. -/

namespace Sys2Proof.Machine

/-- The DRAM channel of an address (R315). -/
def channelOf (a : Nat) : Nat := bits a 8 1

/-- Fault sources and counters of a word's bank or channel. -/
def srcCorrected (a : Nat) : Nat := if a < sramSize then srcBank (bankOf a) 0 else srcWide 4 (channelOf a)
def srcUncorrectable (a : Nat) : Nat := if a < sramSize then srcBank (bankOf a) 1 else srcWide 4 (2 + channelOf a)
def rCorrected (a : Nat) : Nat :=
  if a < sramSize then rMEM + 0x200 + 4 * bankOf a else rMEM + 0x10 + 4 * channelOf a
def rUncorrectable (a : Nat) : Nat :=
  if a < sramSize then rMEM + 0x300 + 4 * bankOf a else rMEM + 0x18 + 4 * channelOf a

/-- A bank is offline: struck, its strike having taken effect (R318). -/
def Blade.bankOffline (b : Blade) (k : Nat) : Bool := b.struck (fnBank k) && !b.csr.striking.contains (fnBank k)

/-- An offline bank refuses the access (R319). -/
def Blade.offline (b : Blade) (a : Nat) : Bool := a < sramSize && b.bankOffline (bankOf a)

def Blade.raiseOffline (b : Blade) (a : Nat) : Blade := b.raise (srcBank (bankOf a) 2)

/-- A correction of a word (R304, R308). -/
def Blade.noteCorrected (b : Blade) (a : Nat) : Blade := (b.count (rCorrected a)).windowEvent (srcCorrected a) a

/-- An uncorrectable word is found (R305, Table 7.17). -/
def Blade.noteUncorrectable (b : Blade) (a : Nat) : Blade :=
  let b := b.count (rUncorrectable a)
  let b := (b.setReg (rMEM + 0x20) (BitVec.ofNat 32 a)).setReg (rMEM + 0x24) (pack [(0, 16, a / 2 ^ 32), (31, 1, 1)])
  b.raiseAt (srcUncorrectable a) a

/-! ## Words -/

/-- What a read answers: the value, whether it comes poisoned, and what the access leaves. -/
structure Loaded where
  value : Word64
  poison : Bool
  mem : Memory
  blade : Blade

/-- The read of one stored word, aligned to 8 bytes (R304 to R306, R319). -/
def Blade.loadWord (b : Blade) (m : Memory) (a : Nat) : Loaded :=
  if b.offline a then { value := 0, poison := true, mem := m, blade := b.raiseOffline a }
  else
    let k := b.place a
    let v := BitVec.ofNat 64 (m.nat k 8)
    match m.mark k with
    | .sound => { value := v, poison := false, mem := m, blade := b }
    | .single => { value := v, poison := false, mem := m.setMark k .sound, blade := b.noteCorrected a }
    | .poison => { value := v, poison := true, mem := m, blade := b }
    | .uncorrectable => { value := v, poison := true, mem := m.setMark k .poison, blade := b.noteUncorrectable a }

/-- How a written word is stored: an armed injection on its checker damages it (R544, Table 12.8). -/
def Blade.writtenMark (b : Blade) (a : Nat) : WordMark × Blade :=
  if b.armed (srcCorrected a) 1 then (.single, b.useInjection (srcCorrected a))
  else if b.armed (srcUncorrectable a) 1 then (.uncorrectable, b.useInjection (srcUncorrectable a))
  else (.sound, b)

/-- The write of one stored word; poisoned data leave the marker (R224, R306). -/
def Blade.writeWord64 (b : Blade) (m : Memory) (a : Nat) (v : Word64) (poison : Bool) : Memory × Blade :=
  let k := b.place a
  let w := b.writtenMark a
  ((m.write k (leBytes 8 v.toNat)).setMark k (if poison then .poison else w.1), w.2)

/-- A 64-bit store of stored bytes (R306, R319). -/
def Blade.store64 (b : Blade) (m : Memory) (a : Nat) (v : Word64) (poison : Bool) : Memory × Blade :=
  if b.offline a then (m, b.raiseOffline a) else b.writeWord64 m a v poison

/-- A narrower store: a read, a merge and a write of its word (R307, R315). -/
def Blade.merge8 (b : Blade) (m : Memory) (a n : Nat) (v : Nat) (poison : Bool) : Memory × Blade :=
  if b.offline a then (m, b.raiseOffline a)
  else
    let r := b.loadWord m (a / 8 * 8)
    if r.poison then (r.mem, r.blade)
    else
      let lo := 8 * (a % 8)
      let mask : Word64 := BitVec.ofNat 64 ((2 ^ (8 * n) - 1) * 2 ^ lo)
      let w := (r.value &&& ~~~mask) ||| (BitVec.ofNat 64 (v * 2 ^ lo) &&& mask)
      r.blade.writeWord64 r.mem (a / 8 * 8) w poison

/-! ## Bytes written by a unit of the hub -/

/-- Whole words written, aligned. -/
def Memory.fill (m : Memory) (a : Nat) (bs : List Byte) : Memory :=
  (List.range ((bs.length + 7) / 8)).foldl (fun m i => m.setMark (a + 8 * i) .sound) (m.write a bs)

/-- Whole words written into DRAM under their check bits: an armed injection damages words of them (R544, Table 12.8). -/
def Blade.fillWords (b : Blade) (m : Memory) (a : Nat) (bs : List Byte) : Memory × Blade :=
  let m := m.fill a bs
  if [0, 1, 2, 3].any fun k => b.armed (srcWide 4 k) 1 then
    (List.range (bs.length / 8)).foldl (fun x i =>
      let w := x.2.writtenMark (a + 8 * i)
      (x.1.setMark (a + 8 * i) w.1, w.2)) (m, b)
  else (m, b)

/-- Bytes of a word written in part, each as a store narrower than the word (R315). -/
def Blade.fillPart (b : Blade) (m : Memory) (a : Nat) (bs : List Byte) : Memory × Blade :=
  (List.range bs.length).foldl (fun x i => x.2.merge8 x.1 (a + i) 1 (bs.getD i 0).toNat false) (m, b)

/-- Bytes written into DRAM: whole words, and at either end a word in part. -/
def Blade.fillDram (b : Blade) (m : Memory) (a : Nat) (bs : List Byte) : Memory × Blade :=
  let h := min ((8 - a % 8) % 8) bs.length
  let w := (bs.length - h) / 8 * 8
  let x := b.fillPart m a (bs.take h)
  let x := x.2.fillWords x.1 (a + h) ((bs.drop h).take w)
  x.2.fillPart x.1 (a + h + w) (bs.drop (h + w))

/-- The words of a range that are not sound. -/
def Memory.marked (m : Memory) (a n : Nat) : List Nat :=
  m.marks.filterMap fun e => if a < 8 * e.1 + 8 && 8 * e.1 < a + n then some (8 * e.1) else none

/-- What a unit reads of a range of DRAM: its bytes, those of a lost word free values, whether a word is lost, and what the reads
leave. -/
structure DramRead where
  bytes : List Byte
  lost : Bool
  mem : Memory
  blade : Blade

/-- One unsound word of a range is read. -/
def DramRead.word (a : Nat) (x : DramRead) (k : Nat) : DramRead :=
  let r := x.blade.loadWord x.mem k
  if r.poison then
    let d := r.blade.draw (2 ^ 64)
    { bytes := x.bytes.take (k - a) ++ leBytes 8 d.1 ++ x.bytes.drop (k - a + 8), lost := true, mem := r.mem, blade := d.2 }
  else { x with mem := r.mem, blade := r.blade }

/-- A unit reads bytes of DRAM from an aligned address: words are corrected, or found lost (R315). -/
def Blade.readDram (b : Blade) (m : Memory) (a n : Nat) : DramRead :=
  (m.marked a n).foldl (DramRead.word a) { bytes := m.read a n, lost := false, mem := m, blade := b }

/-! ## Node descriptors (R78, R315) -/

/-- A home tile reads a node's descriptor: its words are corrected, or found lost, as all of DRAM is. One known to be lost
is not read again. -/
def Blade.readDesc (b : Blade) (m : Memory) (slotB : Bool) (node : Nat) : Memory × Blade :=
  if b.led.lostDescriptors.any (fun p => p.1 = slotB && p.2.toNat = node) then (m, b)
  else
    let lo := b.loadWord m (descAddr slotB node)
    let hi := lo.blade.loadWord lo.mem (descAddr slotB node + 8)
    (hi.mem, hi.blade)

end Sys2Proof.Machine
end

