-- ==== Sys2Proof/Machine/Ledger.lean ====
section
/-! DEFINITION. Tokens on the network, contexts and the ledger (chapters 2 and 3): counting in and out, discards,
cancellations, the audit trail, and the transitions of a context. -/

namespace Sys2Proof.Machine

/-! ## Tokens -/

/-- A parity error in W0, W1 or W2 (R60). -/
def Token.tagBad (t : Token) : Bool := t.parityBad.getLsbD 0 || t.parityBad.getLsbD 1 || t.parityBad.getLsbD 2

/-- A parity error in W3 or W4 (R60). -/
def Token.valueBad (t : Token) : Bool := t.parityBad.getLsbD 3 || t.parityBad.getLsbD 4

/-- The reserved combinations of R63. -/
def Token.reserved (t : Token) : Bool :=
  t.kind = 3 || t.port = 3 || 5 ≤ t.cls.toNat || ((t.kind = 1 || t.kind = 2) && t.cls ≠ 0)

/-- The audited class of a token, 1 to 4. -/
def audited (cls : BitVec 3) : Bool := 1 ≤ cls.toNat && cls.toNat ≤ 4

def srcTagParity : Nat := srcWide 0 0
def srcValueParity : Nat := srcWide 0 1
def srcReserved : Nat := srcWide 0 2
def srcFlowSeq : Nat := srcWide 0 3

/-- The words W0 to W4 (Table 2.1). -/
def Token.words (t : Token) : List Word32 :=
  [pack [(16, 16, t.context.toNat), (4, 12, t.iteration.toNat), (2, 2, t.port.toNat), (0, 2, t.kind.toNat)],
   pack [(12, 20, t.node.toNat), (9, 3, t.cls.toNat), (8, 1, b2n t.ordered), (7, 1, b2n t.poison)],
   pack [(16, 16, t.sequence.toNat), (4, 12, t.flow.toNat)], t.value.setWidth 32, (t.value >>> 32).setWidth 32]

/-- The token of an emission, sent at once or delayed. -/
def Emission.token : Emission → Token
  | .now t => t
  | .delayed d => d.token

/-! ## Counting (R99, R100, R165) -/

/-- A firing of a context reached END or trapped (R165). -/
def Blade.activity (b : Blade) (c : Nat) : Blade :=
  b.modCtx c fun x => { x with lastActive := b.frame, reported := false }

/-- DRAINING with a balance of zero becomes CLOSED (R84, R93). -/
def Blade.zeroTest (b : Blade) (c : Nat) : Blade :=
  let x := b.ctx c
  if x.state = .draining && x.balance = 0 then
    b.setCtx c { x with state := .closed, closeFrame := b.frame, changed := true }
  else b

/-- The sum of a class gains a value. -/
def addClass (l : List Word64) (cls : BitVec 3) (v : Word64) : List Word64 :=
  (List.range 4).map fun i => l.getD i 0 + (if i + 1 = cls.toNat then v else 0)

/-! ## The audit trail (R105, R658) -/

/-- The 32 bytes of a trail record (Table 2.9). -/
def TrailRecord.bytes (r : TrailRecord) : List Byte :=
  let hw := 0xFF00 ≤ r.reason.toNat
  leBytes 4 r.frame.toNat ++ leBytes 2 r.context.toNat ++ leBytes 2 r.reason.toNat ++
    leBytes 4 (r.node.toNat + r.cls.toNat * 2 ^ 20 + b2n hw * 2 ^ 23) ++ leBytes 4 r.iteration.toNat ++
    leBytes 8 r.value.toNat ++ leBytes 8 r.sequence.toNat

/-- Waiting records enter queue 8,192 in order while it takes them (R658), each as a packet of its own frame (R105). -/
def drainTrail : List TrailRecord → Blade → List TrailRecord × Blade
  | [], b => ([], b)
  | r :: rs, b =>
    match ({ b with frame := r.frame }).writePacket .ledger 8192 r.bytes with
    | some b' => drainTrail rs { b' with frame := b.frame }
    | none => (r :: rs, b)

def Blade.drainTrail (b : Blade) : Blade :=
  let d := Machine.drainTrail b.led.trail b
  { d.2 with led.trail := d.1 }

/-- The trail buffer of 256 records is full, and nothing that would form a record is accepted (R658). The records of one piece
of work accepted before that all join the buffer. -/
def Blade.trailFull (b : Blade) : Bool := 256 ≤ b.led.trail.length

/-- The trail buffer holds up work on tokens that would form a record of one of them. -/
def Blade.trailHolds (b : Blade) (ts : List Token) : Bool := b.trailFull && ts.any fun t => 1 ≤ t.cls.toNat && t.cls.toNat ≤ 4

/-- Forms one trail record of a context. -/
def Blade.trail (b : Blade) (c : Nat) (reason : Nat) (node : BitVec 20) (cls : BitVec 3) (iter : BitVec 12)
    (value : Word64) : Blade :=
  let x := b.ctx c
  let r : TrailRecord :=
    { frame := b.frame, context := BitVec.ofNat 16 c, reason := BitVec.ofNat 16 reason, node := node, cls := cls,
      iteration := iter, value := value, sequence := x.trailSeq }
  let b := b.setCtx c { x with trailSeq := x.trailSeq + 1, changed := true }
  { b with led.trail := b.led.trail ++ [r] }.drainTrail

def reasonTRAP : Nat := 0xFF01
def reasonPOISON : Nat := 0xFF02
def reasonCANCEL : Nat := 0xFF03
def reasonDISCARD : Nat := 0xFF04

/-! ## The home channel (R118 to R127) -/

/-- A physical tile that a tiling entry names (R126). -/
def Blade.tiling (b : Blade) (i : Nat) : Nat := mget 0 i b.net.tiling

/-- `home_index` of R125. -/
def homeIndex (node context : Nat) : Nat :=
  let x := node ^^^ (context * 16 % 2 ^ 20)
  (bits x 0 8) ^^^ (bits x 8 8) ^^^ (bits x 16 4)

/-- Ports other than the tiles' look a descriptor up in the shared cache; whether it misses, which TNET_DESC_MISS counts, is a
free value (Table 3.16). -/
def Blade.sharedLookup (b : Blade) (port : Nat) : Blade :=
  if port < 34 then b
  else
    let d := b.draw 2
    d.2.count64 (rTNET + 0x18) d.1

/-- The home tile of a token sent from a port (R125). -/
def Blade.homeTile (b : Blade) (m : Memory) (port : Nat) (t : Token) : Nat × Blade :=
  let d := m.desc (b.slotOf t.context.toNat) t.node.toNat
  let b := b.sharedLookup port
  if d.placement = 1 then (b.tiling d.pin, b)
  else if d.placement = 2 then
    let r := mget (0 : BitVec 8) port b.net.rotors
    (b.tiling r.toNat, { b with net.rotors := mput 0 port (r + 1) b.net.rotors })
  else (b.tiling (homeIndex t.node.toNat t.context.toNat), b)

/-- A word's parity is inverted by an armed injection as it is sent (R543, Table 12.8). -/
def Blade.parityInjected (b : Blade) (t : Token) : Token × Blade :=
  if b.armed srcTagParity 1 then ({ t with parityBad := t.parityBad ||| 1 }, b.useInjection srcTagParity)
  else if b.armed srcValueParity 1 then ({ t with parityBad := t.parityBad ||| 8 }, b.useInjection srcValueParity)
  else (t, b)

/-- A token crosses the crossbar from a port, whose input checks it (R118, R60, R123). -/
def Blade.cross (b : Blade) (port : Nat) (t : Token) : Token × Blade :=
  let p := b.parityInjected t
  let b := p.2.count64 (rTNET + 0x800 + 8 * port)
  if p.1.tagBad then (p.1, b.raiseFree srcTagParity)
  else if p.1.valueBad then ({ p.1 with poison := true, parityBad := 0 }, b.raiseFree srcValueParity)
  else (p.1, b)

/-- The redirect barrier holds tokens for the retiring tile at their senders (Table 3.6 step 2). -/
def Blade.barred (b : Blade) (tile : Nat) : Bool := b.net.migration.any fun g => g.barrier && g.source.val = tile

/-- Puts a token on the home channel of a tile. -/
def Blade.deliver (b : Blade) (port tile : Nat) (t : Token) : Blade :=
  if b.barred tile then { b with net.barrierHeld := b.net.barrierHeld ++ [(port, t)] }
  else
    let p := b.cross port t
    { p.2 with net.home := mput [] tile (mget [] tile p.2.net.home ++ [p.1]) p.2.net.home }

/-- Puts a token on the emission channel to the release unit or the delay unit (R119, R120). -/
def Blade.emitOrdered (b : Blade) (port : Nat) (t : Token) : Blade :=
  let p := b.cross port t
  { p.2 with net.release := p.2.net.release ++ [.emission p.1] }

def Blade.emitDelayed (b : Blade) (port : Nat) (r : DelayRequest) : Blade :=
  let p := b.cross port r.token
  { p.2 with net.delayIn := p.2.net.delayIn ++ [{ r with token := p.1 }] }

/-! ## Retirement of sequences (R278) -/

/-- A unit retires the sequence of an ordered token: its marker goes to the release unit. -/
def Blade.retireSequence (b : Blade) (flow : BitVec 12) (sequence : BitVec 16) : Blade :=
  { b with net.release := b.net.release ++ [.marker flow sequence] }

def Blade.retireOf (b : Blade) (t : Token) : Blade := if t.ordered then b.retireSequence t.flow t.sequence else b

/-! ## Cancellation and discard (R92, R96, R112, R113, R657) -/

/-- A token of a context counts as cancelled. -/
def Blade.cancelToken (b : Blade) (t : Token) : Blade :=
  let c := t.context.toNat
  let b := b.modCtx c fun x => { x with cancelled := x.cancelled + 1, balance := x.balance - 1, changed := true }
  let b := if audited t.cls then
      (b.modCtx c fun x => { x with cancelSum := addClass x.cancelSum t.cls t.value }).trail c reasonCANCEL t.node t.cls
        t.iteration t.value
    else b
  (b.retireOf t).zeroTest c

def discardRESERVED : Nat := 1
def discardNO_NODE : Nat := 2
def discardBAD_PORT : Nat := 3
def discardNO_CONTEXT : Nat := 4
def discardLOST_STORAGE : Nat := 5
def discardDESC_LOST : Nat := 6
def discardRECORD_LOST : Nat := 7
def discardEXC : Nat := 8

/-- The control token of an event to a context's exception node, counted in; none where R656 or R114 forms none. Returned for
its sender. -/
def Blade.controlToken (b : Blade) (c event detail count : Nat) : Option (Token × Blade) :=
  let x := b.ctx c
  if x.state = .free || x.state = .closed || (x.state = .draining && x.causeCancel) then none
  else
    let t := { Token.data c 0 0 x.excNode (BitVec.ofNat 64 (event % 2 ^ 16 + detail % 2 ^ 16 * 2 ^ 16 +
      count % 2 ^ 32 * 2 ^ 32)) with kind := 2 }
    some (t, b.countIn c)

/-- A discard of a token counted into its context (R112), its flow's sequence retired (R278). -/
def Blade.discardCounted (b : Blade) (t : Token) (reason : Nat) (readable : Bool) : Blade :=
  let c := t.context.toNat
  let x := b.ctx c
  let b := b.retireOf t
  if x.recordLost || x.balance = 0 then b.unattributed
  else
    let b := b.setCtx c { x with discarded := x.discarded + 1, balance := x.balance - 1, changed := true,
                                 frameDiscards := x.frameDiscards + 1,
                                 frameReason := if x.frameDiscards = 0 then BitVec.ofNat 16 reason else x.frameReason }
    let b := b.count64 (rCTX + 0x48)
    if audited t.cls && readable then
      (b.modCtx c fun x => { x with discardSum := addClass x.discardSum t.cls t.value }).trail c reasonDISCARD t.node
        t.cls t.iteration t.value
    else b

/-- The trail buffer holds up a token whose node is past the image, so that its sending would discard it (R124, R658). -/
def Blade.homeHolds (b : Blade) (m : Memory) (t : Token) : Bool :=
  b.trailHolds [t] && m.nodeCount (b.slotOf t.context.toNat) ≤ t.node.toNat

/-- Sends a counted token on the home channel from a port; a node past the image discards it (R124). -/
def Blade.sendHome (b : Blade) (m : Memory) (port : Nat) (t : Token) : Blade :=
  if m.nodeCount (b.slotOf t.context.toNat) ≤ t.node.toNat then
    (b.discardCounted t discardNO_NODE true).zeroTest t.context.toNat
  else
    let h := b.homeTile m port t
    h.2.deliver port h.1 t

/-- Allocates a flow's next sequence (R276) for a token. -/
def Blade.allocate (b : Blade) (f : Nat) (t : Token) : Token × Blade :=
  let v := b.flow f
  ({ t with ordered := true, flow := BitVec.ofNat 12 f, sequence := v.next }, b.setFlow f { v with next := v.next + 1 })

/-- A flow's limit of 4,096 outstanding sequences (R277). -/
def Blade.flowFull (b : Blade) (f : Nat) : Bool := 4096 ≤ ((b.flow f).next - (b.flow f).head).toNat

/-- The first token at port 44 leaves, unless its flow is at its limit (R277); that of a cancelled context is cancelled. -/
def Blade.send44 (b : Blade) (m : Memory) : Blade :=
  match b.net.port44 with
  | [] => b
  | i :: rest =>
    let gone := { b with net.port44 := rest }
    let x := b.ctx i.token.context.toNat
    if (x.state = .draining && x.causeCancel && b.trailHolds [i.token]) || b.homeHolds m i.token then b
    else if x.state = .draining && x.causeCancel then gone.cancelToken i.token
    else
      match i.flow with
      | some f =>
        if b.flowFull f.toNat then b
        else
          let a := gone.allocate f.toNat i.token
          a.2.sendHome m 44 a.1
      | none => gone.sendHome m 44 i.token

/-- Port 44 sends its waiting tokens in the order they were formed (R119). -/
def Blade.turn44 (b : Blade) (m : Memory) : Blade := times b.net.port44.length (fun b => b.send44 m) b

/-- Forms and sends a control token from a port. -/
def Blade.sendControl (b : Blade) (m : Memory) (port c event detail count : Nat) : Blade :=
  match b.controlToken c event detail count with
  | some (t, b) =>
    if port = 44 then
      ({ b with net.port44 := b.net.port44 ++ [{ token := t, flow := none, notice := none }] } : Blade).turn44 m
    else b.sendHome m port t
  | none => b

/-- A context's record is written in the context cache: an armed injection damages a word of it (Table 12.8). -/
def Blade.hurtCtx (b : Blade) (c : Nat) : Blade :=
  if b.armed (srcWide 1 2) 1 then (b.useInjection (srcWide 1 2)).modCtx c fun x => { x with hurt := .single }
  else if b.armed (srcWide 1 3) 1 then (b.useInjection (srcWide 1 3)).modCtx c fun x => { x with hurt := .uncorrectable }
  else b

/-- A context's record is read: a corrected error is counted, and one that cannot be corrected destroys it (R96), whose context is
told so the first time it becomes DAMAGED (R114). -/
def Blade.checkCtx (b : Blade) (m : Memory) (c : Nat) : Blade :=
  let x := b.ctx c
  if x.hurt = .sound then b
  else
    let b := b.setCtx c { x with hurt := .sound }
    if x.hurt = .single then b.windowEvent (srcWide 1 2)
    else if x.recordLost || x.state = .free then b
    else
      let b := b.modCtx c fun x => { x with
        state := .damaged, damagedBit := true, told := true, damage := BitVec.allOnes 32, changed := true }
      let b := if x.told then b else b.sendControl m 44 c 2 0 0xFFFFFFFF
      let k := b.draw (2 ^ 48)
      let d := k.2.locDetail k.1 0
      d.2.raiseWith { Assertion.plain (srcWide 1 3) with context := some (BitVec.ofNat 16 c), detail := d.1 }

/-- Adds a loss to a context (R113, R84): LIVE becomes DAMAGED, and the first time sends one control token (R114).
DESIGN CHOICE (log 81): below the mark of a destroyed record the count stops at 0xFFFF_FFFE. -/
def Blade.addDamage (b : Blade) (m : Memory) (c n : Nat) : Blade :=
  let x := b.ctx c
  if x.recordLost then b
  else
    let y := { x with damage := BitVec.ofNat 32 (min (x.damage.toNat + n) 0xFFFFFFFE), changed := true }
    if x.state = .live then
      let b := (b.setCtx c { y with state := .damaged, damagedBit := true, told := true }).hurtCtx c
      if x.told then b else b.sendControl m 44 c 2 0 y.damage.toNat
    else if x.state = .damaged || x.state = .draining then (b.setCtx c { y with damagedBit := true }).hurtCtx c
    else (b.setCtx c y).hurtCtx c

/-- Discards a token with a reason (R112, R113). DESIGN CHOICE (log 81): the value of a poisoned token counts as readable, so it
is summed and recorded; that of a LOST_STORAGE alone is not. -/
def Blade.discard (b : Blade) (m : Memory) (t : Token) (reason : Nat) : Blade :=
  let c := t.context.toNat
  let b := b.discardCounted t reason (reason ≠ discardLOST_STORAGE)
  let b := if reason = discardLOST_STORAGE then b.addDamage m c 1 else b
  b.zeroTest c

/-- A token that hardware forms and sends from a port of its own (R655): counted in and delivered, cancelled, or discarded. -/
def Blade.injectAt (b : Blade) (m : Memory) (port : Nat) (t : Token) : Blade :=
  let c := t.context.toNat
  let x := b.ctx c
  if x.state = .free || x.state = .closed then (b.retireOf t).unattributed
  else
    let b := b.countIn c
    if x.state = .draining && x.causeCancel then b.cancelToken t else b.sendHome m port t

/-- A token that the command engine injects (R486): it waits its turn at port 44. One of a context that is gone is discarded,
its sequence retired (R655, R278). -/
def Blade.inject (b : Blade) (m : Memory) (t : Token) : Blade :=
  let c := t.context.toNat
  let b := if (b.ctx c).state = .free || (b.ctx c).state = .closed then b.retireOf t else b
  (b.form44 { token := t, flow := none, notice := none }).turn44 m

/-- What a unit does with a token it receives before its own work (R60, R63, R96, R92): a tag parity error stops it there,
a value parity error poisons it, a reserved form and a lost record discard it, a cancelled context cancels it. -/
inductive Received where
  | stopped (b : Blade)
  | gone (b : Blade)
  | taken (t : Token) (b : Blade)

def Blade.receive (b : Blade) (m : Memory) (t : Token) : Received :=
  if t.tagBad then .stopped (b.raiseFree srcTagParity)
  else
    let b := if t.valueBad then b.raiseFree srcValueParity else b
    let t := { t with poison := t.poison || t.valueBad, parityBad := 0 }
    let x := b.ctx t.context.toNat
    if t.reserved then .gone ((b.raise srcReserved).discard m t discardRESERVED)
    else if x.recordLost then .gone (b.discard m t discardRECORD_LOST)
    else if x.state = .draining && x.causeCancel then .gone (b.cancelToken t)
    else .taken t b

/-- What `receive` does with a token forms a trail record (R657, R112). -/
def Blade.receiveForms (b : Blade) (t : Token) : Bool :=
  let x := b.ctx t.context.toNat
  audited t.cls && !x.recordLost && (t.reserved || (x.state = .draining && x.causeCancel))

/-! ## The release unit (R274 to R284, R298, R660) -/

/-- Entries of the reorder buffer that hold tokens, of the 544 or not. -/
def Blade.robHeld (b : Blade) (ofHeads : Bool) : Nat :=
  msum (fun f : Flow => (f.held.filter (·.ofHeads = ofHeads)).length) b.ord.flows

/-- Reserved entries not yet filled. -/
def Blade.robBooked (b : Blade) (ofHeads : Bool) : Nat :=
  msum (fun f : Flow => (f.booked.map fun e => if e.2.ofHeads = ofHeads then e.2.left else 0).sum) b.ord.flows

/-- Reserves 16 entries for a sequence (R279, R298): none where too few remain. -/
def Blade.reserve (b : Blade) (f : Nat) (s : BitVec 16) (ofHeads : Bool) : Option Blade :=
  let room := if ofHeads then 544 else 7648
  if b.robHeld ofHeads + b.robBooked ofHeads + 16 ≤ room then
    let v := b.flow f
    some (b.setFlow f { v with booked := v.booked ++ [(s, { left := 16, ofHeads := ofHeads })] })
  else none

/-- A released token goes home unordered (R282). -/
def Blade.releaseHome (b : Blade) (m : Memory) (t : Token) : Blade :=
  b.sendHome m 43 { t with ordered := false, sequence := 0, flow := 0 }

/-- The sequence is outstanding in its flow and not yet retired (R284). -/
def Flow.outstanding (v : Flow) (s : BitVec 16) : Bool :=
  (s - v.head).toNat < (v.next - v.head).toNat && !v.retired.contains s

/-- A flow slot that its context gave up joins the free list once it holds nothing (R275). -/
def Blade.reapFlow (b : Blade) (f : Nat) : Blade :=
  let v := b.flow f
  if v.closing && v.held.isEmpty then
    { b.setFlow f { v with closing := false, owned := false, owner := 0 } with ord.free := b.ord.free.give f }
  else b

/-- Entries of the reorder buffer in the order in which they leave once the unit sends: those due, then the others. -/
def Flow.markDue (v : Flow) (h : BitVec 16) : Flow :=
  let due := v.held.filter (·.due)
  let rest := v.held.filter (!·.due)
  { v with held := due ++ ((rest.filter (·.token.sequence = h)).map fun e => { e with due := true }) ++
             rest.filter (·.token.sequence ≠ h) }

/-- Due entries leave in order, up to one that the trail buffer holds up (R658): a cancelled one is a placeholder and goes unsent
(R282, R283). -/
def Blade.sendHeld (m : Memory) (f : Nat) : List HeldToken → Blade → Blade
  | [], b => b
  | e :: es, b =>
    if !e.cancelled && b.homeHolds m e.token then
      b.setFlow f { b.flow f with held := (e :: es) ++ (b.flow f).held }
    else Blade.sendHeld m f es (if e.cancelled then b else b.releaseHome m e.token)

/-- A flow's due entries leave. -/
def Blade.sendDue (b : Blade) (m : Memory) (f : Nat) : Blade :=
  let v := b.flow f
  Blade.sendHeld m f (v.held.filter (·.due)) (b.setFlow f { v with held := v.held.filter (!·.due) })

/-- The head passes one retired sequence, and the held tokens of the new head leave (R282), or are due at the HOIST of a struck
unit (R298). -/
def Blade.headStep (b : Blade) (m : Memory) (f : Nat) : Blade :=
  let v := b.flow f
  if v.retired.contains v.head then
    let h := v.head + 1
    let b := b.setFlow f (({ v with head := h, retired := v.retired.filter (· ≠ v.head) } : Flow).markDue h)
    if b.struck fnRelease then b else b.sendDue m f
  else b

/-- The head of a flow passes every retired sequence at it. -/
def Blade.advanceHead (b : Blade) (m : Memory) (f : Nat) : Blade :=
  (times (b.flow f).retired.length (fun b => b.headStep m f) b).reapFlow f

/-- An emission of its flow's head waits behind due entries that the trail buffer holds up, or is held up itself (R658). -/
def Blade.emissionHolds (b : Blade) (m : Memory) (t : Token) : Bool :=
  let v := b.flow t.flow.toNat
  t.sequence = v.head && !b.struck fnRelease && (b.homeHolds m t || (b.trailFull && v.held.any (·.due)))

/-- The release unit receives an emission (R282, R660). -/
def Blade.onEmission (b : Blade) (m : Memory) (t : Token) : Blade :=
  let f := t.flow.toNat
  let v := b.flow f
  if t.sequence = v.head && !b.struck fnRelease then b.releaseHome m t
  else
    match v.booked.find? (fun e => e.1 = t.sequence && 0 < e.2.left) with
    | some e =>
      let h : HeldToken := { token := t, cancelled := false, ofHeads := e.2.ofHeads, due := false }
      let w := { v with held := v.held ++ [h] }
      b.setFlow f { (if t.sequence = v.head then w.markDue v.head else w) with
        booked := modFirst (fun x => x.1 = t.sequence && 0 < x.2.left)
          (fun x => (x.1, { x.2 with left := x.2.left - 1 })) v.booked }
    | none => b.raise srcFlowSeq

/-- The release unit receives a retire marker (R282, R284). -/
def Blade.onRetire (b : Blade) (m : Memory) (flow : BitVec 12) (s : BitVec 16) : Blade :=
  let f := flow.toNat
  let v := b.flow f
  if v.outstanding s then
    (b.setFlow f { v with retired := v.retired ++ [s], booked := v.booked.filter (·.1 ≠ s) }).advanceHead m f
  else b.raise srcFlowSeq

/-- The release unit sends what is due: at its HOIST (R298), and once the trail buffer has room (R658). -/
def Blade.hoistRelease (b : Blade) (m : Memory) : Blade :=
  let fs := mkeys (fun _ (v : Flow) => v.held.any (·.due)) b.ord.flows
  fs.foldl (fun b f => (b.sendDue m f).reapFlow f) b

/-- Held tokens to a cancelled context count as cancelled in its cycle and stay as placeholders (R283). -/
def Blade.cancelHeld (b : Blade) (c : Nat) : Blade :=
  let fs := mkeys (fun _ (v : Flow) => v.held.any fun e => !e.cancelled && e.token.context.toNat = c) b.ord.flows
  fs.foldl (fun b f =>
    let v := b.flow f
    let mine := v.held.filter fun e => !e.cancelled && e.token.context.toNat = c
    let b := b.setFlow f { v with held := v.held.map fun e =>
      if e.token.context.toNat = c then { e with cancelled := true } else e }
    mine.foldl (fun b e => b.cancelToken { e.token with ordered := false }) b) b

/-! ## Parking: what any unit holds for a context being parked (R174, R176) -/

/-- A context is being parked, its tokens captured on arrival. -/
def Blade.capturing (b : Blade) (c : Nat) : Bool :=
  match b.led.parking with
  | some p => p.context.toNat = c && !p.unparking
  | none => false

/-- A context is being unparked, its tokens held on arrival (R184). -/
def Blade.unparking (b : Blade) (c : Nat) : Bool :=
  match b.led.parking with
  | some p => p.context.toNat = c && p.unparking
  | none => false

def ParkImage.init : ParkImage :=
  { parkFrame := 0, flowNext := 0, records := [], written := 0, reserved := 0, stored := false, final := false }

def Blade.image (b : Blade) (c : Nat) : ParkImage := mget ParkImage.init c b.led.parked

def Blade.setImage (b : Blade) (c : Nat) (v : ParkImage) : Blade :=
  { b with led.parked := mput ParkImage.init c v b.led.parked }

/-- Bytes of park staging in use: records not yet in the parked region (R178). -/
def Blade.stagingUsed (b : Blade) : Nat := msum (fun v : ParkImage => 32 * (v.records.length - v.written)) b.led.parked

/-- Park staging has no room for n more records, and capture pauses (R178, R180). -/
def Blade.stagingShort (b : Blade) (n : Nat) : Bool := 0x10000000 < b.stagingUsed + 32 * n

def Blade.stagingFull (b : Blade) : Bool := b.stagingShort 1

/-- A token for a context being parked or PARKED finds no room, or must not overtake what capture has left (R175, R178, R180). -/
def Blade.captureWaits (b : Blade) (c : Nat) : Bool :=
  b.stagingFull || (b.capturing c && b.led.parking.any (·.paused))

/-- Appends a parked-token record to a context's image (R174). -/
def Blade.capture (b : Blade) (t : Token) (location list remaining : Nat) : Blade :=
  let c := t.context.toNat
  let v := b.image c
  b.setImage c { v with records := v.records ++
    [{ token := t, location := BitVec.ofNat 8 location, list := BitVec.ofNat 8 list,
       remaining := BitVec.ofNat 32 remaining, frame := b.frame }] }

/-- The carriers (R584). -/
def Carrier.init : Carrier := { state := .absent, present := false, link := false, capacity := 0, written := 0 }

def Blade.carrier (b : Blade) (k : Nat) : Carrier := mget Carrier.init k b.hw.carriers

def Blade.setCarrier (b : Blade) (k : Nat) (v : Carrier) : Blade :=
  { b with hw.carriers := mput Carrier.init k v b.hw.carriers }

/-- Some carrier is in service. -/
def Blade.anyCarrier (b : Blade) : Bool := (b.carrier 0).state = .inService || (b.carrier 1).state = .inService

/-- The bytes of an image of n records, padded (R177). -/
def imageBytes (n : Nat) : Nat := (384 + 32 * n + 4095) / 4096 * 4096

/-- The 4,096-byte block of an image that holds record i. -/
def recordBlock (i : Nat) : Nat := (320 + 32 * i) / 4096

/-- A parked image is read: its blocks that cannot be read (R185). Records still in staging need no carrier. Whether a carrier
in service can read a block is a free value. -/
def Blade.readImage (b : Blade) (v : ParkImage) : List Nat × Blade :=
  let n := imageBytes v.written / 4096
  if !v.stored then ([], b)
  else if !b.anyCarrier then (List.range n, b)
  else
    (List.range n).foldl (fun r k =>
      let d := r.2.draw 2
      (if d.1 = 1 then r.1 ++ [k] else r.1, d.2)) ([], b)

/-- Record i of an image was read. -/
def ParkImage.readable (v : ParkImage) (lost : List Nat) (i : Nat) : Bool := v.written ≤ i || !lost.contains (recordBlock i)

/-- Neither copy of an image's header was read (R185). -/
def ParkImage.headless (v : ParkImage) (lost : List Nat) : Bool :=
  v.stored && lost.contains 0 && lost.contains (imageBytes v.written / 4096 - 1)

def srcParkRead : Nat := srcWide 2 4

/-- The records of an image that were not read. -/
def ParkImage.lostCount (v : ParkImage) (lost : List Nat) : Nat :=
  (v.records.zipIdx.filter fun x => !v.readable lost x.2).length

/-- An image was read: lost records are reported (R185, R45). -/
def Blade.reportLost (b : Blade) (v : ParkImage) (lost : List Nat) : Blade :=
  if v.lostCount lost = 0 then b else b.raise srcParkRead

/-- Parked-token records are cancelled with their context (R657, Table 2.7). -/
def Blade.cancelParked (b : Blade) (m : Memory) (c : Nat) : Blade :=
  let v := b.image c
  let r := b.readImage v
  let b := (r.2.reportLost v r.1).setImage c ParkImage.init
  (v.records.zipIdx).foldl (fun b x =>
    if v.readable r.1 x.2 then b.cancelToken x.1.token else b.discard m x.1.token discardLOST_STORAGE) b

/-! ## CLOSE and CANCEL (R84, R91, R92, R181) -/

/-- CLOSE of a context (Table 2.7): whether its state changed. The zero test follows. -/
def Blade.closeContext (b : Blade) (c : Nat) : Bool × Blade :=
  let x := b.ctx c
  if (x.state = .live || x.state = .damaged) && !x.recordLost then
    (true, (b.setCtx c { x with state := .draining, causeCancel := false, changed := true }).hurtCtx c)
  else (false, b)

/-- CANCEL of a context (Table 2.7, R181): whether its state changed. The zero test follows. -/
def Blade.cancelContext (b : Blade) (m : Memory) (c : Nat) : Bool × Blade :=
  let x := b.ctx c
  if x.recordLost then (false, b)
  else if x.state = .live || x.state = .damaged || (x.state = .draining && !x.causeCancel) then
    let was := b.capturing c
    let b := (b.setCtx c { x with state := .draining, causeCancel := true, changed := true }).hurtCtx c
    let b := b.cancelHeld c
    let b := if was then { b.cancelParked m c with led.parking := none } else b
    (true, b)
  else if x.state = .parked then
    let b := b.cancelParked m c
    let held := match b.led.parking with
      | some p => if p.unparking && p.context.toNat = c then p.waiting else []
      | none => []
    let kept := b.led.parking.map fun p : Parking => if p.context.toNat = c then { p with waiting := [] } else p
    let b := { b with led.parking := kept }
    let b := held.foldl (fun b e => b.cancelToken e.token) b
    (true, b.modCtx c fun x => { x with state := .closed, closeFrame := b.frame, changed := true })
  else (false, b)

/-! ## Frames -/

/-- CLOSED contexts of frames up to n return to FREE, and their flow slots with them (R94, R275). DESIGN CHOICE (log 81):
those that one commit frees join the free list's tail in ascending number. -/
def Blade.ledgerCommit (b : Blade) (n : Word32) : Blade :=
  let cs := mkeys (fun _ (x : Ctx) => x.state = .closed && frameLe x.closeFrame n) b.led.contexts
  cs.foldl (fun b c =>
    let x := b.ctx c
    let b := b.setCtx c { x with state := .free, damagedBit := false, flow := none }
    let b := { b with led.free := b.led.free.give c }
    match x.flow with
    | some f => (b.setFlow f.toNat { b.flow f.toNat with closing := true }).reapFlow f.toNat
    | none => b) b

/-- R99 for one context. -/
def Ctx.balanced (x : Ctx) : Bool :=
  x.tokensIn = x.consumed + x.cancelled + x.discarded + BitVec.ofNat 64 x.balance.toNat

/-- Presence bits of an entry as a count of tokens. -/
def presenceCount (p : BitVec 3) : Nat := b2n (p.getLsbD 0) + b2n (p.getLsbD 1) + b2n (p.getLsbD 2)

/-- Tokens that wait in the tiles and their matching sets. -/
def Tile.census (t : Tile) : Nat :=
  (t.ready.map fun e => e.tokens.length).sum + (t.firing.map fun f => f.inputs.length).getD 0 +
    (t.reruns.map fun f => f.inputs.length).sum + t.waiting.length

def MatchSet.census (s : MatchSet) : Nat :=
  ((s.ways ++ s.stack).map fun e => presenceCount e.presence).sum +
    (match s.lock with
     | some (.search _) => 1
     | _ => 0)

/-- Tokens in flight in the network (R289, Table 3.15). -/
def Blade.inflight (b : Blade) : Nat :=
  msum (fun l : List Token => l.length) b.net.home +
    (b.net.release.filter fun r => match r with
      | .emission _ => true
      | .marker _ _ => false).length + b.net.delayIn.length + b.net.port44.length + b.net.barrierHeld.length

/-- CTX_CENSUS: the tokens that the holding units report at a tick (R106). -/
def Blade.census (b : Blade) : Nat :=
  b.inflight + msum Tile.census b.net.tiles + msum MatchSet.census b.net.sets +
    msum (fun d : DelayList => d.onChip.length + d.overflow.length + d.hold.length) b.ord.delays +
    msum (fun f : Flow => (f.held.filter (!·.cancelled)).length) b.ord.flows +
    msum (fun v : ParkImage => v.records.length) b.led.parked +
    (b.led.parking.map fun p => p.waiting.length).getD 0

def Blade.balanceSum (b : Blade) : Nat := msum (fun x : Ctx => x.balance.toNat) b.led.contexts

/-- A context with a destroyed record exists (R107). -/
def Blade.censusSuspended (b : Blade) : Bool := b.led.contexts.any fun e => e.2.recordLost

/-- The ledger auditor reads every damaged record at a tick. -/
def Blade.checkContexts (b : Blade) (m : Memory) : Blade :=
  (mkeys (fun _ (x : Ctx) => x.hurt ≠ .sound) b.led.contexts).foldl (fun b c => b.checkCtx m c) b

/-- The ledger auditor at a tick (R106, R107). -/
def Blade.ledgerAudit (b : Blade) : Blade :=
  let bad := mkeys (fun _ (x : Ctx) => x.changed && !x.balanced) b.led.contexts
  let b := bad.foldl (fun b c =>
    let x := b.ctx c
    b.raiseWith { Assertion.plain (srcWide 1 0) with
      context := some (BitVec.ofNat 16 c),
      detail := (BitVec.ofNat 32 x.tokensIn.toNat,
                 BitVec.ofNat 32 (x.consumed + x.cancelled + x.discarded).toNat + x.balance, BitVec.ofNat 32 c) }) b
  let suspended := b.censusSuspended
  let sum := b.balanceSum
  let cen := b.census
  let ok := suspended || sum = cen
  let b := (b.setPair64 (rCTX + 0x30) cen).setReg (rCTX + 0x20) (pack [(0, 1, b2n ok)])
  if ok then b
  else b.raiseWith { Assertion.plain (srcWide 1 1) with detail := (BitVec.ofNat 32 sum, BitVec.ofNat 32 cen, 0) }

/-- The contexts that had discards in the frame that ends, each with the first reason and the count (R114). -/
def Blade.discardsOf (b : Blade) : List (Nat × Nat × Nat) :=
  (mkeys (fun _ (x : Ctx) => 0 < x.frameDiscards) b.led.contexts).map fun c =>
    (c, (b.ctx c).frameReason.toNat, (b.ctx c).frameDiscards)

/-- As a frame ends, its counts begin anew (R114, R269). -/
def Blade.newCounts (b : Blade) : Blade :=
  let ds := mkeys (fun _ (x : Ctx) => 0 < x.frameDiscards || 0 < x.usage || x.overran) b.led.contexts
  ds.foldl (fun b c => b.modCtx c fun x => { x with usage := 0, overran := false, frameDiscards := 0, frameReason := 0 }) b

/-- The records that the auditor has gone through count as unchanged. -/
def Blade.auditDone (b : Blade) : Blade :=
  (mkeys (fun _ (x : Ctx) => x.changed) b.led.contexts).foldl (fun b c => b.modCtx c fun x => { x with changed := false }) b

/-- One DISCARD token to each context that had discards in the ended frame (R114). -/
def Blade.frameTokens (b : Blade) (m : Memory) (ended : List (Nat × Nat × Nat)) : Blade :=
  ended.foldl (fun b e => b.sendControl m 44 e.1 1 e.2.1 e.2.2) b.auditDone

/-- What ends every step: the collector takes its assertions and port 44 sends its tokens. -/
def Blade.settle (b : Blade) (m : Memory) : Blade := b.collect.turn44 m

end Sys2Proof.Machine
end

