-- ==== Sys2Proof/Machine/Firing.lean ====
section
/-! DEFINITION. Ready queues and dispatch, and the two ways a firing ends: END, which the ledger unit applies, and a trap
(chapters 2, 4 and 6). -/

namespace Sys2Proof.Machine

/-! ## Trap codes (Table 4.14) -/

def trapILLEGAL : Nat := 0x01
def trapMISALIGN : Nat := 0x02
def trapCSR_WIDTH : Nat := 0x03
def trapDIVZERO : Nat := 0x04
def trapAUDIT : Nat := 0x05
def trapQFULL : Nat := 0x06
def trapINSN_LIMIT : Nat := 0x07
def trapEMIT_LIMIT : Nat := 0x08
def trapADJ_LIMIT : Nat := 0x09
def trapADJ_ARG : Nat := 0x0A
def trapSEND_ARG : Nat := 0x0B
def trapDELAY_ARG : Nat := 0x0C
def trapDEAD_DEST : Nat := 0x0D
def trapCTX_DENIED : Nat := 0x0E
def trapCTX_ARG : Nat := 0x0F
def trapOPEN_ARG : Nat := 0x10
def trapOPEN_LIMIT : Nat := 0x11
def trapCTX_LIMIT : Nat := 0x12
def trapPOISON : Nat := 0x13
def trapBAD_TARGET : Nat := 0x14
def trapADDR : Nat := 0x15
def trapCAS_REGION : Nat := 0x16
def trapSEM_DENIED : Nat := 0x17
def trapSEM_ARG : Nat := 0x18
def trapQWIDTH : Nat := 0x19
def trapFETCH : Nat := 0x1A

/-! ## The end of a firing, whichever way it ends -/

def Blade.disarm (b : Blade) (p : Port) : Blade := { b with csr.arms := b.csr.arms.filter (· ≠ p) }

def Blade.arm (b : Blade) (p : Port) : Blade := { b.disarm p with csr.arms := b.csr.arms.filter (· ≠ p) ++ [p] }

def Blade.isArmed (b : Blade) (p : Port) : Bool := b.csr.arms.contains p

/-- A tile's firing ends with its tile cycles charged to its context (R269 to R273), those of a run that a retirement cut short
included; how many they are is a free value. -/
def Blade.charge (b : Blade) (m : Memory) (t : Nat) (f : Firing) : Blade :=
  let c := f.context.toNat
  let d := b.draw (2 ^ 32)
  let b := d.2.count64 (rSCHED + 0x400 + 8 * t) d.1
  let x := b.ctx c
  let usage := x.usage + f.spent + d.1
  let k := x.budget.toNat
  let limit := (b.reg (rSCHED + 0x20 + 4 * k)).toNat
  let b := b.setCtx c { x with usage := usage }
  if 0 < limit && limit < usage && !x.overran then
    let b := (b.modCtx c fun x => { x with overran := true }).count (rSCHED + 0x40 + 4 * k)
    if b.flag rSCHED 1 && b.net.budgetTokens < b.field rSCHED 8 8 then
      match b.controlToken c 0x20 k (min usage 0xFFFFFFFF) with
      | some (tok, b) => { b with net.budgetTokens := b.net.budgetTokens + 1 }.sendHome m t tok
      | none => b
    else b
  else b

/-- One input token leaves its context's balance as consumed (R100). -/
def Blade.consume (b : Blade) (c : Nat) : Blade :=
  b.modCtx c fun x => { x with consumed := x.consumed + 1, balance := x.balance - 1, changed := true }

def Blade.consumeAll (b : Blade) (c : Nat) (ts : List Token) : Blade := ts.foldl (fun b _ => b.consume c) b

/-- The tile has ended its firing: its arm is clear (R194), its sequence retired (R278), the frame has seen progress. -/
def Blade.closeFiring (b : Blade) (t : TileId) (f : Firing) : Blade :=
  let b := b.disarm (.tile t)
  let b := b.modTile t.val fun x => { x with firing := none }
  let b := match f.heldSequence with
    | some (fl, s) => b.retireSequence fl s
    | none => b
  { (b.activity f.context.toNat) with net.progressed := true }

/-! ## Traps (R108 to R111) -/

/-- The value of a trap token (Table 2.10). -/
def trapValue (f : Firing) (code : Nat) : Word64 :=
  BitVec.ofNat 64 (code + f.fps.toNat * 2 ^ 8 + f.executed % 2 ^ 13 * 2 ^ 16 + f.node.toNat * 2 ^ 32)

/-- The trap token to a context's exception node; a firing of that node itself sends it to context 0's, and one of context 0's
records an undeliverable discard (R109, R110). -/
def Blade.sendTrapToken (b : Blade) (m : Memory) (t : Nat) (f : Firing) (code : Nat) : Blade :=
  let c := f.context.toNat
  let own := f.node = (b.ctx c).excNode
  let tok := fun d : Nat => { Token.data d f.iteration 0 (b.ctx d).excNode (trapValue f code) with kind := 1 }
  if !own then b.injectAt m t (tok c)
  else if c = 0 then (b.countIn 0).discardCounted (tok 0) discardEXC true
  else b.injectAt m t (tok 0)

/-- The exact sum of the unpoisoned input values of a class. -/
def inputSum (ts : List Token) (cls : Nat) : Int :=
  (ts.map fun t => if t.cls.toNat = cls && !t.poison then t.value.toInt else 0).sum

/-- One TRAP record for each class whose sum of unpoisoned inputs is not zero, and trap_sum (R108). -/
def Blade.trapSums (b : Blade) (f : Firing) : Blade :=
  let c := f.context.toNat
  [1, 2, 3, 4].foldl (fun b k =>
    let s := inputSum f.inputs k
    if s = 0 then b
    else
      (b.modCtx c fun x => { x with trapSum := addClass x.trapSum (BitVec.ofNat 3 k) (ofInt64 s) }).trail c reasonTRAP
        f.node (BitVec.ofNat 3 k) f.iteration (ofInt64 s)) b

/-- The contexts and flow slots a firing took go back to the heads of their lists (R90). -/
def Blade.undoOpens (b : Blade) (f : Firing) : Blade :=
  let cs := f.opens.map (·.context.toNat)
  let fs := f.opens.filterMap fun o => o.flow.map (·.toNat)
  { b with led.free := b.led.free.restore cs, ord.free := b.ord.free.restore fs }

/-- A firing traps (R108). `poisoned` inputs are recorded as R111 gives; `damage` is what the trap adds to the context's
count (R111, R225). DESIGN CHOICE (log 81): its TRAP records, classes ascending, come before its POISON records. -/
def Blade.trap (b : Blade) (m : Memory) (t : TileId) (f : Firing) (code damage : Nat) : Blade :=
  let c := f.context.toNat
  let who := Requester.tile t
  let b := (b.rewindAll (.requester who) true).freeClaims who
  let b := b.undoOpens f
  let b := if damage = 0 then b else b.addDamage m c damage
  let b := b.sendTrapToken m t.val f code
  let b := b.trapSums f
  let b := f.inputs.foldl (fun b i =>
    if i.poison && audited i.cls then b.trail c reasonPOISON f.node i.cls f.iteration i.value else b) b
  let b := b.consumeAll c f.inputs
  let b := (b.count64 (rCTX + 0x40)).count (rTILE t.val + 0xC)
  let b := if code = trapAUDIT then b.count64 (rCTX + 0x38) else b
  let b := b.closeFiring t f
  (b.charge m t.val f).zeroTest c

/-! ## The audit check (R101, R102) -/

def auditClass (f : Firing) (expect : Nat) (k : Nat) : Bool :=
  let ins := f.inputs.filter (·.cls.toNat = k)
  let adjs := f.adjustments.filter (·.cls.toNat = k)
  let outs := (f.emissions.map Emission.token).filter (·.cls.toNat = k)
  let any := !ins.isEmpty || !adjs.isEmpty || !outs.isEmpty
  if expect = 0 && any then false
  else if expect = 1 && !adjs.isEmpty then false
  else (ins.map (·.value.toInt)).sum + (adjs.map (·.value.toInt)).sum = (outs.map (·.value.toInt)).sum

/-- The audit check of a firing (R101). -/
def auditPasses (f : Firing) (d : Desc) : Bool :=
  [1, 2, 3, 4].all fun k => auditClass f (d.expect.getD (k - 1) 0) k

/-! ## END (R98) -/

/-- OPEN takes effect (R85, R86). -/
def Blade.applyOpen (b : Blade) (m : Memory) (f : Firing) (o : OpenRequest) : Blade :=
  let x : Ctx := { Ctx.init with
    state := .live, slotB := o.slotB, flow := o.flow, excNode := o.exceptionNode,
    budget := BitVec.ofNat 3 (m.desc o.slotB o.exceptionNode.toNat).budget,
    stallLimit := BitVec.ofNat 32 (b.field (rCTX + 0x18) 0 16), parent := f.context, openFrame := b.frame,
    lastActive := b.frame, changed := true }
  let b := (b.setCtx o.context.toNat x).hurtCtx o.context.toNat
  match o.flow with
  | some fl => b.setFlow fl.toNat { Flow.init with owner := o.context, owned := true }
  | none => b

/-- One emission counts into its destination and leaves the tile (Table 2.8, R228, R229, R124). -/
def Blade.applyEmission (b : Blade) (m : Memory) (t : Nat) (f : Firing) (e : Emission) : Blade :=
  let tok := e.token
  let d := tok.context.toNat
  let x := b.ctx d
  if x.state = .free || x.state = .closed then
    let c := f.context.toNat
    let b := b.modCtx c fun y => { y with
      tokensIn := y.tokensIn + 1, discarded := y.discarded + 1, changed := true, frameDiscards := y.frameDiscards + 1,
      frameReason := if y.frameDiscards = 0 then BitVec.ofNat 16 discardNO_CONTEXT else y.frameReason }
    b.count64 (rCTX + 0x48)
  else
    let b := b.countIn d
    if x.state = .draining && x.causeCancel then b.cancelToken { tok with ordered := false }
    else if m.nodeCount (b.slotOf d) ≤ tok.node.toNat then
      (b.discardCounted { tok with ordered := false } discardNO_NODE true)
    else
      match e with
      | .delayed r => b.emitDelayed t r
      | .now _ => if tok.ordered then b.emitOrdered t tok else b.sendHome m t tok

/-- An adjustment takes effect (R104). -/
def Blade.applyAdj (b : Blade) (f : Firing) (a : Adjustment) : Blade :=
  let c := f.context.toNat
  (b.modCtx c fun x => { x with adjSum := addClass x.adjSum a.cls a.value, changed := true }).trail c a.reason.toNat f.node
    a.cls f.iteration a.value

/-- A CLOSE, CANCEL or PARK request takes effect (R91, R95, R98). -/
def Blade.applyRequest (b : Blade) (m : Memory) (r : ContextRequest) : Blade :=
  let c := r.context.toNat
  match r.kind with
  | .close => (b.closeContext c).2
  | .cancel => (b.cancelContext m c).2
  | .park =>
    if (b.ctx c).state = .live then { b with led.parkRequests := b.led.parkRequests ++ [(r.context, .codelet)] } else b

/-- An audited emission would fall into a context that is gone (Table 2.8), those that the firing opens not counting. -/
def Blade.deadDest (b : Blade) (f : Firing) : Bool :=
  f.emissions.any fun e =>
    let d := e.token.context
    audited e.token.cls && !(f.opens.any fun o => o.context = d) &&
      ((b.ctx d.toNat).state = .free || (b.ctx d.toNat).state = .closed)

/-- The contexts whose balance an END may have brought to zero. -/
def Firing.touched (f : Firing) : List Nat :=
  (f.context :: (f.emissions.map fun e => e.token.context) ++ f.requests.map (·.context)).map (·.toNat)

/-- The ledger unit applies a firing's END (R98): OPENs, emissions, consumption, ADJ, requests, zero tests.
DESIGN CHOICE (log 81): the charge of R270, with its BUDGET token, comes before the zero tests. -/
def Blade.applyEnd (b : Blade) (m : Memory) (t : TileId) (f : Firing) : Blade :=
  let c := f.context.toNat
  let who := Requester.tile t
  let b := b.checkCtx m c
  let b := f.opens.foldl (fun b o => b.applyOpen m f o) b
  let b := f.emissions.foldl (fun b e => b.applyEmission m t.val f e) b
  let b := b.consumeAll c f.inputs
  let b := f.adjustments.foldl (fun b a => b.applyAdj f a) b
  let b := f.requests.foldl (fun b r => b.applyRequest m r) b
  let b := b.hurtCtx c
  let b := (b.sealAll (.requester who)).freeClaims who
  let b := b.closeFiring t f
  let b := b.charge m t.val f
  f.touched.foldl Blade.zeroTest b

/-- A firing reaches END (R238, R101, R97, R242). -/
def Blade.finish (b : Blade) (m : Memory) (t : TileId) (f : Firing) : Blade :=
  if b.trailFull then b
  else if !auditPasses f (m.desc f.slotB f.node.toNat) then b.trap m t f trapAUDIT 0
  else if b.deadDest f then b.trap m t f trapDEAD_DEST 0
  else b.applyEnd m t f

/-! ## Ready queues (R263 to R268, R279 to R281) -/

/-- The flow and sequence of an entry: an ordered token of an arity-1 node. -/
def ReadyEntry.sequence (e : ReadyEntry) : Option (BitVec 12 × BitVec 16) :=
  match e.tokens with
  | [t] => if t.ordered then some (t.flow, t.sequence) else none
  | _ => none

def ReadyEntry.context (e : ReadyEntry) : Nat :=
  match e.tokens with
  | t :: _ => t.context.toNat
  | [] => 0

def ReadyEntry.node (e : ReadyEntry) : Nat :=
  match e.tokens with
  | t :: _ => t.node.toNat
  | [] => 0

def Blade.entryDesc (b : Blade) (m : Memory) (e : ReadyEntry) : Desc := m.desc (b.slotOf e.context) e.node

/-- An entry holds its flow's head (R281). -/
def Blade.holdsHead (b : Blade) (e : ReadyEntry) : Bool :=
  match e.sequence with
  | some (f, s) => (b.flow f.toNat).head = s
  | none => false

/-- A context whose tokens CANCEL removes (R92). -/
def Blade.cancelling (b : Blade) (c : Nat) : Bool := (b.ctx c).state = .draining && (b.ctx c).causeCancel

/-- A context's entries wait while it is parked or its capture is under way (R266). -/
def Blade.parkHeld (b : Blade) (c : Nat) : Bool := (b.ctx c).state = .parked || b.capturing c

/-- The level of an entry before a boost (R266, R271). -/
def Blade.baseLevel (b : Blade) (m : Memory) (e : ReadyEntry) : Nat :=
  if b.flag rSCHED 0 && (b.ctx e.context).overran then 7 else (b.entryDesc m e).priority

/-- The effective level of an entry (R266). -/
def Blade.level (b : Blade) (m : Memory) (e : ReadyEntry) : Nat :=
  if b.holdsHead e then b.baseLevel m e - 1 else b.baseLevel m e

/-- What reservation an entry needs before it is dispatched: of the 7,648 (R279), or of the 544 while the release unit is
struck (R298). -/
def Blade.needs (b : Blade) (m : Memory) (e : ReadyEntry) : Option Bool :=
  match e.sequence with
  | some (f, s) =>
    if !(b.entryDesc m e).orderedRelease || (b.flow f.toNat).booked.any (·.1 = s) then none
    else if b.holdsHead e then (if b.struck fnRelease then some true else none)
    else some false
  | none => none

/-- A trap of a firing would form a trail record (R108, R111): an audited class whose unpoisoned inputs have a sum, or a poisoned
audited input. -/
def Firing.trapForms (f : Firing) : Bool :=
  ([1, 2, 3, 4].any fun k => inputSum f.inputs k ≠ 0) ||
    f.inputs.any fun i => i.poison && audited i.cls

/-- Whether an entry may be selected, its reservation made where it needs one (R266, R279, R298). -/
def Blade.trySelect (b : Blade) (m : Memory) (e : ReadyEntry) : Bool × Blade :=
  if b.parkHeld e.context || b.cancelling e.context then (false, b)
  else
    match b.needs m e, e.sequence with
    | some heads, some (f, s) =>
      if !heads && b.struck fnRelease then (false, b.count64 (rFLOW + 8))
      else
        match b.reserve f.toNat s heads with
        | some b => (true, b)
        | none => (false, b.count64 (rFLOW + 8))
    | _, _ => (true, b)

/-- The first entry of a list that may be selected. -/
def Blade.selectFrom (m : Memory) : Blade → List ReadyEntry → Option Nat × Blade
  | b, [] => (none, b)
  | b, e :: es =>
    let r := b.trySelect m e
    if r.1 then (some e.age, r.2) else Blade.selectFrom m r.2 es

/-- `select` of R266: the age of the chosen entry. -/
def Blade.select (b : Blade) (m : Memory) (t : Nat) : Option Nat × Blade :=
  let es := (b.tile t).ready
  b.selectFrom m ((List.range 8).flatMap fun lvl => es.filter fun e => b.level m e = lvl)

/-- While a firing executes, the tile holds its next entry prefetched (R265); a struck tile selects none (R296). -/
def Blade.prefetch (b : Blade) (m : Memory) (t : Nat) : Blade :=
  if (b.tile t).firing.isSome && (b.tile t).prefetched.isNone && !b.struck (fnTile t) then
    let r := b.select m t
    r.2.modTile t fun x => { x with prefetched := r.1 }
  else b

/-- The tile whose ready queue takes a tile's entries: those of a retiring tile move to its target (R578). -/
def Blade.readyTile (b : Blade) (t : Nat) : Nat :=
  match b.net.migration with
  | some g => if g.source.val = t then g.target.val else t
  | none => t

/-- An entry joins a tile's ready queue (R263); an armed injection makes it unreadable (Table 12.8). -/
def Blade.readyPush (b : Blade) (m : Memory) (t : Nat) (ts : List Token) : Blade :=
  let t := b.readyTile t
  let bad := b.armed (srcTile t 4) 1
  let b := if bad then b.useInjection (srcTile t 4) else b
  let e : ReadyEntry := { tokens := ts, age := b.net.stamp, unreadable := bad }
  let b := { b with net.stamp := b.net.stamp + 1 }
  (b.modTile t fun x => { x with ready := x.ready ++ [e] }).prefetch m t

/-- The ready queue is full (R263). -/
def Blade.readyFull (b : Blade) (t : Nat) : Bool := 1024 ≤ (b.tile (b.readyTile t)).ready.length

/-- Removes an entry, with its prefetch. -/
def Blade.takeEntry (b : Blade) (t : Nat) (age : Nat) : Blade :=
  b.modTile t fun x => { x with ready := x.ready.filter (·.age ≠ age),
                                prefetched := if x.prefetched = some age then none else x.prefetched }

/-- An entry leaves a tile's queue; one that cannot be read is lost (R268), of any other each token goes as given. -/
def Blade.dropEntry (b : Blade) (m : Memory) (t : Nat) (e : ReadyEntry) (go : Blade → Token → Blade) : Blade :=
  let b := b.takeEntry t e.age
  if e.unreadable then e.tokens.foldl (fun b k => b.discard m k discardLOST_STORAGE) (b.raiseFree (srcTile t 4))
  else e.tokens.foldl go b

/-- Entries of cancelled contexts leave the queue as cancelled (R92, R267). -/
def Blade.cancelEntries (b : Blade) (m : Memory) (t : Nat) : Blade :=
  let es := (b.tile t).ready.filter fun e =>
    (b.ctx e.context).state = .draining && (b.ctx e.context).causeCancel
  es.foldl (fun b e => if !e.unreadable && b.trailHolds e.tokens then b else b.dropEntry m t e Blade.cancelToken) b

/-- Entries of contexts whose record is destroyed are discarded (R96). -/
def Blade.loseEntries (b : Blade) (m : Memory) (t : Nat) : Blade :=
  let es := (b.tile t).ready.filter fun e => (b.ctx e.context).recordLost
  es.foldl (fun b e => b.dropEntry m t e fun b k => b.discard m k discardRECORD_LOST) b

/-- The registers at firing entry (Table 4.1). -/
def entryRegs (ts : List Token) (node : BitVec 20) : SMap Word64 :=
  let v := fun i : Nat => (ts[i]?.map (·.value)).getD 0
  let t0 := ts.headD (Token.data 0 0 0 0 0)
  let flow : Word64 :=
    if ts.length = 1 && t0.ordered then
      BitVec.ofNat 64 (t0.sequence.toNat + t0.flow.toNat * 2 ^ 16 + 2 ^ 28) else 0
  [(1, v 0), (2, v 1), (3, v 2), (4, BitVec.ofNat 64 t0.context.toNat), (5, BitVec.ofNat 64 t0.iteration.toNat),
    (6, BitVec.ofNat 64 node.toNat), (7, flow)].filter (·.2 ≠ 0)

/-- The firing that an entry begins (R192, R193). -/
def Blade.newFiring (b : Blade) (m : Memory) (e : ReadyEntry) : Firing :=
  let t0 := e.tokens.headD (Token.data 0 0 0 0 0)
  let slotB := b.slotOf e.context
  { context := t0.context, iteration := t0.iteration, node := t0.node, slotB := slotB, inputs := e.tokens,
    pc := (m.desc slotB e.node).codelet, g := entryRegs e.tokens t0.node, poisoned := 0, fps := 0, fcr := 0, executed := 0,
    lastTag := 0, poisonSeen := false, emissions := [], adjustments := [], opens := [], openCount := 0, requests := [],
    heldSequence := e.sequence, stall := none, spent := 0 }

/-- A firing starts on a tile. -/
def Blade.startFiring (b : Blade) (t : TileId) (f : Firing) : Blade :=
  let b := b.disarm (.tile t)
  let b := b.modTile t.val fun x => { x with
    firing := some f, lastNode := f.node, lastContext := f.context, lastIteration := f.iteration }
  { b.count64 (rSCHED + 0x200 + 8 * t.val) with net.progressed := true }

/-- The chosen entry is dispatched: lost storage discards it (R268), a poisoned input traps it (R111), which waits while the
trail buffer is full (R658), else it executes. -/
def Blade.dispatchEntry (b : Blade) (m : Memory) (t : TileId) (e : ReadyEntry) : Blade :=
  let boosted := b.holdsHead e && 0 < b.baseLevel m e
  let bad := (e.tokens.filter (·.poison)).length
  if !e.unreadable && 0 < bad && b.trailFull && (b.newFiring m e).trapForms then b
  else
    if e.unreadable then b.dropEntry m t.val e Blade.cancelToken
    else
      let b := b.takeEntry t.val e.age
      let b := if boosted then b.count64 (rFLOW + 0x10) else b
      let f := b.newFiring m e
      let b := b.startFiring t f
      if 0 < bad then b.trap m t f trapPOISON bad else b.prefetch m t.val

/-- DISPATCH of a tile (R264 to R268, R296): entries of cancelled and destroyed contexts leave; then, on a hoisted idle tile and
with no LOG throttle (R565), a firing record that a retirement brought starts again, or the selected entry starts. A tile that
executes holds its next entry prefetched (R265). -/
def Blade.dispatch (b : Blade) (m : Memory) (t : TileId) : Blade :=
  let b := (b.sampleLog.cancelEntries m t.val).loseEntries m t.val
  let x := b.tile t.val
  if b.struck (fnTile t.val) || b.pair.throttled || b.stopped then b
  else if x.firing.isSome then b.prefetch m t.val
  else
    match x.reruns with
    | f :: r =>
      ((b.modTile t.val fun x => { x with reruns := r }).startFiring t f).prefetch m t.val
    | [] =>
      match x.prefetched.bind (fun a => x.ready.find? (·.age = a)) with
      | some e => if b.parkHeld e.context || b.cancelling e.context then b else b.dispatchEntry m t e
      | none =>
        let r := b.select m t.val
        match r.1.bind (fun a => x.ready.find? (·.age = a)) with
        | some e => r.2.dispatchEntry m t e
        | none => r.2

end Sys2Proof.Machine
end

