-- ==== Sys2Proof/Machine/Matching.lean ====
section
/-! DEFINITION. The matching slices and the spill store (chapter 3): acceptance, spill, refill, and the removal of cancelled
entries. -/

namespace Sys2Proof.Machine

/-! ## Entries (Table 3.4) -/

/-- `set_index` of R132. -/
def setIndex (context iteration node : Nat) : Nat :=
  let t := context * 2 ^ 32 + iteration * 2 ^ 20 + node
  (bits t 0 9) ^^^ (bits t 9 9) ^^^ (bits t 18 9) ^^^ (bits t 27 9) ^^^ (bits t 36 9) ^^^ (bits t 45 3)

/-- `filter_bit` of R132. -/
def filterBit (context iteration node : Nat) : Nat :=
  (bits node 0 5) ^^^ (bits node 5 5) ^^^ (bits iteration 0 5) ^^^ (bits context 0 5)

def Token.set (t : Token) : Nat := setIndex t.context.toNat t.iteration.toNat t.node.toNat

def MatchEntry.filterBit (e : MatchEntry) : Nat := Machine.filterBit e.context.toNat e.iteration.toNat e.node.toNat

def MatchEntry.sameTag (e : MatchEntry) (t : Token) : Bool :=
  e.context = t.context && e.iteration = t.iteration && e.node = t.node

def MatchEntry.has (e : MatchEntry) (p : Nat) : Bool := e.presence.getLsbD p

/-- `fill`: a token takes its port of an entry. -/
def MatchEntry.fill (e : MatchEntry) (t : Token) : MatchEntry :=
  let bit : BitVec 3 := BitVec.ofNat 3 (2 ^ t.port.toNat)
  let pz := if t.poison then e.poison ||| bit else e.poison &&& ~~~bit
  let e := { e with presence := e.presence ||| bit, poison := pz }
  if t.port = 0 then { e with value0 := t.value, cls0 := t.cls }
  else if t.port = 1 then { e with value1 := t.value, cls1 := t.cls }
  else { e with value2 := t.value, cls2 := t.cls }

/-- `complete` of R135. -/
def MatchEntry.complete (e : MatchEntry) : Bool := e.presence = (if e.arity3 then 0b111 else 0b011)

/-- The tokens of an entry in port order (R139), of kind 0 (R130). -/
def MatchEntry.tokens (e : MatchEntry) : List Token :=
  let mk := fun (p : Nat) (v : Word64) (k : BitVec 3) =>
    ({ Token.data e.context.toNat e.iteration (BitVec.ofNat 2 p) e.node v with cls := k, poison := e.poison.getLsbD p } :
      Token)
  (if e.has 0 then [mk 0 e.value0 e.cls0] else []) ++ (if e.has 1 then [mk 1 e.value1 e.cls1] else []) ++
    (if e.has 2 then [mk 2 e.value2 e.cls2] else [])

/-- A new entry for a token; `age` is its place in the order of new entries. -/
def MatchEntry.new (t : Token) (arity : Nat) (frame : Word32) (age : Nat) : MatchEntry :=
  MatchEntry.fill { context := t.context, iteration := t.iteration, arity3 := arity = 3, presence := 0, node := t.node,
                    poison := 0, cls0 := 0, cls1 := 0, cls2 := 0, value0 := 0, value1 := 0, value2 := 0, written := frame,
                    age := age, damage := 0 } t

/-- The eight words of an entry (Table 3.4). -/
def MatchEntry.words (e : MatchEntry) : List Word32 :=
  let flags := fun (p : Nat) (k : BitVec 3) => b2n (e.poison.getLsbD p) * 8 + k.toNat
  let v := fun x : Word64 => [x.setWidth 32, (x >>> 32).setWidth 32]
  [pack [(16, 16, e.context.toNat), (4, 12, e.iteration.toNat), (3, 1, b2n e.arity3), (0, 3, e.presence.toNat)],
   pack [(12, 20, e.node.toNat), (8, 4, flags 2 e.cls2), (4, 4, flags 1 e.cls1), (0, 4, flags 0 e.cls0)]] ++
    v e.value0 ++ v e.value1 ++ v e.value2

/-! ## Stacks and blocks (R144 to R149) -/

def spillTotal : Nat := 2097152

def MatchSet.blocks (s : MatchSet) : Nat := (s.stack.length + 7) / 8

def MatchSet.live (s : MatchSet) : Nat := (s.stack.filter (·.presence ≠ 0)).length

/-- Allocated spill blocks, and live spilled entries (Table 3.23). -/
def Blade.spillBlocks (b : Blade) : Nat := msum MatchSet.blocks b.net.sets

def Blade.spillLive (b : Blade) : Nat := msum MatchSet.live b.net.sets

/-- Admission throttling with its two limits (R157). -/
def Blade.updateThrottle (b : Blade) : Blade :=
  let n := b.spillBlocks * 100
  if b.field (rMSTORE + 4) 0 7 * spillTotal < n then { b with net.throttling := true }
  else if n ≤ b.field (rMSTORE + 4) 8 7 * spillTotal then { b with net.throttling := false }
  else b

/-- A stack with no live entry gives its blocks back (R148). -/
def MatchSet.tidy (s : MatchSet) : MatchSet := if s.live = 0 then { s with stack := [], filter := 0, dirBad := false } else s

/-- Replaces a set, its stack tidied and the throttle brought up to date. -/
def Blade.putSet (b : Blade) (t k : Nat) (s : MatchSet) : Blade := (b.setMset t k s.tidy).updateThrottle

/-- Valid entries of a slice (Table 3.25). -/
def Blade.sliceUsed (b : Blade) (t : Nat) : Nat :=
  (b.net.sets.map fun e => if e.1 / 512 = t then e.2.ways.length else 0).sum

/-- The slice's high-water mark rises with its use (Table 3.25). -/
def Blade.markUsed (b : Blade) (t : Nat) : Blade :=
  let a := rMSTORE + 0x100 + 4 * t
  let n := b.sliceUsed t
  if b.field a 16 13 < n then b.setField a 16 13 n else b

/-- Tombstones make up half of a stack of depth 8 or more (R148). -/
def MatchSet.sparse (s : MatchSet) : Bool := 8 ≤ s.stack.length && s.stack.length ≤ 2 * (s.stack.length - s.live)

def Blade.opsUp (b : Blade) (t : Nat) : Blade := b.modTile t fun x => { x with spillOps := x.spillOps + 1 }
def Blade.opsDown (b : Blade) (t : Nat) : Blade := b.modTile t fun x => { x with spillOps := x.spillOps - 1 }

/-! ## Errors in the slice (R141 to R143, R151) -/

/-- An armed injection damages words of an entry as it is written (Table 12.8): its header word, the copy of that in the tag
array, and the value word of the port, in an order that is open. -/
def Blade.damageWritten (b : Blade) (t : Nat) (e : MatchEntry) : MatchEntry × Blade :=
  let weak := b.injectWords (srcTile t 1) 1 3
  let lost := b.injectWords (srcTile t 2) 1 3
  if 0 < weak.1 then ({ e with damage := BitVec.ofNat 3 weak.1 }, weak.2)
  else if lost.1 = 0 then (e, b)
  else
    let d := lost.2.draw 3
    let both := lost.1 = 3 || (lost.1 = 2 && d.1 = 0)
    ({ e with damage := if both then 5 else 4 }, d.2)

/-- Where an entry of a set is: its set and its way, or its address in the spill store; which way or address is not said, and free. -/
def Blade.entryPlace (b : Blade) (k : Nat) (spilled : Bool) : Nat × Blade :=
  let d := b.draw (2 ^ 48)
  (if spilled then d.1 else k + 512 * (d.1 % 8), d.2)

/-- An entry is read: none when it is lost, its tokens discarded (R142, R143, R151). -/
def Blade.readEntry (b : Blade) (m : Memory) (t k : Nat) (spilled : Bool) (e : MatchEntry) :
    Option MatchEntry × Blade :=
  if e.damage = 0 then (some e, b)
  else if e.damage < 4 then
    let p := b.entryPlace k spilled
    (some { e with damage := 0 }, times e.damage.toNat (fun b => b.windowEvent (srcTile t 1) p.1) p.2)
  else if e.damage = 4 then
    let p := b.entryPlace k spilled
    let b := p.2.raiseAt (srcTile t 2) p.1
    (none, e.tokens.foldl (fun b x => b.discard m x discardLOST_STORAGE) b)
  else
    let p := b.entryPlace k spilled
    (none, p.2.raiseAt (if spilled then srcWide 2 0 else srcTile t 3) p.1)

/-- Spilled entries are read from the bottom of their stack until one meets a test; one that cannot be read becomes a tombstone
(R151, R147). -/
def Blade.readSpilled (m : Memory) (t k : Nat) (stop : MatchEntry → Bool) : Blade → List MatchEntry → List MatchEntry × Blade
  | b, [] => ([], b)
  | b, e :: es =>
    if e.presence = 0 then
      let r := Blade.readSpilled m t k stop b es
      (e :: r.1, r.2)
    else
      let x := b.readEntry m t k true e
      match x.1 with
      | some e =>
        if stop e then (e :: es, x.2)
        else
          let r := Blade.readSpilled m t k stop x.2 es
          (e :: r.1, r.2)
      | none =>
        let r := Blade.readSpilled m t k stop x.2 es
        ({ e with presence := 0, damage := 0 } :: r.1, r.2)

/-- A set's word of the spill directory is read: a damaged one is lost (Table 12.3). -/
def Blade.checkDir (b : Blade) (t k : Nat) : Blade :=
  if (b.mset t k).dirBad then (b.setMset t k { b.mset t k with dirBad := false }).raiseFree (srcWide 2 3) else b

/-- A set's stack is read, up to the first entry that meets a test. -/
def Blade.readStack (b : Blade) (m : Memory) (t k : Nat) (stop : MatchEntry → Bool) : Blade :=
  let b := b.checkDir t k
  if (b.mset t k).stack.all (·.damage = 0) then b
  else
    let r := Blade.readSpilled m t k stop b (b.mset t k).stack
    r.2.putSet t k { r.2.mset t k with stack := r.1 }

/-- Reads every way of a set, dropping what is lost. -/
def Blade.readWays (m : Memory) (t k : Nat) : Blade → List MatchEntry → List MatchEntry × Blade
  | b, [] => ([], b)
  | b, e :: es =>
    let r := b.readEntry m t k false e
    let rest := Blade.readWays m t k r.2 es
    (r.1.toList ++ rest.1, rest.2)

/-- A set is looked up: its ways are read (R141 to R143). -/
def Blade.checkSet (b : Blade) (m : Memory) (t k : Nat) : Blade :=
  let s := b.mset t k
  if s.ways.all (·.damage = 0) then b
  else
    let r := Blade.readWays m t k b s.ways
    r.2.setMset t k { r.2.mset t k with ways := r.1 }

/-! ## Migration (R153 to R156, Table 3.6) -/

/-- The search that a set is locked for begins anew at the target; a push begins anew when the set is next full. -/
def SetLock.token : SetLock → List Token
  | .search t => [t]
  | .push => []

/-- Entries in the order of their age. -/
def insertEntry (e : MatchEntry) : List MatchEntry → List MatchEntry
  | [] => [e]
  | x :: xs => if x.age ≤ e.age then x :: insertEntry e xs else e :: x :: xs

/-- The set of both tiles together: more than eight ways spill the oldest above the combined stack (R155).
DESIGN CHOICE (log 82): the ways of both merge in the order in which the entries were formed; of equal ones the target's is
the older. -/
def MatchSet.join (s d : MatchSet) : MatchSet :=
  let ways := s.ways.foldl (fun l e => insertEntry e l) d.ways
  let extra := ways.length - 8
  { ways := ways.drop extra, lock := d.lock, stack := d.stack ++ s.stack ++ ways.take extra, blocked := d.blocked || s.blocked,
    dirBad := d.dirBad || s.dirBad,
    filter := (ways.take extra).foldl (fun f e => f ||| BitVec.ofNat 32 (2 ^ e.filterBit)) (d.filter ||| s.filter) }

/-- One set moves, with the tokens that wait for it, in their order and before those of the target; the slice is read over its
test path, and a lost one loses its ways (R153, R155, R156). It waits while the target's set is locked, its buffer has no
room for them and for so many more tokens, or the spill has no block. -/
def Blade.moveSet (b : Blade) (m : Memory) (g : Migration) (k more : Nat) : Blade :=
  let room := 16 - more
  let t := g.source.val
  let u := g.target.val
  if g.moved.contains k || g.barrier then b
  else
    let b := if g.unreadable then
        b.setMset t k { b.mset t k with ways := (b.mset t k).ways.map fun e => { e with damage := 4 } } else b
    let b := b.checkSet m t k
    let s := b.mset t k
    let d := b.mset u k
    let toks := (s.lock.map SetLock.token).getD [] ++ (b.tile t).waiting.filter (·.set = k)
    let new := s.join d
    let spilled := s.ways.length + d.ways.length - 8
    if d.lock.isSome || room < (b.tile u).waiting.length + toks.length ||
        spillTotal < b.spillBlocks + new.blocks - (s.blocks + d.blocks) then b
    else
      let b := if s.lock.isSome then b.opsDown t else b
      let b := ((b.setMset t k MatchSet.init).putSet u k new).markUsed u
      let b := b.count64 (rMSTORE + 0x18) spilled
      let b := b.modTile t fun x => { x with waiting := x.waiting.filter (·.set ≠ k) }
      let b := b.modTile u fun x => { x with waiting := toks ++ x.waiting }
      { b with net.migration := some { g with moved := k :: g.moved } }

/-- A set that a token at the target needs moves ahead of the ascending order (Table 3.6 step 6, R154). -/
def Blade.fetchSet (b : Blade) (m : Memory) (t k more : Nat) : Blade :=
  match b.net.migration with
  | some g => if g.target.val = t then b.moveSet m g k more else b
  | none => b

/-- A set of the target that is not yet migrated, and so takes no token. -/
def Blade.unmigrated (b : Blade) (t k : Nat) : Bool :=
  b.net.migration.any fun g => g.target.val = t && !g.barrier && !g.moved.contains k

/-- The redirect barrier ends once nothing is on its way to the retiring tile: its tiling entries name the target, and senders
resume (Table 3.6 steps 3 and 4). -/
def Blade.endBarrier (b : Blade) : Blade :=
  match b.net.migration with
  | some g =>
    if g.barrier && (mget [] g.source.val b.net.home).isEmpty then
      let tiling := (List.range 256).foldl (fun l i => if b.tiling i = g.source.val then mput 0 i g.target.val l else l) b.net.tiling
      let held := b.net.barrierHeld
      let b := { b with net.tiling := tiling, net.migration := some { g with barrier := false }, net.barrierHeld := [] }
      held.foldl (fun b e => b.deliver e.1 g.target.val e.2) b
    else b
  | none => b

/-! ## Acceptance (R135 to R139, R152) -/

/-- What acceptance does with a token: takes it, or leaves it waiting, blocked or not. -/
inductive Accepted where
  | took (b : Blade)
  | waits (b : Blade)
  | blocks (b : Blade)

/-- A unit has accepted a token (R161). -/
def Blade.progress (b : Blade) : Blade := { b with net.progressed := true }

/-- The entry of a cancelled context counts as cancelled (R140). -/
def Blade.cancelEntry (b : Blade) (e : MatchEntry) : Blade := e.tokens.foldl Blade.cancelToken b

/-- An entry taken from its set is read and counts as cancelled, unless it is lost. -/
def Blade.removeEntry (b : Blade) (m : Memory) (t k : Nat) (e : MatchEntry) : Blade :=
  let r := b.readEntry m t k false e
  (r.1.map r.2.cancelEntry).getD r.2

/-- `spill_push` of the oldest way (R145): the set stays locked until the write completes. An armed injection damages the set's
word of the spill directory as it is written (Table 12.8). -/
def Blade.spillPush (b : Blade) (t k : Nat) : Blade :=
  let b := b.checkDir t k
  let s := b.mset t k
  match s.ways with
  | [] => b
  | e :: ws =>
    let bad := b.armed (srcWide 2 3) 1
    let b := if bad then b.useInjection (srcWide 2 3) else b
    let f := s.filter ||| BitVec.ofNat 32 (2 ^ e.filterBit)
    ((b.putSet t k { s with ways := ws, stack := s.stack ++ [e], filter := f, lock := some .push, dirBad := bad }).opsUp t).count64
      (rMSTORE + 0x18)

/-- The index of the first entry of a list that a token joins (R135). -/
def joinIndex (es : List MatchEntry) (t : Token) : Option Nat :=
  es.findIdx? fun e => e.presence ≠ 0 && e.sameTag t && !e.has t.port.toNat

/-- An entry of a cancelled context, which an acceptance that touches it removes at once (R150). -/
def Blade.cancelledEntry (b : Blade) (e : MatchEntry) : Bool := b.cancelling e.context.toNat && !b.trailHolds e.tokens

/-- No way, no room in the top block and no free block: a new entry of the set waits (R152). -/
def Blade.noBlock (b : Blade) (s : MatchSet) : Bool :=
  8 ≤ s.ways.length && !(s.ways.head?.any b.cancelledEntry) && s.stack.length % 8 = 0 && spillTotal ≤ b.spillBlocks

/-- A set of a tile is blocked (Table 3.22). -/
def Blade.tileBlocked (b : Blade) (t : Nat) : Bool := b.net.sets.any fun e => e.1 / 512 = t && e.2.blocked

/-- A new entry takes the youngest place of a set. -/
def Blade.writeNew (b : Blade) (t k : Nat) (e : MatchEntry) : Blade :=
  let s := b.mset t k
  let b := (b.setMset t k { s with ways := s.ways ++ [e] }).markUsed t
  { b with net.stamp := b.net.stamp + 1 }

/-- The oldest way of a full set makes room: one of a cancelled context is removed (R150), any other is pushed (R145). -/
def Blade.makeWay (b : Blade) (m : Memory) (t k : Nat) : Blade :=
  let s := b.mset t k
  match s.ways with
  | [] => b
  | e :: ws => if b.cancelledEntry e then (b.setMset t k { s with ways := ws }).removeEntry m t k e else b.spillPush t k

/-- `place_on_chip` of R135. -/
def Blade.placeOnChip (b : Blade) (m : Memory) (t k : Nat) (tok : Token) (arity : Nat) : Accepted :=
  let s := b.mset t k
  match joinIndex s.ways tok with
  | some i =>
    let e := (s.ways.getD i (.new tok arity b.frame 0)).fill tok
    if e.complete then
      let b := b.setMset t k { s with ways := s.ways.eraseIdx i }
      .took (b.progress.readyPush m t e.tokens)
    else
      let r := b.progress.damageWritten t e
      .took (r.2.setMset t k { s with ways := s.ways.set i r.1 })
  | none =>
    if b.noBlock s then .blocks (b.setMset t k { s with blocked := true })
    else if 8 ≤ s.ways.length && !(s.ways.head?.any b.cancelledEntry) && 8 ≤ (b.tile t).spillOps then .waits b
    else
      let r := b.progress.damageWritten t (.new tok arity b.frame b.net.stamp)
      if s.ways.length < 8 then .took (r.2.writeNew t k r.1)
      else .took ((r.2.makeWay m t k).writeNew t k r.1)

/-- A token of a node of arity 2 or 3 reaches its unlocked set (R135). -/
def Blade.acceptSet (b : Blade) (m : Memory) (t : Nat) (tok : Token) : Accepted :=
  let k := tok.set
  let b := b.checkSet m t k
  let s := b.mset t k
  let arity := (m.desc (b.slotOf tok.context.toNat) tok.node.toNat).arity
  if 0 < s.live && s.filter.getLsbD (filterBit tok.context.toNat tok.iteration.toNat tok.node.toNat) then
    if 8 ≤ (b.tile t).spillOps then .waits b
    else .took ((b.progress.setMset t k { s with lock := some (.search tok) }).opsUp t)
  else b.placeOnChip m t k tok arity

/-- A waiting token is looked at once: tokens of its set that wait before it, a lock of its set, a set not yet migrated, or one
that is blocked and finds no block keep it waiting (R136, R152, R154). -/
def Blade.retryOne (m : Memory) (t : Nat) (p : List Token × Blade) (tok : Token) : List Token × Blade :=
  let (kept, b) := p
  let s := b.mset t tok.set
  if s.lock.isSome || kept.any (·.set = tok.set) || b.readyFull t || b.unmigrated t tok.set || (s.blocked && b.noBlock s) ||
      (b.cancelling tok.context.toNat && b.trailHolds [tok]) then (kept ++ [tok], b)
  else
    let b := b.setMset t tok.set { s with blocked := false }
    match b.receive m tok with
    | .stopped b => (kept ++ [tok], b)
    | .gone b => (kept, b.progress)
    | .taken tok b =>
      match b.acceptSet m t tok with
      | .took b => (kept, b)
      | .waits b => (kept ++ [tok], b)
      | .blocks b => (kept ++ [tok], b)

/-- The set-wait buffer is gone through in arrival order (R136, R137), the sets it needs migrated first. -/
def Blade.retryWaiting (b : Blade) (m : Memory) (t : Nat) : Blade :=
  let b := (b.tile t).waiting.foldl (fun b x => b.fetchSet m t x.set 0) b
  let ts := (b.tile t).waiting
  let b := b.modTile t fun x => { x with waiting := [] }
  let r := ts.foldl (Blade.retryOne m t) ([], b)
  r.2.modTile t fun x => { x with waiting := r.1 }

def srcOrderedMatch : Nat := srcWide 2 1
def srcDescLost : Nat := srcWide 1 4

/-- A descriptor cannot be read; the loss is raised when it is first found (R78). -/
def Blade.noteLost (b : Blade) (slotB : Bool) (node : BitVec 20) : Blade :=
  if b.led.lostDescriptors.contains (slotB, node) then b
  else { b with led.lostDescriptors := b.led.lostDescriptors ++ [(slotB, node)] }.raise srcDescLost

/-- A token whose descriptor cannot be read is discarded (R78). -/
def Blade.lostDescriptor (b : Blade) (m : Memory) (tok : Token) : Blade :=
  (b.noteLost (b.slotOf tok.context.toNat) tok.node).discard m tok discardDESC_LOST

/-- A token taken from the home channel, its context able to hold it (R135). -/
def Blade.acceptTaken (b : Blade) (m : Memory) (t : Nat) (tok : Token) : Blade :=
  let c := tok.context.toNat
  let slotB := b.slotOf c
  if b.descLost m slotB tok.node.toNat then b.progress.lostDescriptor m tok
  else
    let d := m.desc slotB tok.node.toNat
    if d.arity ≤ tok.port.toNat then b.progress.discard m tok discardBAD_PORT
    else if d.arity = 1 then b.progress.readyPush m t [tok]
    else
      let b := if tok.ordered then
          ((b.retireOf tok).count (rMSTORE + 0x30)).raise srcOrderedMatch
        else b
      let tok := { tok with ordered := false, sequence := 0, flow := 0, kind := 0,
                            cls := if tok.kind = 0 then tok.cls else 0 }
      let wait := fun b : Blade => b.modTile t fun x => { x with waiting := x.waiting ++ [tok] }
      let b := b.fetchSet m t tok.set 1
      if (b.mset t tok.set).lock.isSome || b.unmigrated t tok.set || (b.tile t).waiting.any (·.set = tok.set) then wait b
      else
        match b.acceptSet m t tok with
        | .took b => b
        | .waits b => wait b
        | .blocks b => wait b

/-- The acceptance of a token would form a trail record: it is cancelled or discarded (R657, R112). -/
def Blade.formsRecord (b : Blade) (m : Memory) (t : Token) : Bool :=
  let slotB := b.slotOf t.context.toNat
  b.receiveForms t || (audited t.cls && !(b.ctx t.context.toNat).recordLost &&
    (b.descLost m slotB t.node.toNat || (m.desc slotB t.node.toNat).arity ≤ t.port.toNat))

/-- A matching unit takes the token at the head of its home channel (R134 to R137, R263, R174, R176, R184). -/
def Blade.tokenAccept (b : Blade) (m : Memory) (t : Nat) : Memory × Blade :=
  match mget [] t b.net.home with
  | [] => (m, b)
  | tok :: rest =>
    if b.readyFull t || 16 ≤ (b.tile t).waiting.length || (b.trailFull && b.formsRecord m tok) then (m, b)
    else
      let c := tok.context.toNat
      let popped := { b with net.home := mput [] t rest b.net.home }
      match popped.receive m tok with
      | .stopped _ => (m, b.raiseFree srcTagParity)
      | .gone b => (m, b.progress.endBarrier)
      | .taken tok b' =>
        if b.unparking c then
          let b' : Blade := { b' with led.parking := b'.led.parking.map fun p => { p with waiting := p.waiting ++ [.now tok] } }
          (m, b'.endBarrier)
        else if b.capturing c then (m, (if b.captureWaits c then b else b'.capture tok 4 0 0).endBarrier)
        else if (b.ctx c).state = .parked then (m, (if b.captureWaits c then b else b'.capture tok 5 0 0).endBarrier)
        else
          let x := b'.readDesc m (b'.slotOf c) tok.node.toNat
          (x.1, (x.2.acceptTaken x.1 t tok).endBarrier)

/-- The spill search of a locked set ends (R135, R147, R150): it fills a spilled entry, or places its token on chip; where that
must wait, the token goes to the set-wait buffer's head, or stays with the search while the buffer is full. An entry of a
cancelled context goes with the token. -/
def Blade.searchComplete (b : Blade) (m : Memory) (t k : Nat) : Blade :=
  match (b.mset t k).lock with
  | some (.search tok) =>
    if b.readyFull t || (b.cancelling tok.context.toNat && b.trailFull) then b
    else
      let held := b
      let b := b.readStack m t k fun e => e.sameTag tok && !e.has tok.port.toNat
      let b := (b.setMset t k { b.mset t k with lock := none, blocked := false }).opsDown t
      let s := b.mset t k
      match joinIndex s.stack tok with
      | some i =>
        let e := s.stack.getD i (.new tok 2 b.frame 0)
        let gone := fun b : Blade => b.putSet t k { s with stack := s.stack.set i { e with presence := 0 } }
        if b.cancelling tok.context.toNat then ((e.tokens ++ [tok]).foldl Blade.cancelToken (gone b)).retryWaiting m t
        else if (e.fill tok).complete then ((gone b).readyPush m t (e.fill tok).tokens).retryWaiting m t
        else (b.putSet t k { s with stack := s.stack.set i (e.fill tok) }).retryWaiting m t
      | none =>
        if b.cancelling tok.context.toNat then (b.cancelToken tok).retryWaiting m t
        else
          let arity := (m.desc (b.slotOf tok.context.toNat) tok.node.toNat).arity
          let back := fun (b : Blade) (blocked : Bool) => if 16 ≤ (b.tile t).waiting.length then
              held.setMset t k { held.mset t k with blocked := blocked }
            else b.modTile t fun x => { x with waiting := tok :: x.waiting }
          match b.placeOnChip m t k tok arity with
          | .took b => b.retryWaiting m t
          | .waits b => back b false
          | .blocks b => back b true
  | _ => b

/-- The write of a spill push completes (R145). -/
def Blade.pushComplete (b : Blade) (m : Memory) (t k : Nat) : Blade :=
  let s := b.mset t k
  if s.lock = some .push then ((b.putSet t k { s with lock := none }).opsDown t).retryWaiting m t else b

/-- REFILL of a set (R146): the topmost live entry becomes its oldest way. DESIGN CHOICE (log 82): it leaves its place in the
stack, which grows shorter by it. -/
def Blade.refill (b : Blade) (m : Memory) (t k : Nat) : Blade :=
  let s := b.mset t k
  if s.lock.isSome || 4 < s.ways.length || s.live = 0 || 8 ≤ (b.tile t).spillOps then b
  else
    let b := b.checkDir t k
    let s := b.mset t k
    match (List.range s.stack.length).reverse.find? (fun i => (s.stack[i]?.map (·.presence)).getD 0 ≠ 0) with
    | none => b
    | some i =>
      match s.stack[i]? with
      | none => b
      | some e =>
        if b.cancelling e.context.toNat && b.trailHolds e.tokens then b
        else
          let b := (b.putSet t k { s with stack := s.stack.eraseIdx i }).count64 (rMSTORE + 0x20)
          let r := b.readEntry m t k true e
          match r.1 with
          | some e =>
            if r.2.cancelling e.context.toNat then r.2.cancelEntry e
            else
              let s := r.2.mset t k
              ((r.2.setMset t k { s with ways := e :: s.ways }).markUsed t).retryWaiting m t
          | none => r.2.retryWaiting m t

/-- COMPACTION of a stack (R148): its live entries, in order. -/
def Blade.compact (b : Blade) (m : Memory) (t k : Nat) : Blade :=
  if (b.mset t k).sparse && (b.mset t k).lock.isNone && (b.tile t).spillOps < 8 then
    let b := b.readStack m t k fun _ => false
    (b.putSet t k { b.mset t k with stack := (b.mset t k).stack.filter (·.presence ≠ 0) }).retryWaiting m t
  else b

/-- The sweep goes past one entry of a stack: its tombstone, with the tokens cancelled, or the entry. -/
def Blade.sweepOne (p : List MatchEntry × Blade) (e : MatchEntry) : List MatchEntry × Blade :=
  if e.presence ≠ 0 && p.2.cancelledEntry e then (p.1 ++ [{ e with presence := 0 }], p.2.cancelEntry e) else (p.1 ++ [e], p.2)

/-- The spill sweep reaches a stack (R150): it is read, and entries of cancelled contexts become tombstones, but for those that
the trail buffer holds up (R658). -/
def Blade.sweepStack (b : Blade) (m : Memory) (t k : Nat) : Blade :=
  let b := b.readStack m t k fun _ => false
  let s := b.mset t k
  let r := s.stack.foldl Blade.sweepOne ([], b)
  (r.2.putSet t k { r.2.mset t k with stack := r.1 }).retryWaiting m t

/-- A matching unit removes one entry of a cancelled context (R140). -/
def Blade.cancelRemoval (b : Blade) (m : Memory) (t k way : Nat) : Blade :=
  let s := b.mset t k
  match s.ways[way]? with
  | some e =>
    if b.cancelling e.context.toNat && !b.trailHolds e.tokens then
      ((b.setMset t k { s with ways := s.ways.eraseIdx way }).removeEntry m t k e).retryWaiting m t
    else b
  | none => b

end Sys2Proof.Machine
end

