-- ==== Sys2Proof/Machine/Delay.lean ====
section
/-! DEFINITION. The delay unit (chapter 6): insertion, the ticks of its lists, maturity and removal. -/

namespace Sys2Proof.Machine

def srcDelayEcc : Nat := srcWide 2 2

/-- Key order (R285): the maturity time, then the stamp. -/
def DelayEntry.before (a b : DelayEntry) : Bool := a.left < b.left || (a.left = b.left && a.stamp < b.stamp)

/-- A list sorted by key gains an entry. -/
def insertByKey (e : DelayEntry) : List DelayEntry → List DelayEntry
  | [] => [e]
  | x :: r => if e.before x then e :: x :: r else x :: insertByKey e r

/-- All entries of a list in key order. -/
def DelayList.all (d : DelayList) : List DelayEntry := d.onChip ++ d.overflow

/-- The earliest 4,096 entries are on chip, the rest in overflow (R287). -/
def DelayList.layOut (d : DelayList) (es : List DelayEntry) : DelayList :=
  { d with onChip := es.take 4096, overflow := es.drop 4096 }

/-- A list with no room for an insertion (R289, Table 6.21). -/
def Blade.delayFull (b : Blade) (n : Nat) : Bool :=
  let d := b.delay n
  4096 ≤ d.onChip.length && (!b.flag (rDELAY + 0x30 + 4 * n) 0 || 65536 ≤ d.overflow.length)

/-- A token enters a list with the ticks it waits (R286). An armed injection damages its entry (Table 12.8); whether it damages
the key is open, and an entry whose key cannot be read is discarded at once (R292). -/
def Blade.delayEnter (b : Blade) (m : Memory) (n : Nat) (t : Token) (amount : Nat) : Blade :=
  let bad := b.armed srcDelayEcc 1
  let b := if bad then b.useInjection srcDelayEcc else b
  let k := if bad then b.draw 2 else (0, b)
  let e : DelayEntry := { token := t, left := amount, stamp := b.net.stamp, unreadable := bad }
  let b := ({ k.2 with net.stamp := k.2.net.stamp + 1 } : Blade).count64 (rDELAY + 0x60 + 8 * n)
  if k.1 = 1 then (b.raiseFree srcDelayEcc).discard m t discardLOST_STORAGE
  else b.setDelay n ((b.delay n).layOut (insertByKey e (b.delay n).all))

/-- The delay unit has taken a token: no list stops its input (R289). -/
def Blade.delayResumes (b : Blade) : Blade :=
  [0, 1, 2, 3].foldl (fun b n =>
    if (b.delay n).fullEpisode then b.setDelay n { b.delay n with fullEpisode := false } else b) b

/-- The token at the head of the delay unit's input is taken (R60, R63, R92, R174, R176, R184). -/
def Blade.delayTake (b : Blade) (m : Memory) (r : DelayRequest) (rest : List DelayRequest) : Blade :=
  let popped := ({ b with net.delayIn := rest } : Blade).delayResumes
  match popped.receive m r.token with
  | .stopped _ => b.raiseFree srcTagParity
  | .gone b' => b'
  | .taken tok b' =>
    let c := tok.context.toNat
    if b.unparking c then
      { b' with led.parking := b'.led.parking.map fun p =>
          { p with waiting := p.waiting ++ [.delayed { r with token := tok }] } }
    else if b.capturing c then (if b.captureWaits c then b else b'.capture tok 4 0 0)
    else if (b.ctx c).state = .parked then (if b.captureWaits c then b else b'.capture tok 5 0 0)
    else b'.delayEnter m r.list.val tok r.amount

/-- DELAY_INSERT (R286, R289): a full list stops the input and sends one notice an episode; a full trail buffer stops a token
whose taking would form a record (R658). -/
def Blade.delayInsert (b : Blade) (m : Memory) : Blade :=
  match b.net.delayIn with
  | [] => b
  | r :: rest =>
    if b.delayFull r.list.val then
      if (b.delay r.list.val).fullEpisode then b
      else (b.setDelay r.list.val { b.delay r.list.val with fullEpisode := true }).notify 5 (leBytes 1 r.list.val)
    else if b.trailFull && b.receiveForms r.token then b
    else b.delayTake m r rest

/-- An entry matures: one that cannot be read is lost, one of a cancelled context is cancelled, and any other, or one that the
trail buffer holds up, goes to the hold buffer (R288, R290, R292, R658). -/
def Blade.delayDue (b : Blade) (m : Memory) (n : Nat) (e : DelayEntry) : Blade :=
  if e.unreadable then (b.raiseFree srcDelayEcc).discard m e.token discardLOST_STORAGE
  else if b.cancelling e.token.context.toNat && !b.trailHolds [e.token] then b.cancelToken e.token
  else b.setDelay n { b.delay n with hold := (b.delay n).hold ++ [e] }

/-- One tick of a list (R285, R288): the entries whose time has come leave in key order. -/
def Blade.delayTick (b : Blade) (m : Memory) (n : Nat) : Blade :=
  let d := b.delay n
  if d.all.isEmpty then b
  else
    let es := d.all.map fun e => { e with left := e.left - 1 }
    let due := es.filter (·.left = 0)
    let b := b.setDelay n (d.layOut (es.filter (·.left ≠ 0)))
    let b := { b.count64 (rDELAY + 0x40 + 8 * n) due.length with net.progressed := b.net.progressed || !due.isEmpty }
    due.foldl (fun b e => b.delayDue m n e) b

/-- A matured entry waits in its hold buffer: for park staging (R178), or for the trail buffer where it would be cancelled or
discarded (R658). -/
def Blade.delayWaits (b : Blade) (m : Memory) (e : DelayEntry) : Bool :=
  let c := e.token.context.toNat
  if b.cancelling c then b.trailHolds [e.token]
  else if b.capturing c then b.captureWaits c
  else b.trailHolds [e.token] && m.nodeCount (b.slotOf c) ≤ e.token.node.toNat

/-- A matured entry leaves its hold buffer: cancelled, captured or sent home (R288, R290, Table 6.6). -/
def Blade.delayLeave (b : Blade) (m : Memory) (n : Nat) (e : DelayEntry) : Blade :=
  let c := e.token.context.toNat
  if b.cancelling c then b.cancelToken e.token
  else if b.capturing c then b.capture e.token 3 n 0
  else b.sendHome m 42 e.token

/-- Held entries of a list leave in key order, up to one that must wait. -/
def Blade.delayGo (m : Memory) (n : Nat) : List DelayEntry → Blade → Blade
  | [], b => b.setDelay n { b.delay n with hold := [] }
  | e :: es, b =>
    if b.delayWaits m e then b.setDelay n { b.delay n with hold := e :: es } else Blade.delayGo m n es (b.delayLeave m n e)

/-- The hold buffer of a list empties onto the home channel; a struck one keeps its matured entries (R297). -/
def Blade.delaySend (b : Blade) (m : Memory) (n : Nat) : Blade :=
  if b.struck (fnDelay n) || (b.delay n).hold.isEmpty then b else Blade.delayGo m n (b.delay n).hold b

/-- DELAY_MATURITY of a list: those before it send first (R288). -/
def Blade.delayMature (b : Blade) (m : Memory) (n : Nat) : Blade :=
  (List.range (n + 1)).foldl (fun b k => b.delaySend m k) b

/-- DELAY_CANCEL_REMOVAL (R290): one entry of a cancelled context leaves its list or its hold buffer. -/
def Blade.delayCancel (b : Blade) (m : Memory) (n i : Nat) : Blade :=
  let d := b.delay n
  match (d.all ++ d.hold)[i]? with
  | some e =>
    if b.cancelling e.token.context.toNat && !b.trailHolds [e.token] then
      let b := b.setDelay n { d.layOut (d.all.eraseIdx i) with hold := if d.all.length ≤ i then d.hold.eraseIdx (i - d.all.length) else d.hold }
      if e.unreadable then (b.raiseFree srcDelayEcc).discard m e.token discardLOST_STORAGE else b.cancelToken e.token
    else b
  | none => b

/-- A context's tokens in the delay lists and their hold buffers (R291). -/
def Blade.delayCount (b : Blade) (c : Nat) : Nat :=
  msum (fun d : DelayList => ((d.all ++ d.hold).filter fun e => e.token.context.toNat = c).length) b.ord.delays

end Sys2Proof.Machine
end

