-- ==== Sys2Proof/Machine/Uplinks.lean ====
section
/-! DEFINITION. The uplinks: the frames that they take and send, and the addresses that they answer for (R519, R520). -/

namespace Sys2Proof.Machine

/-- An uplink that carries traffic: enabled and not struck (R496, R519). -/
def Blade.uplinkOn (b : Blade) (u : Nat) : Bool := b.flag (rUPLINK u) 0 && !b.struck (fnUplink u)

/-- The 128-bit address that four registers hold. -/
def Blade.address6 (b : Blade) (a : Nat) : BitVec 128 :=
  BitVec.ofNat 128 ((List.range 4).map fun k => (b.reg (a + 4 * k)).toNat * 2 ^ (32 * k)).sum

/-- An IPv4 address as IPv6 carries it. -/
def mapped4 (a : BitVec 32) : BitVec 128 := BitVec.ofNat 128 (0xFFFF * 2 ^ 32 + a.toNat)

/-- The uplink answers for the service address (R520). -/
def Blade.servesAddress (b : Blade) (u : Nat) : Bool := b.active && u < 2

/-- The uplink answers for an IPv4 address. -/
def Blade.owns4 (b : Blade) (u : Nat) (a : BitVec 32) : Bool :=
  a ≠ 0 && (b.reg (rUPLINK u + 0x10) = a || (b.servesAddress u && b.reg (rUPLINK 0 + 0x18) = a))

/-- The uplink answers for an IPv6 address. -/
def Blade.owns6 (b : Blade) (u : Nat) (a : BitVec 128) : Bool :=
  a ≠ 0 && (b.address6 (rUPLINK u + 0x20) = a || (b.servesAddress u && b.address6 (rUPLINK 0 + 0x40) = a))

/-- The uplink answers for an address of either protocol. -/
def Blade.owns (b : Blade) (u : Nat) (a : BitVec 128) : Bool :=
  if a.toNat / 2 ^ 32 = 0xFFFF then b.owns4 u (BitVec.ofNat 32 a.toNat) else b.owns6 u a

/-- The uplink takes frames with a tag, or without one (R519). -/
def Blade.tagFits (b : Blade) (u : Nat) (vlan : Option (BitVec 12)) : Bool :=
  if b.flag (rUPLINK u) 1 then vlan.map (·.toNat) = some (b.field (rUPLINK u) 2 12) else vlan.isNone

/-- A frame arrives at an uplink; the flag says that the uplink takes it. One of a struck or disabled uplink, one with the wrong
tag, and an IP fragment or a packet with options or extension headers are discarded and counted. -/
def Blade.frameIn (b : Blade) (u : Nat) (vlan : Option (BitVec 12)) (fragment : Bool) : Bool × Blade :=
  if b.flt.fenced then (false, b)
  else
    let b := b.count64 (rUPLINK u + 0x60)
    if b.uplinkOn u && b.tagFits u vlan && !fragment then (true, b) else (false, b.count (rUPLINK u + 0x70))

/-- A frame as an uplink sends it, tagged where the uplink tags (R519). -/
def Blade.asSent (b : Blade) (u : Nat) (o : Output) : Output :=
  if b.flag (rUPLINK u) 1 then .tagged (BitVec.ofNat 12 (b.field (rUPLINK u) 2 12)) o else o

/-- A frame leaves by an uplink and counts there; a fenced blade sends none (R521, R539). -/
def Blade.uplinkSend (b : Blade) (u : Nat) (o : Output) : Blade :=
  if b.flt.fenced then b else (b.count64 (rUPLINK u + 0x68)).out (b.asSent u o)

/-- The state of an uplink's slave clock (Table 11.21): disabled where it does not run, listening until a master is heard. -/
def Blade.ptpState (b : Blade) (u : Nat) : Nat :=
  if b.uplinkOn u && b.flag (rUPLINK u) 14 then max 1 (b.field (rUPLINK u + 4) 2 3) else 0

/-- The slave clock of an uplink hears a master no longer. -/
def Blade.ptpDrop (b : Blade) (u : Nat) : Blade := b.setField (rUPLINK u + 4) 2 3 0

/-- The lowest-numbered uplink in state SLAVE (R523). -/
def Blade.slaveUplink (b : Blade) : Option UplinkId :=
  if b.ptpState 0 = 3 then some 0
  else if b.ptpState 1 = 3 then some 1
  else if b.ptpState 2 = 3 then some 2
  else none

end Sys2Proof.Machine
end

