-- ==== Sys2Proof/Machine/Reply.lean ====
section
/-! DEFINITION. Replies of the command engine (R471 to R474, R478, R479, R483, R484). -/

namespace Sys2Proof.Machine

/-! ## Statuses (Table 11.23) -/

def stOK : Nat := 0x00
def stBAD_OPCODE : Nat := 0x01
def stBAD_LENGTH : Nat := 0x02
def stBAD_AUTH : Nat := 0x03
def stBAD_ALIGN : Nat := 0x04
def stLOCKED : Nat := 0x05
def stNOT_STRUCK : Nat := 0x06
def stBUSY : Nat := 0x07
def stALREADY_COMPLETE : Nat := 0x08
def stNO_SUCH : Nat := 0x09
def stFAILED : Nat := 0x0A
def stSTANDBY : Nat := 0x0B
def stREPLAY : Nat := 0x0C
def stDENIED : Nat := 0x0D

/-! ## Key slots -/

def KeySlot.init : KeySlot := { key := [], last := 0, floor := 0, request := [], reply := [] }

def Blade.key (b : Blade) (s : Nat) : KeySlot := mget KeySlot.init s b.eng.keys

def Blade.setKeySlot (b : Blade) (s : Nat) (v : KeySlot) : Blade :=
  { b with eng.keys := mput KeySlot.init s v b.eng.keys }

/-- A slot holds a key unless it is empty (R476). -/
def KeySlot.present (v : KeySlot) : Bool := !v.key.isEmpty

/-- No slot holds a key (R475). -/
def Blade.provisioning (b : Blade) : Bool := !((List.range 4).any fun s => (b.key s).present)

/-! ## Packets (R472) -/

def ReplyTo.tagged (d : ReplyTo) : Bool := d.flags.getLsbD 1
def ReplyTo.slot (d : ReplyTo) : Nat := bits d.flags.toNat 2 2

/-- The bytes of a reply, tagged in the key its request came in (R474); to a request that fails check 2 or 3 it carries
no tag. -/
def ReplyTo.bytes (d : ReplyTo) (tagged : Bool) (status : Nat) (data : List Byte) : List Byte :=
  let params := leBytes 4 status ++ data
  let flags := (if tagged then d.flags else d.flags &&& 0xFFFD) ||| 1
  let body := leBytes 4 0x4D434C50 ++ [1, d.opcode] ++ leBytes 2 flags.toNat ++ leBytes 4 d.sequence.toNat ++
    leBytes 4 params.length ++ params
  if tagged then body ++ authTag d.key body else body

/-- The uplink of a transport; none for USB. -/
def uplinkOf (t : Transport) : Option Nat :=
  match t with
  | .uplink0 => some 0
  | .uplink1 => some 1
  | .management => some 2
  | .usb => none

/-- A packet leaves by the transport its request came by; an uplink that is struck or disabled sends nothing (R471, R469,
R496). -/
def Blade.sendReply (b : Blade) (d : ReplyTo) (bytes : List Byte) : Blade :=
  match uplinkOf d.transport with
  | some u => if b.uplinkOn u then b.uplinkSend u (.reply d bytes) else b
  | none => b.out (.reply d (leBytes 2 bytes.length ++ bytes))

/-- The reply to a slot's last accepted sequence is kept (R478); every accepted sequence goes to the partner with its reply
before that leaves (R479). -/
def Blade.keepReply (b : Blade) (d : ReplyTo) (bytes : List Byte) : Blade :=
  let v := b.key d.slot
  let b := if d.tagged && v.last = d.sequence && v.request = d.request then b.setKeySlot d.slot { v with reply := bytes } else b
  if d.tagged && b.mirrors then
    b.sendOver (.mirror (.sequence ⟨d.slot % 4, Nat.mod_lt _ (by decide)⟩ d.sequence d.request bytes))
  else b

/-- A key slot goes to the partner as it stands (R476, R479). -/
def Blade.mirrorKey (b : Blade) (s : Fin 4) : Blade := b.sendOver (.mirror (.key s (b.key s.val)))

/-- A reply leaves as soon as it is formed. -/
def Blade.answer (b : Blade) (d : ReplyTo) (status : Nat) (data : List Byte := []) : Blade :=
  let bytes := d.bytes d.tagged status data
  (b.keepReply d bytes).sendReply d bytes

/-- A reply to a request whose sequence was not accepted (R478). -/
def Blade.answerReplay (b : Blade) (d : ReplyTo) : Blade := b.sendReply d (d.bytes d.tagged stREPLAY [])

/-- A reply without tag, to a request that fails check 2 or 3 (R474). -/
def Blade.answerUntagged (b : Blade) (d : ReplyTo) (status : Nat) : Blade :=
  b.sendReply d (d.bytes false status [])

/-- A reply that the commit of the present frame releases (R484). -/
def Blade.answerAtCommit (b : Blade) (d : ReplyTo) (status : Nat) (data : List Byte := []) : Blade :=
  { b with eng.heldReplies := b.eng.heldReplies ++
      [{ frame := b.frame, dest := d, status := BitVec.ofNat 8 status, data := data }] }

/-- The commit of frames up to n releases their replies. -/
def Blade.replyCommit (b : Blade) (n : Word32) : Blade :=
  let now := b.eng.heldReplies.filter fun r => frameLe r.frame n
  let b := { b with eng.heldReplies := b.eng.heldReplies.filter fun r => !frameLe r.frame n }
  now.foldl (fun b r => b.answer r.dest r.status.toNat r.data) b

/-! ## Deferred commands (R483) -/

/-- A command waits for the end of its operation. -/
def Blade.defer (b : Blade) (d : ReplyTo) (operand : Nat) (data : List Byte := []) : Blade :=
  { b with eng.deferred := b.eng.deferred ++ [{ dest := d, operand := operand, data := data }] }

/-- The deferred command of an opcode. -/
def Blade.deferredOf (b : Blade) (opcode : Byte) : Option Deferred := b.eng.deferred.find? (·.dest.opcode = opcode)

def Blade.undefer (b : Blade) (opcode : Byte) : Blade :=
  { b with eng.deferred := b.eng.deferred.filter (·.dest.opcode ≠ opcode) }

/-- Whether a deferred command of an opcode must be refused with BUSY (R483). -/
def Blade.deferBusy (b : Blade) (opcode : Byte) : Bool :=
  8 ≤ b.eng.deferred.length || (b.deferredOf opcode).isSome

/-- The deferred command of an opcode is answered. -/
def Blade.finishDeferred (b : Blade) (opcode : Byte) (status : Nat) (data : List Byte := []) : Blade :=
  match b.deferredOf opcode with
  | some d => (b.undefer opcode).answer d.dest status data
  | none => b

/-- A command that waited is answered, whatever kept it. -/
def Blade.answerDone (b : Blade) (d : ReplyTo) (status : Nat) : Blade := (b.undefer d.opcode).answer d status

/-- The deferred at-commit command of an opcode is answered at the commit of the present frame. -/
def Blade.finishAtCommit (b : Blade) (opcode : Byte) (status : Nat) (data : List Byte := []) : Blade :=
  match b.deferredOf opcode with
  | some d => (b.undefer opcode).answerAtCommit d.dest status data
  | none => b

end Sys2Proof.Machine
end

