-- ==== Sys2Proof/Machine/Dump.lean ====
section
/-! DEFINITION. Recorder dumps (R549 to R551, Table 12.12). -/

namespace Sys2Proof.Machine

/-- A dump's header and its bytes. -/
def dumpHeader (d : DumpBlock) : List Byte :=
  leBytes 4 0x44524543 ++ [d.blade, d.cause] ++ leBytes 2 d.head.toNat ++ leBytes 4 d.frame.toNat ++
    leBytes 4 d.first.toNat ++ leBytes 4 d.lost.toNat ++ leBytes 44 0

def dumpRecords (d : DumpBlock) (first n : Nat) : List Byte :=
  (List.range n).flatMap fun i => leBytes 32 (d.records.getD (first + i) 0).toNat

/-- A carrier in service, or one that is being resilvered, takes every new write (R586). -/
def Blade.carrierTakes (b : Blade) (k : Nat) : Bool := (b.carrier k).state = .inService || (b.carrier k).state = .resilvering

/-- A region of the carriers: its byte offset and its size (Table 13.10). -/
structure CarrierRegion where
  offset : Nat
  size : Nat

def regionParked : CarrierRegion := { offset := 200000000000, size := 16000000000 }
def regionDumps : CarrierRegion := { offset := 216000000000, size := 4000000000 }
def regionImages : CarrierRegion := { offset := 220000000000, size := 8000000000 }

/-- A carrier takes bytes at an offset. -/
def Blade.carrierStores (bytes : List Byte) (offset : Nat) (b : Blade) (k : Fin 2) : Blade :=
  if b.carrierTakes k.val then b.out (.carrierWrite k offset bytes) else b

/-- Bytes are written to the carriers, at a place of their region that is a free value. -/
def Blade.storeRegion (b : Blade) (r : CarrierRegion) (bytes : List Byte) : Blade :=
  let p := b.draw (r.size - bytes.length + 1)
  [0, 1].foldl (fun b k => b.carrierStores bytes (r.offset + p.1) k) p.2

/-- The queue of dumps is hoisted and holds no packet. -/
def Blade.dumpQueueFree (b : Blade) : Bool :=
  !b.struck (fnQueue 8194) && !b.storesWait 8194 && !b.pool.packets.any fun e => e.2.queue.toNat = 8194

/-- The packets of a dump in queue 8,194, which wait for cells where none is free (R374); a dump that cannot go there is
counted. -/
def Blade.dumpToQueue (b : Blade) (d : DumpBlock) : Blade :=
  if b.dumpQueueFree then
    let parts := dumpHeader d :: (List.range 32).map fun i => dumpRecords d (128 * i) 128
    parts.foldl (fun b p => (b.postPacket .recorder 8194 p).getD (b.holdStore 8194 (.packet .recorder p))) b
  else b.setField rREC 6 8 (min (b.field rREC 6 8 + 1) 255)

/-- One contained or fatal FAULT or TIMER_ESC record of a dump that no notice has carried. -/
def Blade.noticeRecord (carried : Option Word32) (b : Blade) (w : BitVec 256) : Blade :=
  let n := w.toNat
  let type := bits n 80 8
  let cls := bits n 90 2
  let early := (carried.map fun f => frameLe (BitVec.ofNat 32 n) f).getD false
  if (type = recFAULT || type = recTIMER) && 1 ≤ cls && !early then b.notify 9 (leBytes 2 (bits n 64 11) ++ leBytes 1 cls)
  else b

/-- A dump is written: to the carriers, to its queue, and its uncarried records to hosts. -/
def Blade.writeDump (b : Blade) (d : DumpBlock) (carried : Option Word32) : Blade :=
  let bytes := dumpHeader d ++ dumpRecords d 0 4096
  let b := if b.anyCarrier then
      (b.storeRegion regionDumps bytes).count (rREC + 0x10)
    else b
  d.records.foldl (Blade.noticeRecord carried) (b.dumpToQueue d)

/-- The active blade's own ring has frozen: none of its records is uncarried. -/
def Blade.writeOwnDump (b : Blade) : Blade :=
  let b := b.checkRing (List.range 4096)
  b.writeDump b.ownDump (some b.frame)

end Sys2Proof.Machine
end

