-- ==== Sys2Proof/Machine/Parking.lean ====
section
/-! DEFINITION. Stall detection, parking and unparking (chapter 3), and a context's record as memory and the hosts read it
(Table 2.5). -/

namespace Sys2Proof.Machine

/-! ## The context record -/

/-- A context's state as Table 2.5 numbers it. -/
def CtxState.code : CtxState → Nat
  | .free => 0
  | .live => 1
  | .draining => 2
  | .closed => 3
  | .parked => 4
  | .damaged => 5

/-- The 256 bytes of a context record (Table 2.5). -/
def Ctx.bytes (x : Ctx) : List Byte :=
  let w := x.state.code + 8 * b2n x.causeCancel + 16 * b2n x.damagedBit + 32 * b2n x.slotB + 64 * x.budget.toNat +
    512 * b2n x.flow.isSome + 1024 * (x.flow.getD 0).toNat
  let sums := fun l : List Word64 => (List.range 4).flatMap fun i => leBytes 8 (l.getD i 0).toNat
  leBytes 4 w ++ leBytes 4 x.excNode.toNat ++ leBytes 4 x.balance.toNat ++ leBytes 4 x.openFrame.toNat ++
    leBytes 8 x.tokensIn.toNat ++ leBytes 8 x.consumed.toNat ++ leBytes 8 x.cancelled.toNat ++
    leBytes 8 x.discarded.toNat ++ leBytes 4 x.damage.toNat ++ leBytes 4 x.stallLimit.toNat ++
    leBytes 8 x.trailSeq.toNat ++ sums x.adjSum ++ sums x.cancelSum ++ sums x.discardSum ++ sums x.trapSum ++
    leBytes 4 x.parent.toNat ++ leBytes 4 x.closeFrame.toNat ++ leBytes 56 0

/-- Contexts in a state, as CTX_FREE, CTX_LIVE, CTX_DAMAGED and CTX_PARKED count them. -/
def Blade.ctxCount (b : Blade) (st : CtxState) : Nat := (mkeys (fun _ (x : Ctx) => x.state = st) b.led.contexts).length

/-! ## Global stall (R160 to R164) -/

/-- A token that arrives for a context waits for want of staging (R180). -/
def Blade.lacksStaging (b : Blade) (t : Token) : Bool :=
  (b.capturing t.context.toNat || (b.ctx t.context.toNat).state = .parked) && b.captureWaits t.context.toNat

/-- The token at the head of a unit's input is held for want of staging (R180). -/
def Blade.headWaits (b : Blade) : Bool :=
  (b.net.home.any fun e => e.2.head?.any b.lacksStaging) || (b.net.delayIn.head?.any fun r => b.lacksStaging r.token) ||
    b.net.release.head?.any fun r => match r with
      | .emission t => b.lacksStaging t
      | .marker _ _ => false

/-- Blocked tokens exist (R160): of a blocked set, at the senders of a tile whose set-wait buffer is full, or for want of
staging. -/
def Blade.blockedTokens (b : Blade) : Bool :=
  (b.net.sets.any fun e => e.2.blocked) ||
    (b.net.tiles.any fun e => 16 ≤ e.2.waiting.length && !(mget [] e.1 b.net.home).isEmpty) || b.headWaits

/-- Some tile executes a firing. -/
def Blade.executing (b : Blade) : Bool := b.net.tiles.any fun e => e.2.firing.isSome

/-- The tick's count of stalled frames (R161, R162, R164); it stands still while a parking or unparking is in progress. -/
def Blade.countStall (b : Blade) : Blade :=
  let stalled := !b.net.progressed && !b.executing && b.blockedTokens
  let b := { b with net.progressed := false, net.stallUnresolved := b.net.stallUnresolved && stalled }
  if b.led.parking.isSome then b
  else { b with net.stallFrames := if stalled then b.net.stallFrames + 1 else 0 }

/-- A firing of a context is in progress. -/
def Blade.hasFiring (b : Blade) (c : Nat) : Bool :=
  b.net.tiles.any fun e => (e.2.firing.toList ++ e.2.reruns).any (·.context.toNat = c)

/-- The release unit holds, or has on its channel, an emission to a context. -/
def Blade.heldEmission (b : Blade) (c : Nat) : Bool :=
  (b.ord.flows.any fun e => e.2.held.any fun h => !h.cancelled && h.token.context.toNat = c) ||
    b.net.release.any fun r => match r with
      | .emission t => t.context.toNat = c
      | .marker _ _ => false

/-- A context that the monitor may park (R163). -/
def Blade.parkable (b : Blade) (c : Nat) : Bool :=
  let x := b.ctx c
  256 ≤ c && x.state = .live && x.balance ≠ 0 && !b.hasFiring c && !b.heldEmission c

/-- Whether a context goes before another under R163. -/
def Blade.parkBefore (b : Blade) (c d : Nat) : Bool :=
  let x := b.ctx c
  let y := b.ctx d
  if x.budget ≠ y.budget then y.budget.toNat < x.budget.toNat
  else if x.openFrame ≠ y.openFrame then y.openFrame.toNat < x.openFrame.toNat
  else d < c

/-- The context the monitor parks (R163). -/
def Blade.parkChoice (b : Blade) : Option Nat :=
  (mkeys (fun c _ => b.parkable c) b.led.contexts).foldl
    (fun r c => match r with
      | none => some c
      | some d => if b.parkBefore c d then some c else some d) none

/-! ## The parked region (R177 to R180) -/

/-- What an image takes of the region: its reservation, or more blocks when its records need them. -/
def ParkImage.usage (v : ParkImage) : Nat := max v.reserved (if v.stored then imageBytes v.written else 0)

def parkedRegion : Nat := 16000000000

def Blade.parkedUsed (b : Blade) : Nat := msum ParkImage.usage b.led.parked

/-- R179. -/
def Blade.parkFits (b : Blade) (c : Nat) : Bool :=
  b.parkedUsed + (b.ctx c).balance.toNat * 32 + 4448 ≤ parkedRegion

/-- A parked-token record (Table 3.10). -/
def ParkRecord.bytes (r : ParkRecord) : List Byte :=
  (r.token.words.flatMap fun w => leBytes 4 w.toNat) ++ [r.location, r.list] ++ leBytes 4 r.remaining.toNat ++ leBytes 6 0

/-- A park image's header (Table 3.9) and its bytes as far as the region holds them: header, context record, records, and the
header again at the end of the padding (R177). -/
def Blade.parkHeader (b : Blade) (c : Nat) : List Byte :=
  let v := b.image c
  let x := b.ctx c
  leBytes 4 0x4B524150 ++ leBytes 2 c ++ leBytes 2 1 ++ leBytes 4 v.parkFrame.toNat ++ leBytes 4 v.written ++
    leBytes 8 (imageBytes v.written) ++ leBytes 2 v.flowNext.toNat ++
    leBytes 2 (match x.flow with
      | some f => f.toNat + 0x8000
      | none => 0) ++ leBytes 36 0

def Blade.parkBytes (b : Blade) (c : Nat) : List Byte :=
  let v := b.image c
  let h := b.parkHeader c
  let n := v.written
  h ++ (b.ctx c).bytes ++ ((v.records.take n).flatMap ParkRecord.bytes) ++
    List.replicate (imageBytes n - 384 - 32 * n) 0 ++ h

/-- Records that an image may have in the region within so many bytes of it. -/
def imageRoom (bytes : Nat) : Nat := (bytes / 4096 * 4096 - 384) / 32

/-- The parking of an image's context has completed in a committed frame. -/
def Blade.parkEnded (b : Blade) (n : Word32) (c : Nat) : Bool := (b.ctx c).state = .parked && frameLe (b.image c).parkFrame n

/-- The records of an image that have committed move to the region, so far as its reservation and the free blocks go (R178,
R180), and so does what its completion leaves in its header and record (R176, R177); the carriers in service take the image as
it then stands. -/
def Blade.parkWrite (b : Blade) (n : Word32) (c : Nat) : Blade :=
  let v := b.image c
  let ended := b.parkEnded n c
  let k := (v.records.filter fun r => frameLe r.frame n).length
  let w := min k (imageRoom (parkedRegion + v.usage - b.parkedUsed))
  if v.written < w || (ended && !v.final) then
    let b := b.setImage c { v with written := max v.written w, stored := true, final := ended }
    b.storeRegion regionParked (b.parkBytes c)
  else b

/-- At the commit of frames up to n, what was captured in them moves from staging to the region (R178). -/
def Blade.parkCommit (b : Blade) (n : Word32) : Blade :=
  if b.anyCarrier then
    (mkeys (fun c (x : Ctx) => x.state = .parked || (b.image c).written < (b.image c).records.length) b.led.contexts).foldl
      (fun b c => b.parkWrite n c) b
  else b

/-! ## Capture (R174, R175) -/

/-- What a unit holds of a context being parked. -/
inductive Holding where
  | ready (t : Nat) (e : ReadyEntry)
  | spilled (t k : Nat) (e : MatchEntry)
  | way (t k : Nat) (e : MatchEntry)
  | search (t k : Nat) (tok : Token)
  | waiting (t : Nat) (tok : Token)
  | home (t : Nat) (tok : Token)
  | barrier (e : Nat × Token)
  | port44 (i : Port44Item)
  | input (r : DelayRequest)
  | delayed (n : Nat) (e : DelayEntry)

/-- The records it makes. -/
def Holding.records : Holding → Nat
  | .ready _ e => e.tokens.length
  | .spilled _ _ e => e.tokens.length
  | .way _ _ e => e.tokens.length
  | _ => 1

/-- The entries of a tile's ready queue in dispatch order, the prefetched one first (R265, R266). -/
def Blade.dispatchOrder (b : Blade) (m : Memory) (t : Nat) : List ReadyEntry :=
  let x := b.tile t
  let first := x.ready.filter fun e => x.prefetched = some e.age
  let es := x.ready.filter fun e => x.prefetched ≠ some e.age
  first ++ (List.range 8).flatMap fun lvl => es.filter fun e => b.level m e = lvl

/-- The delay unit's input is stopped by a full list (R289). -/
def Blade.delayStopped (b : Blade) : Bool := b.net.delayIn.head?.any fun r => b.delayFull r.list.val

/-- What the units hold of a context, in the order of R175. Tokens on their way count only where their unit has stopped; the
others are captured as they arrive. Arrival order is kept unit by unit (log 87). -/
def Blade.holdings (b : Blade) (m : Memory) (c : Nat) : List Holding :=
  let ts := List.range 34
  let mine := fun k : Token => k.context.toNat = c
  let ready := ts.flatMap fun t => ((b.dispatchOrder m t).filter (·.context = c)).map (.ready t)
  let entries := b.net.sets.flatMap fun e =>
    let t := e.1 / 512
    let k := e.1 % 512
    ((e.2.stack.filter fun x => x.presence ≠ 0 && x.context.toNat = c).map (.spilled t k)) ++
      ((e.2.ways.filter (·.context.toNat = c)).map (.way t k))
  let waits := ts.flatMap fun t =>
    (b.net.sets.flatMap fun e =>
      if e.1 / 512 = t then
        match e.2.lock with
        | some (.search k) => if mine k then [.search t (e.1 % 512) k] else []
        | _ => []
      else []) ++
    (((b.tile t).waiting.filter mine).map (.waiting t)) ++
    (if 16 ≤ (b.tile t).waiting.length || b.readyFull t then ((mget [] t b.net.home).filter mine).map (.home t) else [])
  let input := if b.delayStopped then (b.net.delayIn.filter fun r => mine r.token).map .input else []
  let delays := [0, 1, 2, 3].flatMap fun n =>
    (((b.delay n).hold ++ (b.delay n).all).filter fun e => mine e.token).map (.delayed n)
  ready ++ entries ++ waits ++ ((b.net.barrierHeld.filter fun e => mine e.2).map .barrier) ++
    ((b.net.port44.filter fun i => mine i.token).map .port44) ++ input ++ delays

/-- A matching entry's tokens are captured, what cannot be read being lost. -/
def Blade.captureMatch (b : Blade) (m : Memory) (t k : Nat) (spilled : Bool) (e : MatchEntry) : Blade :=
  let r := b.readEntry m t k spilled e
  match r.1 with
  | some e => e.tokens.foldl (fun b x => b.capture x 1 0 0) r.2
  | none => r.2

/-- A ready entry is captured, its reservation given up; one that cannot be read is lost (R268). -/
def Blade.captureReady (b : Blade) (m : Memory) (t : Nat) (e : ReadyEntry) : Blade :=
  if e.unreadable then b.dropEntry m t e Blade.cancelToken
  else
    let b := b.takeEntry t e.age
    let b := match e.sequence with
      | some (f, s) =>
        let v := b.flow f.toNat
        b.setFlow f.toNat { v with booked := v.booked.filter (·.1 ≠ s) }
      | none => b
    e.tokens.foldl (fun b k => b.capture k 0 0 0) b

/-- The spill engine captures one holding (R174). -/
def Blade.captureOne (b : Blade) (m : Memory) : Holding → Blade
  | .ready t e => b.captureReady m t e
  | .spilled t k e =>
    let s := b.mset t k
    (b.putSet t k { s with stack := modFirst (fun x => x = e) (fun x => { x with presence := 0 }) s.stack }).captureMatch m t k true e
  | .way t k e =>
    let s := b.mset t k
    (b.setMset t k { s with ways := dropFirst (fun x => x = e) s.ways }).captureMatch m t k false e
  | .search t k tok => ((b.setMset t k { b.mset t k with lock := none }).opsDown t).capture tok 2 0 0
  | .waiting t tok =>
    let x := b.tile t
    let s := b.mset t tok.set
    let b := if s.blocked then b.setMset t tok.set { s with blocked := false } else b
    (b.setTile t { x with waiting := dropFirst (fun k => k = tok) x.waiting }).capture tok 2 0 0
  | .home t tok =>
    ({ b with net.home := mput [] t (dropFirst (fun k => k = tok) (mget [] t b.net.home)) b.net.home } : Blade).capture tok 2 0 0
  | .barrier e =>
    ({ b with net.barrierHeld := dropFirst (fun k => k = e) b.net.barrierHeld } : Blade).capture e.2 2 0 0
  | .port44 i => ({ b with net.port44 := dropFirst (fun k => k = i) b.net.port44 } : Blade).capture i.token 2 0 0
  | .input r => ({ b with net.delayIn := dropFirst (fun k => k = r) b.net.delayIn } : Blade).capture r.token 2 0 0
  | .delayed n e =>
    let d := b.delay n
    let b := b.setDelay n { d.layOut (dropFirst (fun x => x = e) d.all) with hold := dropFirst (fun x => x = e) d.hold }
    if e.unreadable then (b.raiseFree srcDelayEcc).discard m e.token discardLOST_STORAGE
    else b.capture e.token 3 n e.left

/-- Whether capture of a parking has stopped with tokens left (R178). -/
def Blade.pauseCapture (b : Blade) (v : Bool) : Blade :=
  { b with led.parking := b.led.parking.map fun p : Parking => { p with paused := v } }

/-- Holdings are captured in order until one finds no room in staging (R178). -/
def Blade.captureList (m : Memory) : List Holding → Blade → Blade
  | [], b => b
  | x :: xs, b => if b.stagingShort x.records then b.pauseCapture true else Blade.captureList m xs (b.captureOne m x)

/-- The spill engine captures what the units hold of a context, in the order of R175; tokens that waited behind it go on. -/
def Blade.captureAll (b : Blade) (m : Memory) (c : Nat) : Blade :=
  let b := (Blade.captureList m (b.holdings m c) (b.pauseCapture false)).endBarrier
  (List.range 34).foldl (fun b t => if (b.tile t).waiting.isEmpty then b else b.retryWaiting m t) b

/-- The spill sweep captures what a set holds of a context being parked (R150). -/
def Blade.captureSet (b : Blade) (m : Memory) (c t k : Nat) : Blade :=
  Blade.captureList m ((b.holdings m c).filter fun x => match x with
    | .spilled t' k' _ => t' = t && k' = k
    | _ => false) b

/-- Tokens of a context outside its park image. -/
def Blade.outside (b : Blade) (c : Nat) : Nat :=
  let mine := fun t : Token => t.context.toNat = c
  msum (fun l : List Token => (l.filter mine).length) b.net.home +
    (b.net.release.filter fun r => match r with
      | .emission t => mine t
      | .marker _ _ => false).length + (b.net.delayIn.filter fun r => mine r.token).length +
    (b.net.barrierHeld.filter fun e => mine e.2).length + (b.net.port44.filter fun i => mine i.token).length +
    msum (fun t : Tile => (t.ready.map fun e => (e.tokens.filter mine).length).sum + (t.waiting.filter mine).length +
      ((t.firing.toList ++ t.reruns).map fun f => (f.inputs.filter mine).length).sum) b.net.tiles +
    msum (fun s : MatchSet => (((s.ways ++ s.stack).filter (·.context.toNat = c)).map
      fun e => presenceCount e.presence).sum + (match s.lock with
        | some (.search t) => b2n (mine t)
        | _ => 0)) b.net.sets + b.delayCount c +
    msum (fun f : Flow => (f.held.filter fun h => !h.cancelled && mine h.token).length) b.ord.flows

/-! ## Parking (R172 to R182) -/

/-- The parking of a context begins; its space is reserved. -/
def Blade.startParking (b : Blade) (m : Memory) (c : Nat) (cause : ParkCause) : Blade :=
  let b := { b with led.parking := some { context := BitVec.ofNat 16 c, cause := cause, unparking := false, paused := false,
                                             waiting := [] } }
  let b := b.setImage c { ParkImage.init with reserved := (b.ctx c).balance.toNat * 32 + 4448 }
  b.captureAll m c

/-- GLOBAL_STALL (R162 to R164). DESIGN CHOICE (log 87): at the limit with park_enable = 0 the count starts again at 0, and nothing
is raised. -/
def Blade.globalStall (b : Blade) (m : Memory) : Blade :=
  let n := b.net.stallFrames
  if b.led.parking.isSome || n < b.field (rMSTORE + 8) 0 4 || n = 0 then b
  else
    let b := { b with net.stallFrames := 0 }
    if !b.flag rMSTORE 0 then b
    else
      match b.parkChoice with
      | some c =>
        if b.parkFits c then b.startParking m c .monitor
        else { b with net.stallUnresolved := true }.notify 1 (leBytes 1 n)
      | none => { b with net.stallUnresolved := true }.notify 1 (leBytes 1 n)

/-- A requested parking that cannot proceed is answered, or dropped (R95, R179, R182). -/
def Blade.refuseParking (b : Blade) (cause : ParkCause) : Blade :=
  match cause with
  | .command _ => b.finishAtCommit 0x58 stFAILED
  | _ => b

/-- A request may go on: its context is not LIVE, or has no firing in progress and no held emission (R173). -/
def Blade.parkDue (b : Blade) (c : Nat) : Bool :=
  (b.ctx c).state ≠ .live || (!b.hasFiring c && !b.heldEmission c)

/-- PARKING_BEGIN: the first request that may go on. -/
def Blade.parkingBegin (b : Blade) (m : Memory) : Blade :=
  if b.led.parking.isSome then b
  else
    match b.led.parkRequests.find? (fun r => b.parkDue r.1.toNat) with
    | none => b
    | some r =>
      let c := r.1.toNat
      let b := { b with led.parkRequests := dropFirst (· = r) b.led.parkRequests }
      if (b.ctx c).state = .live && b.parkFits c then b.startParking m c r.2 else b.refuseParking r.2

/-- One record goes back into the network by the spill engine's port, or is lost (R184, R185). DESIGN CHOICE (log 87): a record of
location 3 with no time remaining enters its delay list for 1 tick. -/
def Blade.resend (b : Blade) (m : Memory) (r : ParkRecord) (readable : Bool) : Blade :=
  if !readable then b.discard m r.token discardLOST_STORAGE
  else if r.location = 3 then
    b.emitDelayed 45 { token := r.token, list := BitVec.toFin (r.list.setWidth 2), amount := max 1 r.remaining.toNat }
  else b.sendHome m 45 r.token

/-- An image's records go back in record order; the blocks in `lost` cannot be read. The image is gone. -/
def Blade.resendImage (b : Blade) (m : Memory) (c : Nat) (lost : List Nat) : Blade :=
  let v := b.image c
  v.records.zipIdx.foldl (fun b r => b.resend m r.1 (v.readable lost r.2)) ((b.reportLost v lost).setImage c ParkImage.init)

/-- A parking whose context has left LIVE meanwhile ends without effect on it (R84): its captured tokens go back. -/
def Blade.abandonParking (b : Blade) (m : Memory) (c : Nat) (cause : ParkCause) : Blade :=
  let r := b.readImage (b.image c)
  (r.2.resendImage m c r.1).refuseParking cause

/-- PARKING_COMPLETE (R176, R182, R186). DESIGN CHOICE (log 80): the header's flow_next holds the flow's next sequence; the spec
names both the head and the next sequence as kept there. -/
def Blade.parkingComplete (b : Blade) (m : Memory) : Blade :=
  match b.led.parking with
  | none => b
  | some p =>
    let c := p.context.toNat
    if p.unparking || b.outside c ≠ 0 then b
    else
      let x := b.ctx c
      let ended : Blade := { b with led.parking := none }
      if x.state ≠ .live then ended.abandonParking m c p.cause
      else
        let b := ended.setCtx c { x with state := .parked, changed := true }
        let v := b.image c
        let next := match x.flow with
          | some f => (b.flow f.toNat).next
          | none => 0
        let b := b.setImage c { v with parkFrame := b.frame, flowNext := next, final := false }
        let b := b.count (rMSTORE + 0x28)
        let b := b.notify 2 (leBytes 4 c ++ leBytes 4 v.records.length)
        match p.cause with
        | .command _ => b.finishAtCommit 0x58 stOK
        | _ => b

/-- PARK_STAGING_RESUME: capture goes on once staging has room (R178). -/
def Blade.parkResume (b : Blade) (m : Memory) : Blade :=
  match b.led.parking with
  | some p => if p.unparking || b.stagingFull then b else b.captureAll m p.context.toNat
  | none => b

/-- SPILL_SWEEP of a stack (R150): entries of cancelled contexts go, those of a context being parked are captured. -/
def Blade.spillSweep (b : Blade) (m : Memory) (t k : Nat) : Blade :=
  match b.led.parking with
  | some p => if p.unparking then b.sweepStack m t k else (b.captureSet m p.context.toNat t k).sweepStack m t k
  | none => b.sweepStack m t k

/-- A PARK command whose parking has ended otherwise, by a CANCEL, is answered (R181, R182). -/
def Blade.parkSettle (b : Blade) : Blade :=
  let isCommand := fun c : ParkCause => match c with
    | .command _ => true
    | _ => false
  if (b.deferredOf 0x58).isSome && !(b.led.parking.any fun p => isCommand p.cause) &&
      !(b.led.parkRequests.any fun r => isCommand r.2) then b.finishAtCommit 0x58 stFAILED
  else b

/-! ## Unparking (R183 to R186) -/

/-- What an unparking re-sends waits for the trail buffer (R658). -/
def Blade.resendHolds (b : Blade) (m : Memory) (c : Nat) : Bool :=
  (b.image c).records.any (fun r => b.homeHolds m r.token) ||
    b.led.parking.any fun p => p.waiting.any fun e => b.homeHolds m e.token

/-- UNPARK_COMPLETE (R184 to R186): the image is read. An unparking that a CANCEL has overtaken fails; so does one that can
read neither copy of the header, its context PARKED and what arrived for it meanwhile joining the image (R176). -/
def Blade.unparkComplete (b : Blade) (m : Memory) : Blade :=
  match b.led.parking with
  | none => b
  | some p =>
    let c := p.context.toNat
    if !p.unparking || b.resendHolds m c then b
    else
      let held := b
      let b := { b with led.parking := none }
      if (b.ctx c).state ≠ .parked then b.finishAtCommit 0x59 stFAILED
      else
        let v := b.image c
        let r := b.readImage v
        let b := r.2
        if v.headless r.1 then
          if b.stagingShort p.waiting.length then held
          else (p.waiting.foldl (fun b e => b.capture e.token 5 0 0) b).finishAtCommit 0x59 stFAILED
        else
          let lost := v.lostCount r.1
          let b := b.modCtx c fun x => { x with state := if x.damagedBit then .damaged else .live, changed := true }
          let b := b.resendImage m c r.1
          let b := p.waiting.foldl (fun b e => match e with
            | .now t => b.sendHome m 45 t
            | .delayed d => b.emitDelayed 45 d) b
          let b := b.sendControl m 45 c 0x11 0 lost
          let b := b.count (rMSTORE + 0x2C)
          let b := b.notify 3 (leBytes 4 c ++ leBytes 4 v.records.length ++ leBytes 4 lost)
          b.finishAtCommit 0x59 stOK

/-! ## Per-context stall (R165 to R171) -/

/-- A stalled context (R166). -/
def Blade.stalled (b : Blade) (c : Nat) : Bool :=
  let x := b.ctx c
  (x.state = .live || x.state = .damaged) && x.stallLimit ≠ 0 && b.delayCount c < x.balance.toNat &&
    x.stallLimit.toNat ≤ (b.frame - x.lastActive).toNat && !x.reported

/-- At the tick that ends a frame the monitor examines a quarter of the contexts; those stalled wait, in context-number order,
for their reports (R167, R168). -/
def Blade.findStalled (b : Blade) : Blade :=
  let found := (mkeys (fun c _ => c % 4 = b.frame.toNat % 4 && b.stalled c) b.led.contexts)
  let found := if b.flag rMSTORE 1 then found else []
  let cs := mkeys (fun c _ => b.net.stallWaiting.contains c || found.contains c) b.led.contexts
  { b with net.stallWaiting := cs.filter b.stalled }

/-- A record of a stall report (Table 3.8), with the entry's age. -/
def stallRecord (frame : Word32) (t : Nat) (spilled : Bool) (e : MatchEntry) : Nat × List Byte :=
  (e.age, leBytes 4 e.node.toNat ++ leBytes 2 e.iteration.toNat ++
    [BitVec.ofNat 8 (e.presence.toNat + 8 * b2n e.arity3), BitVec.ofNat 8 (b2n spilled), BitVec.ofNat 8 t, 0, 0, 0] ++
    leBytes 4 (frame - e.written).toNat)

/-- Inserts a record before the younger ones. -/
def insertOldest (r : Nat × List Byte) : List (Nat × List Byte) → List (Nat × List Byte)
  | [] => [r]
  | x :: l => if r.1 < x.1 then r :: x :: l else x :: insertOldest r l

/-- The records of a tile's partial entries of a context, oldest first. -/
def Blade.stallRecords (b : Blade) (c t : Nat) : List (Nat × List Byte) :=
  (b.net.sets.flatMap fun e =>
    if e.1 / 512 = t then
      ((e.2.stack.filter fun x => x.presence ≠ 0 && x.context.toNat = c).map (stallRecord b.frame t true)) ++
        ((e.2.ways.filter (·.context.toNat = c)).map (stallRecord b.frame t false))
    else []).foldl (fun l r => insertOldest r l) []

/-- The stalled context whose report is next, while the frame's limit lasts (R168). -/
def Blade.nextStalled (b : Blade) : Option Nat :=
  if b.flag rMSTORE 1 && b.net.stallTokens < b.field (rMSTORE + 8) 8 8 then (b.net.stallWaiting.filter b.stalled).head? else none

/-- PER_CONTEXT_STALL (R168, R170, R171). -/
def Blade.perContextStall (b : Blade) (m : Memory) (c : Nat) : Blade :=
  if b.nextStalled ≠ some c then b
  else
    let all := (List.range 34).flatMap fun t => b.stallRecords c t
    let listed := all.take 254
    let number := b.reg (rMSTORE + 0x34)
    let bytes := leBytes 4 number.toNat ++ leBytes 2 c ++ leBytes 2 listed.length ++ leBytes 4 all.length ++
      leBytes 4 b.frame.toNat ++ listed.flatMap (·.2)
    let b := { b with net.stallTokens := b.net.stallTokens + 1, net.stallWaiting := b.net.stallWaiting.filter (· ≠ c) }
    let b := match b.writePacket .monitor (8192 + b.field (rMSTORE + 8) 16 14) bytes with
      | some b => (b.count (rMSTORE + 0x34)).sendControl m 44 c 0x10 listed.length number.toNat
      | none => b.sendControl m 44 c 0x10 0 0xFFFFFFFF
    b.modCtx c fun x => { x with reported := true }

end Sys2Proof.Machine
end

