-- ==== Sys2Proof/Machine/Flags.lean ====
section
/-! DEFINITION. The condition bits of the codelet instruction set: results of 0 or 1 (R201), carries and borrows (Table 4.4),
the floating-point flags (Table 4.10) and the words of QSTAT and PORTINFO. The lane microcode's flags are here too. -/

namespace Sys2Proof.Machine

/-- A condition as the 0 or 1 of R201. -/
def boolWord (c : Bool) : Word64 := if c then 1 else 0

/-- The carry out of a + b + c (Table 4.4). -/
def carryOut (a b : Word64) (c : Bool) : Bool := 2 ^ 64 ≤ a.toNat + b.toNat + b2n c

/-- The borrow of a − b − c: a is below b + c as a 65-bit number (Table 4.4). -/
def borrowOut (a b : Word64) (c : Bool) : Bool := a.toNat < b.toNat + b2n c

/-! ## Floating-point flags (Table 4.10) -/

abbrev FpFlags := BitVec 5

def flagNV : FpFlags := 1
def flagDZ : FpFlags := 2
def flagOF : FpFlags := 4
def flagUF : FpFlags := 8
def flagNX : FpFlags := 16

def flagIf (c : Bool) (f : FpFlags) : FpFlags := if c then f else 0

/-- An instruction's flags accrue (R253). -/
def Firing.accrue (f : Firing) (x : FpFlags) : Firing := { f with fps := f.fps ||| x }

/-! ## Special-register words -/

/-- PORTINFO (Table 4.12). -/
def Firing.portInfo (f : Firing) : Nat :=
  (f.inputs.zipIdx.map fun e => (e.1.cls.toNat + 8 * e.1.kind.toNat + 32) * 256 ^ e.2).sum

/-- QSTAT (Table 4.13). -/
def Firing.qstat (f : Firing) : Nat := f.lastTag.toNat + 4 * b2n f.poisonSeen

/-- POISONMASK. -/
def Firing.poisonMask (f : Firing) : Nat := f.poisoned.toNat

def ItemTag.code : ItemTag → BitVec 2
  | .data => 0
  | .idle => 1
  | .poison => 2

/-- A read of the queue window sets last_tag and poison_seen (R212). -/
def Firing.sawItem (f : Firing) (i : Item) : Firing :=
  { f with lastTag := i.tag.code, poisonSeen := f.poisonSeen || i.tag = .poison }

end Sys2Proof.Machine
end

