-- ==== Sys2Proof/Machine/Float.lean ====
section
/-! DEFINITION. Binary64 and binary32 arithmetic (chapter 5): exact results, rounded once, with the flags of R248 to R252. -/

namespace Sys2Proof.Machine

/-- A binary format: precision, exponent bits. -/
structure Fmt where
  prec : Nat
  expBits : Nat

def binary64 : Fmt := { prec := 53, expBits := 11 }
def binary32 : Fmt := { prec := 24, expBits := 8 }

def Fmt.bias (f : Fmt) : Nat := 2 ^ (f.expBits - 1) - 1
/-- Exponent of the least significant bit of a subnormal. -/
def Fmt.least (f : Fmt) : Int := 2 - (f.bias : Int) - f.prec
def Fmt.expMask (f : Fmt) : Nat := 2 ^ f.expBits - 1
def Fmt.fracMod (f : Fmt) : Nat := 2 ^ (f.prec - 1)
def Fmt.signBit (f : Fmt) : Nat := 2 ^ (f.prec + f.expBits - 1)

/-- A datum: a finite one is ± mant × 2^exp. -/
inductive FVal where
  | nan (signalling : Bool)
  | inf (neg : Bool)
  | fin (neg : Bool) (mant : Nat) (exp : Int)

/-- The datum of a register (R204, R247). -/
def Fmt.unpack (f : Fmt) (w : Word64) : FVal :=
  let n := w.toNat
  let frac := n % f.fracMod
  let e := n / f.fracMod % (f.expMask + 1)
  let neg := n / f.signBit % 2 = 1
  if e = f.expMask then (if frac = 0 then .inf neg else .nan (frac < f.fracMod / 2))
  else if e = 0 then .fin neg frac f.least
  else .fin neg (frac + f.fracMod) (f.least + (e - 1 : Nat))

/-- A register value from a magnitude's bits and a sign. -/
def Fmt.pack (f : Fmt) (neg : Bool) (mag : Nat) : Word64 := BitVec.ofNat 64 (mag + if neg then f.signBit else 0)

def Fmt.infinity (f : Fmt) (neg : Bool) : Word64 := f.pack neg (f.expMask * f.fracMod)
def Fmt.largest (f : Fmt) (neg : Bool) : Word64 := f.pack neg (f.expMask * f.fracMod - 1)
def Fmt.zero (f : Fmt) (neg : Bool) : Word64 := f.pack neg 0
/-- The canonical quiet NaN (R205). -/
def Fmt.qnan (f : Fmt) : Word64 := BitVec.ofNat 64 (f.expMask * f.fracMod + f.fracMod / 2)

/-- Rounding modes as FCR.rm codes them (Table 5.3). -/
inductive Rm where
  | rne
  | rtz
  | rup
  | rdn
  | rna
  deriving DecidableEq, Repr

def Rm.ofCode (n : Nat) : Rm :=
  match n with
  | 1 => .rtz
  | 2 => .rup
  | 3 => .rdn
  | 4 => .rna
  | _ => .rne

/-- A result and the flags it raises. -/
abbrev FpResult := Word64 × FpFlags

/-- Whether a magnitude whose kept part is `hi` and whose rest is lo / 2^d rounds up (Table 5.3). -/
def roundsUp (rm : Rm) (neg : Bool) (hi lo d : Nat) : Bool :=
  match rm with
  | .rne => 2 ^ d < 2 * lo || (2 * lo = 2 ^ d && hi % 2 = 1)
  | .rtz => false
  | .rup => lo ≠ 0 && !neg
  | .rdn => lo ≠ 0 && neg
  | .rna => lo ≠ 0 && 2 ^ d ≤ 2 * lo

/-- mant × 2^exp as a multiple of 2^q, rounded, and whether that is inexact. -/
def roundAt (rm : Rm) (neg : Bool) (mant : Nat) (exp q : Int) : Nat × Bool :=
  if q ≤ exp then (mant * 2 ^ (exp - q).toNat, false)
  else
    let d := (q - exp).toNat
    let hi := mant / 2 ^ d
    let lo := mant % 2 ^ d
    (if roundsUp rm neg hi lo d then hi + 1 else hi, lo ≠ 0)

/-- Table 5.4. -/
def Fmt.overflow (f : Fmt) (rm : Rm) (neg : Bool) : Word64 :=
  match rm with
  | .rtz => f.largest neg
  | .rup => if neg then f.largest neg else f.infinity neg
  | .rdn => if neg then f.infinity neg else f.largest neg
  | _ => f.infinity neg

/-- An exact nonzero result ± mant × 2^exp, rounded (R249 to R251). -/
def Fmt.round (f : Fmt) (rm : Rm) (neg : Bool) (mant : Nat) (exp : Int) : FpResult :=
  let top := exp + (Nat.log2 mant : Int)
  let quantum := top - ((f.prec - 1 : Nat) : Int)
  let unbounded := roundAt rm neg mant exp quantum
  let top := if unbounded.1 = 2 ^ f.prec then top + 1 else top
  if (f.bias : Int) < top then (f.overflow rm neg, flagOF ||| flagNX)
  else
    let q := max quantum f.least
    let r := roundAt rm neg mant exp q
    let tiny : Bool := top < 1 - (f.bias : Int)
    (f.pack neg ((q - f.least).toNat * f.fracMod + r.1), flagIf r.2 flagNX ||| flagIf (tiny && r.2) flagUF)

/-- An exact result, which may be zero; the sign of a zero is given. -/
def Fmt.roundOrZero (f : Fmt) (rm : Rm) (zeroNeg neg : Bool) (mant : Nat) (exp : Int) : FpResult :=
  if mant = 0 then (f.zero zeroNeg, 0) else f.round rm neg mant exp

def FVal.isNan : FVal → Bool
  | .nan _ => true
  | _ => false

def FVal.isSignalling : FVal → Bool
  | .nan s => s
  | _ => false

def FVal.negate : FVal → FVal
  | .nan s => .nan s
  | .inf n => .inf !n
  | .fin n m e => .fin (!n) m e

/-- An invalid operation (R248). -/
def Fmt.invalid (f : Fmt) : FpResult := (f.qnan, flagNV)

/-- A NaN result of NaN operands (R248). -/
def Fmt.nanOf (f : Fmt) (vs : List FVal) : FpResult := (f.qnan, flagIf (vs.any FVal.isSignalling) flagNV)

/-- A signed magnitude as an integer. -/
def signed (neg : Bool) (m : Nat) : Int := if neg then -(m : Int) else m

/-- The exact sum of two finite data, rounded (R252). -/
def Fmt.addFin (f : Fmt) (rm : Rm) (n1 : Bool) (m1 : Nat) (e1 : Int) (n2 : Bool) (m2 : Nat) (e2 : Int) : FpResult :=
  let e := min e1 e2
  let s := signed n1 (m1 * 2 ^ (e1 - e).toNat) + signed n2 (m2 * 2 ^ (e2 - e).toNat)
  let zeroNeg := if m1 = 0 ∧ m2 = 0 ∧ n1 = n2 then n1 else rm = .rdn
  f.roundOrZero rm zeroNeg (s < 0) s.natAbs e

def Fmt.add (f : Fmt) (rm : Rm) (a b : FVal) : FpResult :=
  match a, b with
  | .nan _, _ => f.nanOf [a, b]
  | _, .nan _ => f.nanOf [a, b]
  | .inf x, .inf y => if x = y then (f.infinity x, 0) else f.invalid
  | .inf x, .fin _ _ _ => (f.infinity x, 0)
  | .fin _ _ _, .inf y => (f.infinity y, 0)
  | .fin n1 m1 e1, .fin n2 m2 e2 => f.addFin rm n1 m1 e1 n2 m2 e2

def Fmt.mul (f : Fmt) (rm : Rm) (a b : FVal) : FpResult :=
  match a, b with
  | .nan _, _ => f.nanOf [a, b]
  | _, .nan _ => f.nanOf [a, b]
  | .inf x, .inf y => (f.infinity (x != y), 0)
  | .inf x, .fin n m _ => if m = 0 then f.invalid else (f.infinity (x != n), 0)
  | .fin n m _, .inf y => if m = 0 then f.invalid else (f.infinity (n != y), 0)
  | .fin n1 m1 e1, .fin n2 m2 e2 => f.roundOrZero rm (n1 != n2) (n1 != n2) (m1 * m2) (e1 + e2)

/-- A quotient is carried with enough bits, the last of which tells that a remainder is left. -/
def Fmt.div (f : Fmt) (rm : Rm) (a b : FVal) : FpResult :=
  match a, b with
  | .nan _, _ => f.nanOf [a, b]
  | _, .nan _ => f.nanOf [a, b]
  | .inf _, .inf _ => f.invalid
  | .inf x, .fin n _ _ => (f.infinity (x != n), 0)
  | .fin n _ _, .inf y => (f.zero (n != y), 0)
  | .fin n1 m1 e1, .fin n2 m2 e2 =>
    if m2 = 0 then (if m1 = 0 then f.invalid else (f.infinity (n1 != n2), flagDZ))
    else
      let k := 2 * f.prec + 4
      let n := m1 * 2 ^ k
      f.roundOrZero rm (n1 != n2) (n1 != n2) (2 * (n / m2) + b2n (n % m2 ≠ 0)) (e1 - e2 - k - 1)

/-- The integer square root of a number below 4^k, bit by bit. -/
def isqrt (n : Nat) : Nat → Nat → Nat
  | 0, r => r
  | k + 1, r => isqrt n k (if (r + 2 ^ k) * (r + 2 ^ k) ≤ n then r + 2 ^ k else r)

def Fmt.sqrt (f : Fmt) (rm : Rm) (a : FVal) : FpResult :=
  match a with
  | .nan _ => f.nanOf [a]
  | .inf n => if n then f.invalid else (f.infinity false, 0)
  | .fin n m e =>
    if m = 0 then (f.zero n, 0)
    else if n then f.invalid
    else
      let odd := (e % 2).toNat
      let k := f.prec + 3
      let v := m * 2 ^ odd * 4 ^ k
      let r := isqrt v (2 * f.prec + 8) 0
      f.round rm false (2 * r + b2n (r * r ≠ v)) ((e - odd) / 2 - k - 1)

/-- a × b + c, rounded once (R259). -/
def Fmt.fma (f : Fmt) (rm : Rm) (a b c : FVal) : FpResult :=
  let bad := match a, b with
    | .inf _, .fin _ 0 _ => true
    | .fin _ 0 _, .inf _ => true
    | _, _ => false
  if bad then f.invalid
  else if a.isNan || b.isNan || c.isNan then f.nanOf [a, b, c]
  else
    let product : FVal := match a, b with
      | .fin n1 m1 e1, .fin n2 m2 e2 => .fin (n1 != n2) (m1 * m2) (e1 + e2)
      | .inf x, .inf y => .inf (x != y)
      | .inf x, .fin n _ _ => .inf (x != n)
      | .fin n _ _, .inf y => .inf (n != y)
      | _, _ => .nan false
    f.add rm product c

/-! ## Compares (R260) -/

/-- a − b as an ordering of two data that are not NaNs: −1, 0 or 1. -/
def FVal.order (a b : FVal) : Int :=
  let rank := fun (v : FVal) (e : Int) => match v with
    | .fin n m x => signed n (m * 2 ^ (x - e).toNat)
    | _ => (0 : Int)
  match a, b with
  | .inf x, .inf y => if x = y then 0 else if x then -1 else 1
  | .inf x, _ => if x then -1 else 1
  | _, .inf y => if y then 1 else -1
  | .fin _ _ e1, .fin _ _ e2 => (rank a (min e1 e2) - rank b (min e1 e2)).sign
  | _, _ => 0

/-- A compare: what it tests of the ordering, and whether a quiet NaN is invalid too. -/
def fpCompare (test : Int → Bool) (signalling : Bool) (a b : FVal) : FpResult :=
  if a.isNan || b.isNan then (0, flagIf (signalling || a.isSignalling || b.isSignalling) flagNV)
  else (boolWord (test (a.order b)), 0)

/-! ## Conversions (R261, R262) -/

/-- To an integer between two limits: what does not fit gives the nearer limit and nv (Table 5.11). -/
def toInteger (lo hi : Int) (rm : Rm) (a : FVal) : FpResult :=
  match a with
  | .nan _ => (0, flagNV)
  | .inf n => (BitVec.ofInt 64 (if n then lo else hi), flagNV)
  | .fin n m e =>
    let r := roundAt rm n m e 0
    let v := signed n r.1
    if v < lo then (BitVec.ofInt 64 lo, flagNV)
    else if hi < v then (BitVec.ofInt 64 hi, flagNV)
    else (BitVec.ofInt 64 v, flagIf r.2 flagNX)

/-- From an integer. -/
def Fmt.ofInteger (f : Fmt) (rm : Rm) (i : Int) : FpResult := f.roundOrZero rm false (i < 0) i.natAbs 0

/-- From a datum of another format. -/
def Fmt.convert (f : Fmt) (rm : Rm) (a : FVal) : FpResult :=
  match a with
  | .nan _ => f.nanOf [a]
  | .inf n => (f.infinity n, 0)
  | .fin n m e => f.roundOrZero rm n n m e

end Sys2Proof.Machine
end

