-- ==== Sys2Proof/Machine/MemOps.lean ====
section
/-! DEFINITION. Loads, stores and compare-and-swap at the banks and the DRAM channels, with their SEC-DED (chapter 7), and
the semaphore unit. -/

namespace Sys2Proof.Machine

/-! ## Regions (Tables 7.5 and 16.1) -/

/-- What backs an address below the register window or in DRAM. -/
inductive Backing where
  /-- Stored bytes: the shared SRAM, the image slots, image staging and the application region. -/
  | bytes
  /-- The context table, whose records the ledger unit keeps. -/
  | contexts
  /-- A system region whose byte layout the manual does not give. -/
  | system
  /-- A gap between regions: loads read zero. -/
  | gap
  deriving DecidableEq, Repr

/-- The backing of a DRAM offset (Table 7.5). -/
def dramBacking (o : Nat) : Backing :=
  if o < 0x10000000 then .system
  else if o < 0x11000000 then .contexts
  else if o < 0x11100000 then .system
  else if o < 0x12000000 then .gap
  else if o < 0x12800000 then .system
  else if o < 0x14000000 then .gap
  else if o < 0x15000000 then .system
  else if o < 0x18000000 then .gap
  else if o < 0x50000000 then .system
  else if o < 0x80000000 then .bytes
  else if o < 0xC0000000 then .system
  else .bytes

def backing (a : Nat) : Backing :=
  if a < sramSize then .bytes else if dramBase ≤ a ∧ a < dramEnd then dramBacking (a - dramBase) else .gap

/-! ## Loads and stores -/

/-- A load of n bytes, n a power of two up to 8, at an aligned address. -/
def Blade.load (b : Blade) (m : Memory) (a n : Nat) : Loaded :=
  match backing a with
  | .bytes =>
    let r := b.loadWord m (a / 8 * 8)
    { r with value := BitVec.ofNat 64 (bits r.value.toNat (8 * (a % 8)) (8 * n)) }
  | .contexts =>
    let o := a - contextTable
    { value := BitVec.ofNat 64 (fieldAt (b.ctx (o / 256)).bytes (o % 256) n), poison := false, mem := m, blade := b }
  | .system =>
    let d := b.draw (2 ^ (8 * n))
    { value := BitVec.ofNat 64 d.1, poison := false, mem := m, blade := d.2 }
  | .gap => { value := 0, poison := false, mem := m, blade := b }

/-- A store of the low n bytes of a value at an aligned address of the shared SRAM or the application region. -/
def Blade.store (b : Blade) (m : Memory) (a n : Nat) (v : Word64) (poison : Bool) : Memory × Blade :=
  if n = 8 then b.store64 m a v poison else b.merge8 m a n v.toNat poison

/-! ## Compare-and-swap (R217, R218, R311, R334) -/

/-- CAS of n bytes, 8 or 4: the word read, or poison; the write happens only when the word equals what is expected. -/
def Blade.cas (b : Blade) (m : Memory) (a n : Nat) (expected new : Word64) : Loaded :=
  let b := if a < sramSize then b.count64 rATOM else b.count64 (rATOM + 0x10)
  let r := b.load m a n
  if r.poison then r
  else if r.value.toNat = expected.toNat % 2 ^ (8 * n) then
    let w := r.blade.store r.mem a n new false
    { r with mem := w.1, blade := w.2 }
  else { r with blade := r.blade.count64 (rATOM + 8) }

/-! ## Semaphores (R335 to R343) -/

/-- A requester of the semaphore unit (Table 7.12). -/
structure Owner where
  cls : Nat
  unit : Nat
  context : Nat
  deriving DecidableEq, Repr

/-- ATOM_SEM_ACCESS of a semaphore's group grants the class (R340). -/
def Blade.semAllowed (b : Blade) (cls n : Nat) : Bool := b.flag (rATOM + 0x100 + 4 * (n / 32)) cls

def Semaphore.ownedBy (s : Semaphore) (o : Owner) : Bool :=
  s.held && s.cls.toNat = o.cls && s.unit.toNat = o.unit && s.context.toNat = o.context

/-- An acquisition: 1 + (generation << 16) when it holds, else 0 (R220, R338, R339). -/
def Blade.semAcquire (b : Blade) (o : Owner) (n : Nat) : Nat × Blade :=
  let s := b.sem n
  if !s.held || s.ownedBy o then
    (1 + s.generation.toNat * 2 ^ 16,
     b.setSem n { s with held := true, cls := BitVec.ofNat 2 o.cls, unit := BitVec.ofNat 8 o.unit,
                         context := BitVec.ofNat 16 o.context })
  else (0, b)

/-- A requester as a SEM record codes it. -/
def Owner.code (o : Owner) : Nat := o.cls + o.unit * 2 ^ 8 + o.context * 2 ^ 16

/-- A release: 1 when the owner gives the generation, else 0, counted and recorded (R221, R339, R341). DESIGN CHOICE (log 87): the
owner's fields of a released semaphore read zero. -/
def Blade.semRelease (b : Blade) (o : Owner) (n gen : Nat) : Nat × Blade :=
  let s := b.sem n
  if s.ownedBy o && s.generation.toNat = gen % 2 ^ 16 then
    (1, b.setSem n { Semaphore.init with generation := s.generation + 1 })
  else
    (0, (b.count (rATOM + 0x18)).record (.plain recSEM n o.code (gen % 2 ^ 16 + s.generation.toNat * 2 ^ 16)))

/-- SEM_FORCE of a held semaphore with the generation given (R342, R343). DESIGN CHOICE (log 87): its owner's fields read zero. -/
def Blade.semForce (b : Blade) (n gen : Nat) : Bool × Blade :=
  let s := b.sem n
  if s.held && s.generation.toNat = gen then
    let g := s.generation + 1
    let b := b.setSem n { Semaphore.init with generation := g }
    let was : Owner := { cls := s.cls.toNat, unit := s.unit.toNat, context := s.context.toNat }
    let b := (b.count (rATOM + 0x1C)).record (.plain recSEM n was.code (gen + g.toNat * 2 ^ 16))
    (true, b.notify 6 (leBytes 2 n ++ leBytes 2 g.toNat ++ leBytes 1 was.cls ++ leBytes 1 was.unit ++
      leBytes 2 was.context))
  else (false, b)

end Sys2Proof.Machine
end

