-- ==== Sys2Proof/Machine/LaneOps.lean ====
section
/-! DEFINITION. Lane ports and their links (chapter 10): link states, the receive and transmit areas, credit, what the port
logic sends, and what a commit releases. -/

namespace Sys2Proof.Machine

/-- A port card, a carrier or the service ports exchange traffic with the blade that their mux selects (R21, R26, R30): port
cards are muxes 0 to 7, carriers 8 and 9, the service ports 10. -/
def Blade.muxSelects (b : Blade) (mux : Nat) : Bool := b.pair.muxChosen.contains mux && b.pair.muxB.contains mux = b.bladeB

/-- The port card's mux selects this blade, so that the lane's code groups come from it and go to it (R21). -/
def Blade.onLane (b : Blade) (l : Nat) : Bool := b.muxSelects (l / 16)

/-- The time in microseconds that the frame and its fine ticks give. -/
def Blade.now (b : Blade) : Nat := b.frame.toNat * 250 + b.fineTicks

def Grant.init : Grant := { limit := 0, sent := 0, consumed := 0, released := 0, acked := 0 }
def Credit.init : Credit := { limit := 0, consumed := 0, acked := 0 }

def LanePort.init : LanePort :=
  { state := 0, energy := false, lock := false, lockSince := 0, fills := 0, syncFrame := 0, lastEcho := none,
    echoed := false, podCredit := false, rxExpected := 0, txNext := 0, rxAcked := 0xFFFF, txAcked := 0xFFFF,
    uExpected := 0, uAcked := 0xFFFF, urgent := .init, up := [], down := [], rx := [], tx := [], freed := [],
    audits := [], auditPending := false, auditAgain := false, nakDue := [], nakedAt := [], ackDue := none,
    ackAlone := false, uackDue := none, creditDue := none, auditDue := none, creditFor := [], sentThisFrame := false, lastProgress := 0,
    lastValid := 0, windowFrame := 0, windowErrors := 0, goodWindows := 0, podFrame := 0, podState := 0 }

def Blade.port (b : Blade) (l : Nat) : LanePort := mget LanePort.init l b.lan.ports

def Blade.setPort (b : Blade) (l : Nat) (v : LanePort) : Blade :=
  { b with lan.ports := mput LanePort.init l v b.lan.ports }

def Blade.modPort (b : Blade) (l : Nat) (f : LanePort → LanePort) : Blade := b.setPort l (f (b.port l))

def Blade.modHalyard (b : Blade) (l : Nat) (f : Halyard → Halyard) : Blade := b.setHalyard l (f (b.halyard l))

def Blade.modCluster (b : Blade) (c : Nat) (f : Cluster → Cluster) : Blade := b.setCluster c (f (b.cluster c))

def LanePort.grant (p : LanePort) (e : Nat) : Grant := mget Grant.init e p.up
def LanePort.credit (p : LanePort) (e : Nat) : Credit := mget Credit.init e p.down
def LanePort.setGrant (p : LanePort) (e : Nat) (v : Grant) : LanePort := { p with up := mput Grant.init e v p.up }
def LanePort.setCredit (p : LanePort) (e : Nat) (v : Credit) : LanePort := { p with down := mput Credit.init e v p.down }

/-! ## LANE_PORT_CFG (Table 10.16) and LANE_EP (Table 9.26) -/

def Blade.portEnabled (b : Blade) (l : Nat) : Bool := b.flag (rPORT l) 0
def Blade.urgentSlots (b : Blade) (l : Nat) : Nat := b.field (rPORT l) 4 4
def Blade.retxFrames (b : Blade) (l : Nat) : Nat := b.field (rPORT l) 8 4
def Blade.degradeThr (b : Blade) (l : Nat) : Nat := b.field (rPORT l) 16 8
def Blade.faultThr (b : Blade) (l : Nat) : Nat := b.field (rPORT l) 24 8

/-- LANE_EP of a lane's endpoint. -/
def rEP (l e : Nat) : Nat := rLANE (l / 16) + 0x1000 + 0x80 * (l % 16) + 4 * e

/-- Counters of Table 10.22. -/
def Blade.portCount (b : Blade) (l off : Nat) : Blade := b.count (rPORT l + off)

def cgERR : Nat := 0x40
def crcERR : Nat := 0x44
def nakSENT : Nat := 0x48
def nakRCVD : Nat := 0x4C
def retxSENT : Nat := 0x50
def dupDROPPED : Nat := 0x54
def badTYPE : Nat := 0x58
def creditVIOL : Nat := 0x5C
def auditMISMATCH : Nat := 0x60
def retrains : Nat := 0x64
def urgentACKED : Nat := 0x68
def urgentREFUSED : Nat := 0x6C

/-! ## Link states (Table 10.9) -/

def linkDOWN : Nat := 0
def linkTRAIN : Nat := 1
def linkSYNC : Nat := 2
def linkUP : Nat := 3
def linkDEGRADED : Nat := 4
def linkFAULT : Nat := 5

/-- The link carries DATA: it is UP or DEGRADED. -/
def LanePort.full (p : LanePort) : Bool := p.state.toNat = linkUP || p.state.toNat = linkDEGRADED

/-- The hub sends hoists on the link (R431). -/
def LanePort.hoisting (p : LanePort) : Bool := p.full || p.state.toNat = linkSYNC

/-- An assertion of a port source (Table 12.11). -/
def Blade.raisePort (b : Blade) (l k : Nat) : Blade :=
  let p := b.port l
  b.raiseWith { Assertion.plain (srcPort l k) with
    detail := (BitVec.ofNat 32 p.windowErrors, BitVec.ofNat 32 p.state.toNat, 0) }

/-- A latched event of a halyard (Table 9.8). -/
def Blade.latch (b : Blade) (l bit : Nat) : Blade :=
  b.modHalyard l fun h => { h with latched := h.latched ||| BitVec.ofNat 16 (2 ^ bit) }

def evHOIST : Nat := 4
def evLINK_CHANGE : Nat := 5
def evTIMER : Nat := 6
def evCREDIT : Nat := 7

/-- What entering UP from SYNC sets (R455): every count (DEDUCED, log 49: a DEGRADED link that is UP again keeps them) to zero, and every unacknowledged pennant sent again against the
fresh limits. -/
def LanePort.fresh (p : LanePort) (frame : Word32) : LanePort :=
  { p with urgent := .init, up := [], down := [], audits := [], auditPending := false, auditAgain := false,
           creditDue := none, creditFor := [], auditDue := none, lastProgress := frame,
           tx := p.tx.map fun t => { t with paid := false, resend := t.sent } }

/-- A link changes its state (R459, R461): the sequences, the stored pennants and the unacknowledged ones stay. -/
def Blade.setLink (b : Blade) (l new : Nat) : Blade :=
  let p := b.port l
  let old := p.state.toNat
  if old = new then b
  else
    let p := { p with state := BitVec.ofNat 3 new }
    let p := if p.full then p else { p with nakDue := [], creditDue := none, creditFor := [], auditDue := none, auditAgain := false }
    let p := if new = linkTRAIN ∨ new = linkDOWN then { p with lock := false, fills := 0 } else p
    let p := if new = linkSYNC then
        { p with syncFrame := b.frame, lastEcho := none, echoed := false, podCredit := false, lastValid := b.frame }
      else p
    let p := if new = linkUP ∧ old = linkSYNC then p.fresh b.frame else p
    let p := if new = linkDEGRADED then { p with goodWindows := 0 } else p
    let b := b.setPort l p
    let b := if new = linkTRAIN then b.portCount l retrains else b
    let b := if new = linkDEGRADED ∨ new = linkFAULT then b.raisePort l 0 else b
    (b.latch l evLINK_CHANGE).notify 4 [BitVec.ofNat 8 l, BitVec.ofNat 8 old, BitVec.ofNat 8 new]

/-- One error of the window (R460): a threshold passed acts at once (Table 10.11). -/
def Blade.linkError (b : Blade) (l : Nat) : Blade :=
  let p := b.port l
  let n := p.windowErrors + 1
  let b := b.setPort l { p with windowErrors := n }
  if p.hoisting && b.faultThr l < n then b.setLink l linkFAULT
  else if p.state.toNat = linkUP && b.degradeThr l < n then b.setLink l linkDEGRADED
  else b

/-- A HOIST that makes `enable` take effect (Table 10.11). -/
def Blade.enableLink (b : Blade) (l : Nat) : Blade :=
  if !b.portEnabled l then b.setLink l linkDOWN
  else if (b.port l).state.toNat = linkDOWN && (b.port l).energy then b.setLink l linkTRAIN
  else b

/-! ## The receive area (R439) -/

/-- The blocks a payload occupies, and the credit units it costs. -/
def blocksOf (payload : List Byte) : Nat := max 1 ((payload.length + 63) / 64)

/-- Every pennant of the receive area, the opened one included. -/
def Blade.rxHeld (b : Blade) (l : Nat) : List RxPennant := (b.port l).rx ++ (b.halyard l).rxOpen.toList

/-- Blocks in use outside the URGENT room. -/
def Blade.blocksInUse (b : Blade) (l : Nat) : Nat :=
  ((b.rxHeld l).map fun p => if p.urgent then 0 else blocksOf p.payload).sum

def Blade.urgentInUse (b : Blade) (l : Nat) : Nat := ((b.rxHeld l).filter (·.urgent)).length

/-- The cost of an endpoint's pennants in the receive area (R452). -/
def Blade.rxWaiting (b : Blade) (l e : Nat) : Nat :=
  ((b.rxHeld l).map fun p => if !p.urgent && p.endpoint.toNat = e then blocksOf p.payload else 0).sum

/-- The events of Table 9.8, before quiescing hides any. -/
def Blade.laneEvents (b : Blade) (l : Nat) : BitVec 16 :=
  let p := b.port l
  let h := b.halyard l
  let level := b2n (p.rx.any (!·.urgent)) + 2 * b2n (p.rx.any (·.urgent)) + 8 * b2n (h.txMask ≠ 0)
  BitVec.ofNat 16 level ||| h.latched

/-- The event register as the halyard reads it: RX_PENDING and TX_NOTICE read 0 while its cluster quiesces (Table 9.13). -/
def Blade.events (b : Blade) (l : Nat) : BitVec 16 :=
  if (b.cluster (l / 16)).quiescing then b.laneEvents l &&& 0xFFF6 else b.laneEvents l

/-! ## Sending (R432 to R437) -/

/-- The fields of a header that the sender chooses (Table 10.2). -/
structure TxHeader where
  type : Nat
  endpoint : Nat
  sequence : Nat
  retx : Bool
  uspace : Bool
  receipt : Bool

def TxHeader.of (type endpoint sequence : Nat) : TxHeader :=
  { type := type, endpoint := endpoint, sequence := sequence, retx := false, uspace := false, receipt := false }

/-- The bytes of a pennant, header to CRC (R432 to R434). -/
def TxHeader.bytes (h : TxHeader) (ack : Option (BitVec 16)) (payload : List Byte) : List Byte :=
  let b0 := h.type + 16 * b2n ack.isSome + 32 * b2n h.retx + 64 * b2n h.uspace + 128 * b2n h.receipt
  let body := leBytes 1 b0 ++ leBytes 1 h.endpoint ++ leBytes 2 h.sequence ++ leBytes 2 payload.length ++
    leBytes 2 (ack.getD 0).toNat ++ payload
  body ++ leBytes 4 (crc32 body).toNat

/-- What a sent pennant's ack field settles: the separate ACK is no longer due, and AUDIT counts the cost it covers. -/
def LanePort.carried (p : LanePort) : LanePort :=
  { p with ackDue := none, ackAlone := false, sentThisFrame := true,
           up := p.up.map fun e => (e.1, { e.2 with acked := e.2.released }) }

/-- Sends a pennant that carries the released acknowledgement (R437). -/
def Blade.sendPennant (b : Blade) (l : Nat) (h : TxHeader) (payload : List Byte := []) : Blade :=
  let p := b.port l
  (b.setPort l p.carried).out (.pennant ⟨l % 128, Nat.mod_lt _ (by decide)⟩ (h.bytes (some p.rxAcked) payload))

/-- A receipt ACK leaves at once, inset if need be (R429, R442). -/
def Blade.sendReceipt (b : Blade) (l endpoint sequence : Nat) : Blade :=
  let h := { TxHeader.of 3 endpoint sequence with uspace := true, receipt := true }
  ((b.modPort l fun p => { p with sentThisFrame := true }).portCount l urgentACKED).out
    (.inset ⟨l % 128, Nat.mod_lt _ (by decide)⟩ (h.bytes none []))

/-- A NAK of the DATA space falls due, unless one for the same expected sequence is due or has left in the frame (R449). -/
def Blade.nakData (b : Blade) (l reason : Nat) : Blade :=
  let p := b.port l
  if p.nakedAt.contains (b.frame, p.rxExpected) || p.nakDue.any (fun e => !e.2.1 && e.2.2 = p.rxExpected) then b
  else b.setPort l { p with nakDue := p.nakDue ++ [(BitVec.ofNat 8 reason, false, p.rxExpected)] }

/-- A NAK of the URGENT space falls due (R443). -/
def Blade.nakUrgent (b : Blade) (l reason : Nat) : Blade :=
  let p := b.port l
  b.setPort l { p with nakDue := p.nakDue ++ [(BitVec.ofNat 8 reason, true, p.uExpected)] }

/-- A NAK leaves and counts (R464). -/
def Blade.sendNak (b : Blade) (l : Nat) (reason : Byte) (uspace : Bool) (s : BitVec 16) : Blade :=
  let b := if uspace then b else b.modPort l fun p =>
    { p with nakedAt := (b.frame, s) :: p.nakedAt.filter fun e => e.1 = b.frame }
  (b.sendPennant l { TxHeader.of 4 0 s.toNat with uspace := uspace } [reason, 0, 0, 0]).portCount l nakSENT

/-- The FILL pennant (Table 10.4). -/
def Blade.sendFill (b : Blade) (l : Nat) : Blade :=
  b.sendPennant l (.of 8 0 0) (leBytes 2 b.frame.toNat ++ leBytes 1 (b.port l).state.toNat ++ [0])

/-- A CREDIT for some endpoints, 32 standing for the URGENT units, falls due (R453, R457). -/
def Blade.dueCredit (b : Blade) (l : Nat) (es : List Nat) : Blade :=
  let p := b.port l
  b.setPort l { p with creditDue := some (p.creditDue.getD b.now),
                       creditFor := (List.range 33).filter fun e => es.contains e || p.creditFor.contains e }

/-- One entry of a CREDIT (Table 10.6). -/
def LanePort.creditEntry (p : LanePort) (e : Nat) : List Byte :=
  if e = 32 then leBytes 1 0x20 ++ [0] ++ leBytes 2 p.urgent.limit.toNat
  else leBytes 1 e ++ [0] ++ leBytes 2 (p.grant e).limit.toNat

/-- Sends the CREDIT that is due. -/
def Blade.sendCredit (b : Blade) (l : Nat) : Blade :=
  let p := b.port l
  let q := p.creditFor.foldl (fun q e =>
    if e = 32 then { q with urgent := { q.urgent with sent := q.urgent.limit } }
    else q.setGrant e { q.grant e with sent := (q.grant e).limit }) { p with creditDue := none, creditFor := [] }
  (b.setPort l q).sendPennant l (.of 5 0 0) (p.creditFor.flatMap p.creditEntry)

/-- The AUDIT payload (Table 10.7): the limits and acknowledgements as sent so far. -/
def Blade.auditPayload (b : Blade) (l : Nat) : List Byte :=
  let p := b.port l
  leBytes 2 b.frame.toNat ++ [0, 0] ++
    ((List.range 32).flatMap fun e =>
      leBytes 2 (p.grant e).sent.toNat ++ leBytes 2 (p.grant e).acked.toNat ++ leBytes 2 (p.credit e).limit.toNat ++
        leBytes 2 (p.credit e).acked.toNat) ++
    leBytes 2 p.urgent.sent.toNat ++ leBytes 2 p.urgent.acked.toNat ++ [0, 0, 0, 0]

/-- Sends the AUDIT that is due (R456). -/
def Blade.sendAudit (b : Blade) (l : Nat) : Blade :=
  let pay := b.auditPayload l
  let p := b.port l
  (b.setPort l { p with auditDue := none, audits := p.audits ++ [{ frame := b.frame, payload := pay }] }).sendPennant l
    (.of 6 0 0) pay

/-- Sends the separate ACK of the DATA stream. -/
def Blade.sendAck (b : Blade) (l : Nat) : Blade :=
  b.sendPennant l (.of 3 0 (b.port l).rxAcked.toNat)

/-- Sends the committed ACK of the URGENT space (R446). -/
def Blade.sendUack (b : Blade) (l : Nat) : Blade :=
  let p := b.port l
  (b.setPort l { p with uackDue := none, urgent := { p.urgent with acked := p.urgent.released } }).sendPennant l
    { TxHeader.of 3 0 p.uAcked.toNat with uspace := true }

def srcPktCorr (l : Nat) : Nat := srcCluster (l / 16) 5
def srcPktUncorr (l : Nat) : Nat := srcCluster (l / 16) 6

/-- Corrected words of a pennant in the packet buffer (Table 9.14). -/
def Blade.correctWords (b : Blade) (l n : Nat) : Blade :=
  times n (fun b => (b.count (rLANE (l / 16) + 0x2C)).windowEvent (srcPktCorr l)) b

/-- A word of a pennant in the packet buffer cannot be corrected (Table 9.14). -/
def Blade.packetLost (b : Blade) (l : Nat) : Blade :=
  let k := b.draw (2 ^ 48)
  let d := k.2.locDetail k.1 0
  d.2.raiseWith { Assertion.plain (srcPktUncorr l) with sub := BitVec.ofNat 8 (l % 16), detail := d.1 }

/-- Whether the pod's credit covers a pennant's first sending (R454, R455). -/
def LanePort.payable (p : LanePort) (t : TxPennant) : Bool :=
  t.paid || blocksOf t.payload ≤ ((p.credit t.endpoint.toNat).limit - (p.credit t.endpoint.toNat).consumed).toNat

/-- Sends a pennant of the transmit area; one that holds an uncorrectable word is aborted in the sending and discarded (R429,
R450, Table 9.14). -/
def Blade.sendTx (b : Blade) (l : Nat) (t : TxPennant) : Blade :=
  let p := b.port l
  if t.lost then
    ((b.setPort l { p with tx := p.tx.filter (· ≠ t) }).out (.abort ⟨l % 128, Nat.mod_lt _ (by decide)⟩)).packetLost l
  else
    let k := p.credit t.endpoint.toNat
    let p := if t.paid then p
      else p.setCredit t.endpoint.toNat { k with consumed := k.consumed + BitVec.ofNat 16 (blocksOf t.payload) }
    let u := { t with weak := 0, paid := true, sent := true, resend := false, sentFrame := b.frame }
    let b := b.setPort l { p with tx := p.tx.map fun x => if x = t then u else x }
    let b := b.correctWords l t.weak
    let b := if t.sent then b.portCount l retxSENT else b
    b.sendPennant l { TxHeader.of (if t.mgmt then 7 else 1) t.endpoint.toNat t.sequence.toNat with retx := t.sent }
      t.payload

/-- Something that has been due for 20 µs or more. -/
def Blade.late (b : Blade) (since : Option Nat) : Bool :=
  match since with
  | some n => n + 20 ≤ b.now
  | none => false

/-- The first due CREDIT, AUDIT or ACK that meets a test of the time it became due; a separate ACK of the DATA stream goes only
where no pennant has carried the value for 20 µs, or where a duplicate or a failed audit asks for it (R437, R448, R457). -/
def Blade.sendControlPennant (b : Blade) (l : Nat) (ripe : Option Nat → Bool) : Option Blade :=
  let p := b.port l
  if p.creditDue.isSome && ripe p.creditDue then some (b.sendCredit l)
  else if p.auditDue.isSome then some (b.sendAudit l)
  else if b.late p.ackDue || (p.ackAlone && ripe p.ackDue) then some (b.sendAck l)
  else if p.uackDue.isSome && ripe p.uackDue then some (b.sendUack l)
  else none

/-- PENNANT_BOUNDARY of a lane (R436, R437). -/
def Blade.pennantBoundary (b : Blade) (l : Nat) : Blade :=
  let p := b.port l
  if !p.hoisting || !b.onLane l then b
  else
    match p.nakDue with
    | (reason, uspace, s) :: rest => (b.setPort l { p with nakDue := rest }).sendNak l reason uspace s
    | [] =>
      let fill := if p.sentThisFrame then b else b.sendFill l
      if !p.full then fill
      else
        match b.sendControlPennant l b.late with
        | some b => b
        | none =>
          match (p.tx.filter (·.resend)) ++ (p.tx.filter fun t => !t.sent) with
          | t :: _ => if p.payable t then b.sendTx l t else (b.sendControlPennant l fun _ => true).getD fill
          | [] => (b.sendControlPennant l fun _ => true).getD fill

/-! ## Grants and releases at a commit (R446, R447, R452, R453) -/

/-- Units the pod may still send on an endpoint. -/
def Grant.outstanding (g : Grant) : Nat := (g.limit - g.consumed).toNat

/-- `grant` of one endpoint: the room left, the endpoints whose limits changed, and the port. -/
def Blade.grantEndpoint (b : Blade) (l : Nat) (r : Nat × List Nat × Blade) (e : Nat) : Nat × List Nat × Blade :=
  let (room, changed, b') := r
  if b.flag (rEP l e) 6 && (e = 0 || !b.net.throttling) then
    let q := 32 * l + e
    let v := (b'.port l).grant e
    let out := v.outstanding
    let g := min (min ((b.queue q).reserve - b.cellCount q - out - b.rxWaiting l e) room) (32 - out)
    if 0 < g then
      (room - g, changed ++ [e],
       b'.modPort l fun p => p.setGrant e { v with limit := v.limit + BitVec.ofNat 16 g })
    else r
  else r

/-- `grant(l)` of R452. -/
def Blade.grant (b : Blade) (l : Nat) : Blade :=
  let p := b.port l
  if !p.full || b.struck (fnCluster (l / 16)) || b.struck (fnPort l) then b
  else
    let out := ((List.range 32).map fun e => (p.grant e).outstanding).sum
    let r := (List.range 32).foldl (b.grantEndpoint l) (64 - b.urgentSlots l - b.blocksInUse l - out, [], b)
    let u := b.urgentSlots l - b.urgentInUse l - p.urgent.outstanding
    let b' := r.2.2
    let b' := if 0 < u then
        b'.modPort l fun p => { p with urgent := { p.urgent with limit := p.urgent.limit + BitVec.ofNat 16 u } }
      else b'
    let es := if 0 < u then r.2.1 ++ [32] else r.2.1
    if es.isEmpty then b' else b'.dueCredit l es

/-- A pennant freed by RXDONE in a committed frame is acknowledged (R446, R447). -/
def Blade.acknowledge (b : Blade) (l : Nat) (r : RxPennant) : Blade :=
  let p := b.port l
  let k := BitVec.ofNat 16 (blocksOf r.payload)
  if r.urgent then
    b.setPort l { p with uAcked := r.sequence, uackDue := some (p.uackDue.getD b.now),
                         urgent := { p.urgent with released := p.urgent.released + 1 } }
  else
    let g := p.grant r.endpoint.toNat
    b.setPort l { p.setGrant r.endpoint.toNat { g with released := g.released + k } with
      rxAcked := r.sequence, ackDue := some (p.ackDue.getD b.now) }

/-- A lane at the commit of frames up to n; while its cluster is struck DATA is not acknowledged (R419). -/
def Blade.laneCommitOne (b : Blade) (n : Word32) (l : Nat) : Blade :=
  let p := b.port l
  let goes := fun r : Word32 × RxPennant => frameLe r.1 n && (r.2.urgent || !b.struck (fnCluster (l / 16)))
  let now := p.freed.filter goes
  let b := b.setPort l { p with freed := p.freed.filter fun r => !goes r }
  (now.foldl (fun b r => b.acknowledge l r.2) b).grant l

/-- Every lane at the commit of frames up to n. -/
def Blade.laneCommit (b : Blade) (n : Word32) : Blade :=
  (mkeys (fun _ _ => true) b.lan.ports).foldl (fun b l => b.laneCommitOne n l) b

/-! ## The tick -/

/-- CRC-8 of a hoist (R430). -/
def hoistCrc (frame : BitVec 16) : Byte :=
  BitVec.ofNat 8 ((leBytes 2 frame.toNat).foldl (crcByteL 7) 0)

/-- The FILL that a frame lacks as it ends (R436). -/
def Blade.laneFill (b : Blade) (l : Nat) : Blade :=
  if (b.port l).hoisting && b.onLane l && !(b.port l).sentThisFrame then b.sendFill l else b

/-- A lane at the tick that begins the present frame: its hoist, and the AUDIT that falls due (R431, R456, Table 12.8). -/
def Blade.laneTick (b : Blade) (l : Nat) : Blade :=
  let b := b.latch l evHOIST
  let b := b.modPort l fun p => { p with sentThisFrame := false }
  let p := b.port l
  if !p.hoisting || !b.onLane l then b
  else
    let hurt := b.armed (srcPort l 0) 2
    let b := if hurt then b.useInjection (srcPort l 0) else b
    let f := BitVec.ofNat 16 b.frame.toNat
    let crc := if hurt then ~~~(hoistCrc f) else hoistCrc f
    let b := b.out (.hoist ⟨l % 128, Nat.mod_lt _ (by decide)⟩ f crc)
    b.modPort l fun p =>
      let due := p.full && (b.frame.toNat % 64 = 0 || p.auditAgain)
      { p with auditAgain := false, auditDue := if due then some b.now else p.auditDue }

/-- Every lane as a frame ends. -/
def Blade.lanesFill (b : Blade) : Blade := (mkeys (fun _ _ => true) b.lan.ports).foldl Blade.laneFill b

/-- Every lane at the tick; a cluster whose control store was never loaded has no halyard to see it (R384). -/
def Blade.lanesTick (b : Blade) : Blade :=
  ((List.range 128).filter fun l => b.lan.ports.any (·.1 = l) || (b.cluster (l / 16)).loaded).foldl Blade.laneTick b

end Sys2Proof.Machine
end

