-- ==== Sys2Proof/Machine/RegRead.lean ====
section
/-! DEFINITION. Reads of the register window (chapter 16): what each register shows, and the latches of R499. -/

namespace Sys2Proof.Machine

/-- The index of an arrayed register at an offset. -/
def arr (o base stride n : Nat) : Option Nat :=
  if base ≤ o ∧ o < base + stride * n ∧ (o - base) % stride = 0 then some ((o - base) / stride) else none

/-- Bits of a list of flags, the first being bit 0. -/
def flagBits (l : List Bool) : Nat := (l.zipIdx.map fun e => b2n e.1 * 2 ^ e.2).sum

def w32 (n : Nat) : Word32 := BitVec.ofNat 32 n

/-! ## Selections held per requester (R382) -/

def selected (m : SMap Word32) (who : Port) : Nat := (mget 0 (portId who) m).toNat

/-! ## Staged fields (R494) -/

/-- Where a word of a queue's descriptor is kept while it is staged. -/
def queueKey (q k : Nat) : Nat := 2 ^ 32 + 16 * q + 4 * k

/-- The fields of QPOOL_QCFG_A to QPOOL_QCFG_D of a queue, as in effect (Tables 8.17 to 8.20). -/
def Queue.word (v : Queue) (k : Nat) : Word32 :=
  match k with
  | 0 => w32 v.quota
  | 1 => w32 v.reserve
  | 2 => pack [(0, 8, v.stallFrames.toNat), (8, 1, b2n v.tickRelease), (9, 2, v.notice.toNat),
               (16, 16, v.noticeContext.toNat)]
  | _ => pack [(0, 20, v.noticeNode.toNat), (24, 8, v.expire.toNat)]

/-- A queue with a word of its descriptor replaced. -/
def Queue.setWord (v : Queue) (k : Nat) (w : Word32) : Queue :=
  let n := w.toNat
  match k with
  | 0 => { v with quota := bits n 0 17 }
  | 1 => { v with reserve := bits n 0 17 }
  | 2 => { v with stallFrames := BitVec.ofNat 8 n, tickRelease := bitOf n 8, notice := BitVec.ofNat 2 (n / 2 ^ 9),
                  noticeContext := BitVec.ofNat 16 (n / 2 ^ 16) }
  | _ => { v with noticeNode := BitVec.ofNat 20 n, expire := BitVec.ofNat 8 (n / 2 ^ 24) }

/-- The staged word at a key, or the one in effect (R494). -/
def Blade.stagedOr (b : Blade) (key : Nat) (now : Word32) : Word32 :=
  match b.csr.staged.find? (·.1 = key) with
  | some e => e.2
  | none => now

/-- The word of a register that its HOIST would leave. -/
def Blade.nextReg (b : Blade) (a : Nat) : Nat := (b.stagedOr a (b.reg a)).toNat

/-! ## Blocks -/

/-- KEY_ARMS (Table 11.15). -/
def Blade.armBits (b : Blade) : Nat :=
  (b.csr.arms.map fun p => match p with
    | .tile t => 2 ^ t.val
    | .cluster c => 2 ^ (34 + c.val)
    | .command => 2 ^ 42).sum

/-- A power domain may be off (Table 14.7); its register says so from step 2 on, which switches domains on. -/
def Blade.domainPermitted (b : Blade) (d : Nat) : Bool :=
  if d < 8 then !b.hw.cards.getLsbD d || mget FruState.absent (2 + d) b.hw.frus = .prepared
  else if d < 25 then !b.net.activeTiles.getLsbD (2 * (d - 8)) && !b.net.activeTiles.getLsbD (2 * (d - 8) + 1)
  else if 26 ≤ d ∧ d < 29 then (List.range 16).all fun k => b.struck (fnBank (16 * (d - 25) + k))
  else false

/-- A feed (R28): it is on while either blade commands it on and it has not tripped. -/
def Feed.on (f : Feed) : Bool := (f.command || f.partnerCommand) && !f.tripped

def Feed.init : Feed := { command := false, partnerCommand := false, present := false, tripped := false }

def Blade.feed (b : Blade) (k : Nat) : Feed := mget Feed.init k b.hw.feeds

/-- A mux that loses its power forgets its selection (R24). -/
def Blade.forgetMux (b : Blade) (n : Nat) : Blade :=
  { b with pair.muxChosen := b.pair.muxChosen.filter (· ≠ n), pair.muxB := b.pair.muxB.filter (· ≠ n) }

/-- A feed changes; the mux of a port card or a carrier is powered by its feed. -/
def Blade.setFeed (b : Blade) (k : Nat) (f : Feed) : Blade :=
  let b := { b with hw.feeds := mput Feed.init k f b.hw.feeds }
  if 2 ≤ k && k < 12 && !f.on then b.forgetMux (k - 2) else b

/-- PWR registers (Tables 14.13 to 14.17). DEDUCED (log 85): PWR_DOMAIN(d).on and permitted read 0 until step 2 of start-up, as the
reset column of Tables 14.17 and 16.5 gives them for every domain. -/
def Blade.readPWR (b : Blade) (o : Nat) : Word32 :=
  if o = 0 then pack [(0, 2, b.hw.resetType.toNat), (2, 3, b.hw.resetCause.toNat)]
  else if o = 8 then
    pack [(0, 1, b2n b.hw.boot.bootedB), (1, 1, b2n b.hw.boot.trial), (2, 1, b2n b.hw.boot.fallback),
      (3, 1, b2n b.hw.boot.factory), (4, 4, (~~~b.hw.boot.revoked).toNat)]
  else if o = 0x14 then
    pack [(0, 4, b.hw.startStep.toNat), (4, 1, b2n (b.pair.role ≠ .starting || b.hw.waitingPartner)), (5, 1, b2n b.hw.inService),
      (6, 1, b2n b.hw.startFailed), (7, 5, b.hw.startCause.toNat)]
  else if o = 0x18 then w32 b.hw.domainsOn.toNat
  else if o = 0x1C then w32 (b.hw.domainsOn.toNat / 2 ^ 32)
  else
    match arr o 0x100 4 33, arr o 0x200 4 16 with
    | some d, _ =>
      pack [(0, 1, (b.reg (rPWR + o)).toNat), (1, 1, b2n (2 ≤ b.hw.startStep.toNat && b.hw.domainsOn.getLsbD d)),
        (2, 1, b2n (2 ≤ b.hw.startStep.toNat && b.domainPermitted d)), (3, 1, b2n (b.flag (rPWR + o) 3))]
    | none, some k =>
      let f := b.feed k
      pack [(0, 1, b2n f.command), (1, 1, b2n f.partnerCommand), (2, 1, b2n f.on), (3, 1, b2n f.present),
        (4, 1, b2n f.tripped)]
    | none, none => b.reg (rPWR + o)

def Channel.init : Channel :=
  { isOpen := false, stalled := false, kind := 0, slot := 0, via := false, peer := 0, peerPort := 0, retxMs := 20, target := 0,
    endpoint := 0, node := 0, txNext := 0, txAcked := none, rxExpected := 0, rxAcked := none, retx := 0, dropped := 0,
    sent := [], sending := none, resend := [], badRun := false, runSegments := 0, waitingWords := [], waitingSeal := none,
    ackables := [], base := 0, progress := 0, ackDue := false, duplicateAck := false }

def Blade.channel (b : Blade) (h : Nat) : Channel := mget Channel.init h b.eng.channels

def Blade.setChannel (b : Blade) (h : Nat) (c : Channel) : Blade :=
  { b with eng.channels := mput Channel.init h c b.eng.channels }

/-- A channel's state as Table 11.10 codes it. -/
def Channel.code (c : Channel) : Nat := if !c.isOpen then 0 else if c.stalled then 2 else 1

/-- CMD registers (Tables 11.16 to 11.20). -/
def Blade.readCMD (b : Blade) (who : Port) (o : Nat) : Word32 :=
  if o = 8 then
    pack [(0, 4, flagBits ((List.range 4).map fun s => (b.key s).present)), (4, 1, b2n b.provisioning),
      (5, 4, b.eng.deferred.length)]
  else if o = 0xC then
    pack [(0, 4, (b.csr.posted.filter (·.port = who)).length), (16, 16, selected b.csr.postDropped who)]
  else if o = 0x20 then w32 b.eng.ptpTime.toNat
  else if o = 0x24 then w32 (b.eng.ptpTime.toNat / 2 ^ 32)
  else
    match arr o 0x10 4 4, arr o 0x100 4 32 with
    | some s, _ => (b.key s).last
    | none, some h =>
      let c := b.channel h
      if c.isOpen then pack [(0, 2, c.code), (2, 2, c.kind.toNat), (4, 2, c.slot.val), (6, 1, b2n c.via)] else 0
    | none, none => b.reg (rCMD + o)

/-- A group holds a sticky bit of an effective class. -/
def Blade.pending (b : Blade) (g cls : Nat) : Bool :=
  b.flt.sources.any fun e => e.1 / 32 = g && e.2.sticky && e.2.eff.toNat = cls

/-- Two bits for each of sixteen sources of a group. -/
def classWord (f : Nat → Nat) (first : Nat) : Word32 :=
  w32 ((List.range 16).map fun k => f (first + k) % 4 * 4 ^ k).sum

/-- The contained bit of a group with the earliest deadline (Table 12.19). -/
def Blade.deadlineWord (b : Blade) (g : Nat) : Word32 :=
  let ds := (List.range 32).filterMap fun k =>
    let v := b.source (32 * g + k)
    if v.sticky && v.eff.toNat = 1 && 1 ≤ v.deadline then some (k, v.deadline) else none
  match ds with
  | [] => 0
  | d :: r =>
    let e := r.foldl (fun a x => if x.2 < a.2 then x else a) d
    pack [(0, 5, e.1), (5, 3, e.2)]

/-- The registers of a fault group. -/
def Blade.readGroup (b : Blade) (g o : Nat) : Word32 :=
  match o with
  | 0x00 => b.stickyWord g
  | 0x04 => classWord (fun k => (b.source (32 * g + k)).eff.toNat) 0
  | 0x08 => classWord (fun k => (b.source (32 * g + k)).eff.toNat) 16
  | 0x0C => classWord (fun k => (b.sourceOf (32 * g + k)).1.code) 0
  | 0x10 => classWord (fun k => (b.sourceOf (32 * g + k)).1.code) 16
  | 0x1C => b.deadlineWord g
  | _ => b.reg (rGROUP g + o)

/-- The alarm conditions of Table 12.22, present states all, from step 2 of start-up on. DESIGN CHOICE (log 91): the carriers'
condition is the active blade's and a starting one's, since a standby has no path to a carrier (R26). -/
def Blade.alarms (b : Blade) : Nat :=
  if b.hw.startStep.toNat < 2 then 0
  else
    let cause := fun k => (b.source (srcWide 8 k)).cause
    flagBits [cause 0, cause 1, cause 2 || cause 3 || cause 4 || cause 5, cause 6, !b.joined,
      b.pair.role ≠ .standby && ((b.carrier 0).state ≠ .inService || (b.carrier 1).state ≠ .inService), (b.source (srcWide 9 4)).cause,
      b.net.spareValid = 0, b.flt.noSpareRow]

/-- The blade's relay is de-energised: its module alarm is raised, or it is fenced or without main power (R542, R32). -/
def Blade.alarmRaised (b : Blade) : Bool := b.flt.fenced || b.hw.startStep.toNat < 2 || w32 b.alarms &&& ~~~(b.reg (rFAULT + 0x3024)) ≠ 0

/-- The ALIVE line toggles (R540). -/
def Blade.aliveRuns (b : Blade) : Bool :=
  !b.flt.fenced && 4 ≤ b.hw.startStep.toNat && !(b.source (srcWide 9 2)).sticky

/-- FAULT registers. -/
def Blade.readFAULT (b : Blade) (who : Port) (o : Nat) : Word32 :=
  if o < 0x3000 then b.readGroup (o / 0x100) (o % 0x100)
  else if o = 0x3004 then
    w32 (flagBits [b.flt.sources.any fun e => e.2.sticky && e.2.eff = 0,
      b.flt.sources.any fun e => e.2.sticky && e.2.eff = 1, b.flt.sources.any fun e => e.2.sticky && e.2.eff = 2,
      b.flt.fenced])
  else if o = 0x3020 then w32 b.alarms
  else if o = 0x3030 then
    w32 (flagBits [b.aliveRuns, b.aliveRuns && b.active && b.flt.moduleRuns, b.pair.partnerAlive])
  else if o = 0x3034 then w32 (selected b.csr.injSel who)
  else if o = 0x3038 then
    let v := b.source (selected b.csr.injSel who)
    pack [(0, 2, v.mode.toNat), (2, 30, min v.remaining 0x3FFFFFFF)]
  else
    match arr o 0x3008 8 3, arr o 0x300C 8 3 with
    | some c, _ => w32 (flagBits ((List.range 32).map fun g => b.pending g c))
    | none, some c => w32 (flagBits ((List.range 16).map fun g => b.pending (32 + g) c))
    | none, none => b.reg (rFAULT + o)

/-- The records of a dump or of the live ring by ring position; a position never written reads as zeros. -/
def Blade.ringRecord (b : Blade) (saved : Bool) (i : Nat) : BitVec 256 :=
  if saved then
    match b.flt.saved with
    | some d => d.records.getD ((i + 4096 - d.head.toNat % 4096) % 4096) 0
    | none => 0
  else mget 0 i b.flt.ring

/-- REC registers. -/
def Blade.readREC (b : Blade) (who : Port) (o : Nat) : Word32 :=
  if o = 0 then
    pack [(0, 1, b2n b.flt.frozen), (1, 3, b.flt.cause.toNat), (4, 1, b2n b.flt.saved.isSome),
      (5, 1, b2n (b.storesWait 8194)), (6, 8, b.field rREC 6 8), (16, 16, b.flt.lost.toNat)]
  else if o = 4 then w32 b.flt.head.toNat
  else if o = 8 then b.flt.number
  else if o = 0xC then b.flt.freezeFrame
  else if o = 0x20 then w32 (selected b.csr.recSel who)
  else
    match arr o 0x40 4 8 with
    | some k =>
      let s := selected b.csr.recSel who
      w32 (bits (b.ringRecord (bitOf s 12) (s % 4096)).toNat (32 * k) 32)
    | none => b.reg (rREC + o)

/-- TNET registers. -/
def Blade.readTNET (b : Blade) (o : Nat) : Word32 :=
  if o = 0 then
    let g := b.net.migration
    pack [(0, 1, b2n (g.any (·.barrier))), (1, 1, b2n (g.any fun g => !g.barrier && g.moved.length < 512)), (2, 12, b.field rTNET 2 12),
      (14, 10, (g.map fun g => 512 - g.moved.length).getD 0)]
  else if o = 4 then
    pack [(0, 6, 32), (6, 1, b2n (b.net.spareValid.getLsbD 0)), (8, 6, 33), (14, 1, b2n (b.net.spareValid.getLsbD 1))]
  else if o = 8 then w32 b.net.activeTiles.toNat
  else if o = 0xC then w32 (b.net.activeTiles.toNat / 2 ^ 32)
  else
    match arr o 0x400 4 256 with
    | some i => w32 (b.tiling i)
    | none => b.reg (rTNET + o)

/-- MSTORE registers. -/
def Blade.readMSTORE (b : Blade) (o : Nat) : Word32 :=
  if o = 0xC then
    pack [(0, 1, b2n b.net.throttling), (1, 1, b2n (b.net.sets.any fun e => e.2.blocked)),
      (2, 1, b2n b.net.stallUnresolved), (3, 4, b.net.stallFrames),
      (7, 2, match b.led.parking with
        | some p => if p.unparking then 2 else 1
        | none => 0),
      (16, 16, (b.led.parking.map fun p => p.context.toNat).getD 0)]
  else if o = 0x10 then w32 b.spillBlocks
  else if o = 0x14 then w32 b.spillLive
  else
    match arr o 0x100 4 34, arr o 0x200 4 34 with
    | some t, _ => pack [(0, 13, b.sliceUsed t), (16, 13, b.field (rMSTORE + o) 16 13)]
    | none, some t =>
      let x := b.tile t
      pack [(0, 5, x.waiting.length), (8, 4, x.spillOps), (12, 1, b2n (b.tileBlocked t))]
    | none, none => b.reg (rMSTORE + o)

/-- SCHED registers. -/
def Blade.readSCHED (b : Blade) (o : Nat) : Word32 :=
  match arr o 0x100 4 34 with
  | some t =>
    let x := b.tile t
    pack [(0, 11, x.ready.length), (16, 1, b2n (b.struck (fnTile t) && b.net.activeTiles.getLsbD t)), (17, 1, b2n x.prefetched.isSome)]
  | none => b.reg (rSCHED + o)

/-- FLOW registers. DESIGN CHOICE (log 87): FLOW_ROB.booked counts the reservations of R298 with the others. -/
def Blade.readFLOW (b : Blade) (o : Nat) : Word32 :=
  if o = 0 then
    pack [(0, 14, b.robHeld true + b.robHeld false), (16, 13, b.robBooked true + b.robBooked false),
      (31, 1, b2n (b.struck fnRelease))]
  else if o = 4 then w32 (b.ord.free.size)
  else
    match arr o 0x4000 4 4096, arr o 0x8000 4 4096 with
    | some f, _ => pack [(0, 16, (b.flow f).head.toNat), (16, 16, (b.flow f).next.toNat)]
    | none, some f =>
      let v := b.flow f
      pack [(0, 16, v.owner.toNat), (16, 1, b2n v.owned), (17, 14, v.held.length)]
    | none, none => b.reg (rFLOW + o)

/-- DELAY registers. DESIGN CHOICE (log 87): DELAY_HELD.count shows the whole length of a hold buffer. -/
def Blade.readDELAY (b : Blade) (o : Nat) : Word32 :=
  if o = 0 then
    let ns := List.range 4
    w32 (flagBits (ns.map (fun n => b.struck (fnDelay n)) ++ ns.map (fun n => b.delayFull n) ++
      ns.map fun n => !(b.delay n).overflow.isEmpty))
  else if o = 4 then w32 b.fineTicks
  else
    match arr o 0x10 4 4, arr o 0x20 4 4 with
    | some n, _ => pack [(0, 13, (b.delay n).onChip.length), (13, 17, (b.delay n).overflow.length)]
    | none, some n => w32 (b.delay n).hold.length
    | none, none => b.stagedOr (rDELAY + o) (b.reg (rDELAY + o))

/-- CTX registers. -/
def Blade.readCTX (b : Blade) (o : Nat) : Word32 :=
  match o with
  | 0x04 => w32 (b2n b.led.activeSlotB)
  | 0x08 => w32 (65280 - (mkeys (fun c (x : Ctx) => 256 ≤ c && x.state ≠ .free) b.led.contexts).length)
  | 0x0C => w32 (b.ctxCount .live)
  | 0x10 => w32 (b.ctxCount .damaged)
  | 0x14 => w32 (b.ctxCount .parked)
  | 0x20 => pack [(0, 1, (b.reg (rCTX + o)).toNat), (1, 1, b2n b.censusSuspended)]
  | 0x28 => w32 b.balanceSum
  | 0x2C => w32 (b.balanceSum / 2 ^ 32)
  | _ => b.reg (rCTX + o)

/-- Spare rows in use, and spare rows marked bad (Table 7.20). -/
def Blade.sparesUsed (b : Blade) (k : Nat) : Nat := ((List.range 4).filter fun s => b.flag (rREPAIR k s) 9).length

def Blade.sparesBad (b : Blade) (k : Nat) : Nat := flagBits ((List.range 4).map fun s => b.flag (rREPAIR k s) 10)

/-- MEM registers, the RWS ones with what is staged. -/
def Blade.readMEM (b : Blade) (o : Nat) : Word32 :=
  match arr o 0x100 4 64, arr o 0x400 4 256 with
  | some k, _ =>
    pack [(0, 1, b2n (b.bankOffline k)),
      (1, 1, b2n ((b.bank.repair.map fun r => decide (r.bank.val = k)).getD false)), (2, 3, b.sparesUsed k),
      (5, 4, b.sparesBad k)]
  | none, some _ => merge 0x3FF (b.reg (rMEM + o)) (b.stagedOr (rMEM + o) (b.reg (rMEM + o)))
  | none, none => b.reg (rMEM + o)

/-- A background pass runs (R327), once start-up has marched and hoisted the banks, in either role. -/
def Blade.backgroundRuns (b : Blade) : Bool :=
  b.flag rMARCH 0 && b.bank.march.isNone && 7 ≤ b.hw.startStep.toNat && !b.flt.fenced &&
    (List.range 64).any fun k => !b.struck (fnBank k)

/-- The next hoisted bank from one on, in turn. -/
def Blade.sweepBank (b : Blade) (k : Nat) : Option Nat :=
  (firstFrom (fun i => !b.struck (fnBank ((k + i) % 64))) 64 0).map fun i => (k + i) % 64

/-- The bank and the index of the next background borrow (R327, Table 7.24). -/
def Blade.sweepPlace (b : Blade) : Nat × Nat :=
  let pos := (b.reg (rMARCH + 0xC)).toNat
  let k := bits pos 0 6
  match b.sweepBank k with
  | some j => (j, if j = k then bits pos 6 14 else 0)
  | none => (k, bits pos 6 14)

/-- MARCH registers; the rows that a destructive march has done are time's, and `freeField` gives them. -/
def Blade.readMARCH (b : Blade) (o : Nat) : Word32 :=
  if o = 4 then 0
  else if o = 0xC then pack [(0, 6, b.sweepPlace.1), (6, 14, b.sweepPlace.2)]
  else if o = 8 then
    let bank := match b.bank.march with
      | some r => r.bank.val
      | none => if b.backgroundRuns then b.sweepPlace.1 else 0
    let rows := match b.bank.march with
      | some r => if bitOf r.word.toNat 6 then 0 else r.borrow / 16
      | none => if b.backgroundRuns then b.sweepPlace.2 / 16 else 0
    pack [(0, 1, b2n b.bank.march.isSome), (1, 1, b2n b.backgroundRuns), (2, 6, bank),
      (8, 2, b.field (rMARCH + 8) 8 2), (16, 10, rows)]
  else b.reg (rMARCH + o)

/-- ATOM registers. -/
def Blade.readATOM (b : Blade) (o : Nat) : Word32 :=
  if o = 0x20 then w32 (b.bank.semaphores.filter fun e => e.2.held).length
  else
    match arr o 0x1000 4 1024, arr o 0x2000 4 1024 with
    | some n, _ =>
      let s := b.sem n
      pack [(0, 16, s.generation.toNat), (16, 1, b2n s.held), (17, 2, s.cls.toNat), (19, 8, s.unit.toNat)]
    | none, some n => w32 (b.sem n).context.toNat
    | none, none => b.reg (rATOM + o)

/-- A producer of a queue waits for a cell or for its HOIST (R374, R375). -/
def Blade.queueWaiting (b : Blade) (q : Nat) : Bool :=
  (b.net.tiles.any fun e => match e.2.firing.bind (·.stall) with
    | some s => s.queue.toNat = q
    | none => false) ||
    (b.lan.halyards.any fun e => e.2.waitsFor.map (·.toNat) = some q) ||
    (b.eng.channels.any fun e => q = 8256 + e.1 && (!e.2.waitingWords.isEmpty || e.2.waitingSeal.isSome)) ||
    b.storesWait q || (q = 8192 && !b.led.trail.isEmpty && (b.struck (fnQueue q) || !b.cellFree q))

/-- QPOOL_QSTAT_A of a queue (Table 8.21). DEDUCED (log 85): `full` reads 0 for a queue that stands as it is reset, as the reset
column gives it, though its quota of 0 lets it take no cell. -/
def Blade.queueStatus (b : Blade) (q : Nat) : Word32 :=
  pack [(0, 17, b.cellCount q), (17, 1, b2n (b.struck (fnQueue q))), (18, 1, b2n (b.queue q ≠ queueInit q && !b.cellFree q)),
    (19, 1, b2n (b.queueWaiting q))]

/-- QPOOL registers; QCFG and QSTAT are of the queue that the requester has selected. -/
def Blade.readQPOOL (b : Blade) (who : Port) (o : Nat) : Word32 :=
  let q := selected b.csr.queueSel who
  match o with
  | 0x04 => w32 b.pool.free.size
  | 0x08 => w32 b.poolOpen
  | 0x0C => w32 b.poolQueued
  | 0x10 => w32 b.poolReleased
  | 0x14 => w32 b.pool.lost
  | 0x18 => w32 b.reserveSum
  | 0x1C => w32 b.reservedFree
  | 0x100 => w32 q
  | 0x104 => b.stagedOr (queueKey q 0) ((b.queue q).word 0)
  | 0x108 => b.stagedOr (queueKey q 1) ((b.queue q).word 1)
  | 0x10C => b.stagedOr (queueKey q 2) ((b.queue q).word 2)
  | 0x110 => b.stagedOr (queueKey q 3) ((b.queue q).word 3)
  | 0x114 => b.queueStatus q
  | 0x118 => w32 ((b.queue q).order.filter fun i => (b.packet i).state = .visible).length
  | _ => b.reg (rQPOOL + o)

/-- KB of records in journal staging. -/
def Blade.stagedKB (b : Blade) : Nat := (((b.hw.journal.filter (!·.written)).map fun r => r.bytes.length).sum + 1023) / 1024

def CarrierState.code : CarrierState → Nat
  | .absent => 0
  | .off => 1
  | .starting => 2
  | .resilvering => 3
  | .inService => 4
  | .failed => 5

/-- JRNL registers. -/
def Blade.readJRNL (b : Blade) (o : Nat) : Word32 :=
  match o with
  | 0x00 => b.stagedOr rJRNL (b.reg rJRNL)
  | 0x0C => pack [(10, 1, b2n b.hw.resilvering.isSome)]
  | 0x1C => w32 (min b.stagedKB 0xFFFFFF)
  | _ =>
    match arr o 4 4 2 with
    | some k =>
      let c := b.carrier k
      pack [(0, 3, c.state.code), (3, 1, b2n c.present), (4, 1, b2n c.link), (16, 16, c.capacity.toNat)]
    | none => b.reg (rJRNL + o)

def BladeRole.code : BladeRole → Nat
  | .starting => 0
  | .active => 1
  | .standby => 2

def Duplex.code : Duplex → Nat
  | .solo => 0
  | .joining => 1
  | .joined => 2
  | .doubt => 3
  | .unjoined => 4

/-- The partner counts as claiming (R23). -/
def Blade.partnerClaims (b : Blade) : Bool := b.pair.partnerClaim && b.pair.partnerAlive

/-- The duplex state as TOGGLE_STATUS shows it: an active blade stays SOLO while its partner joins (R557). -/
def Blade.shownDuplex (b : Blade) : Nat := if b.active && b.pair.duplex = .joining then 0 else b.pair.duplex.code

/-- TOGGLE registers. -/
def Blade.readTOGGLE (b : Blade) (o : Nat) : Word32 :=
  match o with
  | 0x00 => b.stagedOr rTOGGLE (b.reg rTOGGLE)
  | 0x04 => pack [(0, 2, b.pair.role.code), (2, 3, b.shownDuplex), (5, 1, b2n b.pair.lock),
      (6, 1, b2n b.pair.partnerPresent), (7, 1, b2n b.partnerClaims), (8, 1, b2n (b.struck fnToggle)), (9, 1, b2n b.pair.throttled)]
  | 0x0C => if b.active then 0 else b.reg (rTOGGLE + 0xC)
  | 0x10 => w32 (min (b.pair.logUnsent / 1024) 0xFFFFFF)
  | _ => b.reg (rTOGGLE + o)

/-- The uplink that answers for the service address (R520). -/
def Blade.serviceUplink (b : Blade) : Nat := if b.flag (rUPLINK 0 + 4) 0 then 0 else 1

/-- The bits of an UPLINK register that are not reserved (Tables 11.21 and 11.22). -/
def uplinkMask (u o : Nat) : Nat :=
  if o = 0 then 0xFF7FFF
  else if o = 0xC then 0xFFFF
  else if o = 0x1C then 0xFF3F
  else if u ≠ 0 ∧ (o = 0x18 ∨ (0x40 ≤ o ∧ o < 0x50)) then 0
  else 0xFFFFFFFF

/-- UPLINK registers; the link and the PTP state are kept in the status word. -/
def Blade.readUPLINK (b : Blade) (u o : Nat) : Word32 :=
  let a := rUPLINK u + o
  if o = 4 then
    pack [(0, 1, (b.reg a).toNat), (1, 1, b2n (b.struck (fnUplink u))), (2, 3, b.ptpState u),
      (5, 1, b2n (b.servesAddress u))]
  else b.stagedOr a (b.reg a) &&& w32 (uplinkMask u o)

/-- TILE registers. -/
def Blade.readTILE (b : Blade) (t o : Nat) : Word32 :=
  let x := b.tile t
  match o with
  | 0 => w32 (flagBits [b.struck (fnTile t), b.net.activeTiles.getLsbD t,
      (t = 32 && b.net.spareValid.getLsbD 0) || (t = 33 && b.net.spareValid.getLsbD 1), b.net.retiredTiles.getLsbD t,
      b.net.failedTiles.getLsbD t])
  | 4 => pack [(0, 20, x.lastNode.toNat), (20, 1, b2n x.firing.isSome)]
  | 8 => pack [(0, 16, x.lastContext.toNat), (16, 12, x.lastIteration.toNat)]
  | _ => b.reg (rTILE t + o)

/-- LANE registers of a cluster, LANE_EP with what is staged. -/
def Blade.readLANE (b : Blade) (c o : Nat) : Word32 :=
  let k := b.cluster c
  let lane := fun h : Nat => 16 * c + h
  let hs := List.range 16
  if o = 4 then
    pack [(0, 1, b2n (b.struck (fnCluster c))), (1, 1, b2n k.faultStruck), (2, 1, b2n k.quiescing), (3, 1, b2n k.loading),
      (16, 16, flagBits (hs.map fun h => (b.halyard (lane h)).yielded))]
  else if o = 8 then k.imageId
  else if o = 0x24 then
    pack [(0, 16, flagBits (hs.map fun h => (b.halyard (lane h)).notices.head?.any fun t => t.context.toNat = lane h + 1 && b.flowFull (lane h))),
      (16, 16, flagBits (hs.map fun h => 32 ≤ (b.halyard (lane h)).notices.length))]
  else
    match arr o 0x10 4 4, arr o 0x100 4 16, arr o 0x140 4 16 with
    | some i, _, _ => w32 (bits (mget 0 (b.reg (rLANE c + 0xC)).toNat k.store).toNat (32 * i) 32)
    | none, some h, _ =>
      let v := b.halyard (lane h)
      pack [(0, 12, v.pc.toNat), (12, 1, b2n v.yielded), (13, 1, b2n v.replaying), (14, 3, v.stack.length),
        (17, 1, b2n v.inTaint), (18, 1, b2n v.outTaint), (19, 5, v.endpoint.toNat), (24, 1, b2n v.rxOpen.isSome)]
    | none, none, some h =>
      pack [(0, 16, (b.laneEvents (lane h)).toNat), (16, 16, (b.halyard (lane h)).waitMask.toNat)]
    | none, none, none =>
      match arr o 0x400 4 256, arr o 0x1000 4 512 with
      | some i, _ => mget 0 (i % 16) (b.halyard (lane (i / 16))).u
      | none, some _ => b.stagedOr (rLANE c + o) (b.reg (rLANE c + o))
      | none, none => b.reg (rLANE c + o)

/-- The registers of a lane port, which read their shadow copies (R500). -/
def Blade.readPORT (b : Blade) (l o : Nat) : Word32 :=
  let p := b.port l
  let a := rPORT l + o
  match o with
  | 0x00 => b.stagedOr a (b.reg a)
  | 0x04 =>
    pack [(0, 3, p.state.toNat), (3, 1, b2n (b.struck (fnPort l))), (4, 1, b2n p.energy), (5, 1, b2n p.lock),
      (6, 7, 64 - b.blocksInUse l - b.urgentInUse l), (13, 4, b.urgentSlots l - b.urgentInUse l),
      (17, 1, b2n p.auditPending), (18, 1, b2n b.net.throttling)]
  | 0x08 => pack [(0, 16, p.rxExpected.toNat), (16, 16, p.txNext.toNat)]
  | 0x0C => pack [(0, 16, p.rxAcked.toNat), (16, 16, p.txAcked.toNat)]
  | 0x10 => pack [(0, 16, p.uExpected.toNat), (16, 16, p.uAcked.toNat)]
  | 0x14 => pack [(0, 16, p.urgent.limit.toNat), (16, 16, p.urgent.consumed.toNat)]
  | 0x1C => pack [(0, 16, p.podFrame.toNat), (16, 3, p.podState.toNat)]
  | _ =>
    match arr o 0x100 4 32, arr o 0x180 4 32 with
    | some e, _ => pack [(0, 16, (p.grant e).limit.toNat), (16, 16, (p.grant e).consumed.toNat)]
    | none, some e => pack [(0, 16, (p.credit e).limit.toNat), (16, 16, (p.credit e).consumed.toNat)]
    | none, none => b.reg a

/-- What a register of the window shows a requester, but for its free fields; an address that no block defines reads zero
(R215, R497, R649). -/
def Blade.regValue (b : Blade) (who : Port) (a : Nat) : Word32 :=
  if a < rSYS then 0
  else if a < rKEY then (if a = rSYS then 0x8128F001 else if a = rSYS + 4 then b.frame else 0)
  else if a < rCLK then
    (if a = rKEY + 4 then w32 b.armBits else if a = rKEY + 8 then w32 (b.armBits / 2 ^ 32) else if a = rKEY then 0
     else b.reg a)
  else if a < rPWR then
    (if a = rCLK then pack [(0, 5, b.hw.pllLocks.toNat), (5, 1, b2n (4 ≤ b.hw.startStep.toNat))]
     else if a = rCLK + 0x20 then w32 (selected b.csr.measSel who)
     else if a = rCLK + 0x24 then w32 (selected b.csr.measured who)
     else b.reg a)
  else if a < rCMD then b.readPWR (a - rPWR)
  else if a < rFAULT then b.readCMD who (a - rCMD)
  else if a < rREC then b.readFAULT who (a - rFAULT)
  else if a < rTNET then b.readREC who (a - rREC)
  else if a < rMSTORE then b.readTNET (a - rTNET)
  else if a < rSCHED then b.readMSTORE (a - rMSTORE)
  else if a < rFLOW then b.readSCHED (a - rSCHED)
  else if a < rDELAY then b.readFLOW (a - rFLOW)
  else if a < rCTX then b.readDELAY (a - rDELAY)
  else if a < rMEM then b.readCTX (a - rCTX)
  else if a < rMARCH then b.readMEM (a - rMEM)
  else if a < rATOM then b.readMARCH (a - rMARCH)
  else if a < rQPOOL then b.readATOM (a - rATOM)
  else if a < rJRNL then b.readQPOOL who (a - rQPOOL)
  else if a < rTOGGLE then b.readJRNL (a - rJRNL)
  else if a < rUPLINK 0 then b.readTOGGLE (a - rTOGGLE)
  else if a < rUPLINK 3 then b.readUPLINK ((a - rUPLINK 0) / 0x1000) (a % 0x1000)
  else if a < rTILE 0 then 0
  else if a < rTILE 34 then b.readTILE ((a - rTILE 0) / 0x1000) (a % 0x1000)
  else if a < rLANE 0 then 0
  else if a < rLANE 8 then
    (match portOffset a with
     | some o => b.readPORT (16 * ((a - rLANE 0) / 0x10000) + (a % 0x10000 - 0x8000) / 0x400) o
     | none => b.readLANE ((a - rLANE 0) / 0x10000) (a % 0x10000))
  else if a < rCHAS then 0
  else if a = rCHAS then pack [(0, 1, b2n b.bladeB), (4, 4, 2)]
  else b.reg a

/-- A crossbar port has sent no token since the last reset. -/
def Blade.portIdle (b : Blade) (p : Nat) : Bool := b.reg (rTNET + 0x800 + 8 * p) = 0 && b.reg (rTNET + 0x804 + 8 * p) = 0

/-- Fields of a register that time alone decides: their position and a bound of their value. The counts of chapter 3 stay 0
while nothing has been sent that they could count. -/
def Blade.freeField (b : Blade) (a : Nat) : Option (Nat × Nat) :=
  if a = rSYS + 8 then some (0, 250000)
  else if a = rCLK + 0x28 then (if b.slaveUplink.isSome then some (0, 2 ^ 32) else none)
  else if a = rPWR + 0x14 then (if b.hw.startStep = 0 then none else some (16, 65536))
  else if (arr a (rTNET + 0xA00) 4 46).isSome then
    (if b.portIdle ((a - rTNET - 0xA00) / 4) then none else some (0, 2 ^ 32))
  else if a = rMARCH + 8 then
    (if (b.bank.march.map fun r => bitOf r.word.toNat 6).getD false then some (16, 517) else none)
  else if a = rJRNL + 0xC then (if b.hw.resilvering.isSome then some (0, 1001) else none)
  else if a = rTOGGLE + 4 then (if b.pair.duplex = .joining then some (16, 1001) else none)
  else if a = rTOGGLE + 0x44 then (if b.pair.partnerPresent then some (0, 2 ^ 32) else none)
  else if a = rCHAS + 0x110 ∨ a = rCHAS + 0x130 then
    (if (b.reg a).toNat / 65536 = 0xFFFF then none else some (16, 65536))
  else none

/-- What a read brings about before it: TOGGLE_STATUS and TOGGLE_BACKLOG show the LOG as it stands (R565), REC_DATA reads the
recorder's SRAM. -/
def Blade.beforeRead (b : Blade) (who : Port) (a : Nat) : Blade :=
  if a = rTOGGLE + 4 ∨ a = rTOGGLE + 0x10 then b.sampleLog
  else if (arr a (rREC + 0x40) 4 8).isSome then
    (let s := selected b.csr.recSel who
     if bitOf s 12 then b else b.checkRing [s % 4096])
  else b

/-- A register's word, its free fields drawn. -/
def Blade.readLive (b : Blade) (who : Port) (a : Nat) : Word32 × Blade :=
  let b := b.beforeRead who a
  let v := b.regValue who a
  match b.freeField a with
  | some (lo, n) =>
    let d := b.draw n
    (v ||| w32 (d.1 * 2 ^ lo), d.2)
  | none => (v, b)

/-- The offsets of a block's _LO registers (Tables 16.5 to 16.7). -/
def loOffset (a : Nat) : Bool :=
  if a < rSYS then false
  else if a < rCLK then a = rKEY + 4
  else if a < rCMD then a = rPWR + 0x18
  else if a < rFAULT then a = rCMD + 0x20
  else if a < rREC then
    let o := a - rFAULT
    if o < 0x3000 then o % 0x100 = 4 || o % 0x100 = 0xC else o = 0x3008 || o = 0x3010 || o = 0x3018 || o = 0x3040
  else if a < rTNET then false
  else if a < rMSTORE then a = rTNET + 8 || a = rTNET + 0x18 || (arr (a - rTNET) 0x800 8 48).isSome
  else if a < rSCHED then a = rMSTORE + 0x18 || a = rMSTORE + 0x20
  else if a < rFLOW then (arr (a - rSCHED) 0x200 8 34).isSome || (arr (a - rSCHED) 0x400 8 34).isSome
  else if a < rDELAY then a = rFLOW + 8 || a = rFLOW + 0x10
  else if a < rCTX then (arr (a - rDELAY) 0x40 8 8).isSome
  else if a < rMEM then (arr (a - rCTX) 0x28 8 5).isSome
  else if a < rMARCH then a = rMEM + 0x20
  else if a < rATOM then false
  else if a < rQPOOL then (arr (a - rATOM) 0 8 3).isSome
  else if a < rJRNL then a = rQPOOL + 0x28 || a = rQPOOL + 0x30
  else if a < rTOGGLE then a = rJRNL + 0x10 || a = rJRNL + 0x28
  else if a < rUPLINK 0 then a = rTOGGLE + 0x38
  else if a < rTILE 0 then
    let o := a % 0x1000
    a < rUPLINK 3 && (o = 8 || o = 0x60 || o = 0x68)
  else if a < rLANE 0 then false
  else if a < rLANE 8 then (portOffset a).isNone && (a % 0x10000 = 0x38 || a % 0x10000 = 0x40)
  else false

/-- The word that a read latches for its requester's next read (R499, Table 7.30): its _HI word, or a semaphore's OWNER. -/
def latchedBy (a : Nat) : Option Nat :=
  if loOffset a then some (a + 4)
  else if rATOM + 0x1000 ≤ a ∧ a < rATOM + 0x2000 then some (a + 0x1000)
  else none

/-- A read of the register window by a requester's port (R497, R499, R500). -/
def Blade.readReg (b : Blade) (who : Port) (a : Nat) : Word32 × Blade :=
  let held := b.csr.latches.find? fun l => l.port = who && l.address.toNat = a
  let b := { b with csr.latches := b.csr.latches.filter (·.port ≠ who) }
  match held with
  | some l => (l.value, b)
  | none =>
    let r := b.readLive who a
    match latchedBy a with
    | some h =>
      let x := r.2.readLive who h
      (r.1, { x.2 with csr.latches := x.2.csr.latches ++ [{ port := who, address := w32 h, value := x.1 }] })
    | none => r

end Sys2Proof.Machine
end

