-- ==== Sys2Proof/Machine/March.lean ====
section
/-! DEFINITION. What a march of a bank of the shared SRAM does to its words and finds (R321 to R324), and the spare rows
that its failing rows are mapped to. -/

namespace Sys2Proof.Machine

/-! ## Algorithms and backgrounds (R321, Tables 7.6 and 7.7) -/

/-- An operation of a march element: a read that expects the pattern (`one` false) or its complement, or a write of it. -/
inductive MarchOp where
  | read (one : Bool)
  | write (one : Bool)
  deriving DecidableEq, Repr

/-- A march element: its operations, and whether it visits the words in descending bank-local order. -/
structure MarchElement where
  down : Bool
  ops : List MarchOp
  deriving DecidableEq, Repr

/-- The elements of an algorithm (Table 7.6). Either order is the ascending one. -/
def marchElements (algorithm : Nat) : List MarchElement :=
  let r0 := MarchOp.read false
  let r1 := MarchOp.read true
  let w0 := MarchOp.write false
  let w1 := MarchOp.write true
  let up := fun l : List MarchOp => ({ down := false, ops := l } : MarchElement)
  let down := fun l : List MarchOp => ({ down := true, ops := l } : MarchElement)
  match algorithm with
  | 0 => [up [w0], up [r0, w1], down [r1, w0]]
  | 1 => [up [w0], up [r0, w1], up [r1, w0], down [r0, w1], down [r1, w0], up [r0]]
  | 2 => [up [w0], up [r0, r0, w0, r0, w1], up [r1, r1, w1, r1, w0], down [r0, r0, w0, r0, w1], down [r1, r1, w1, r1, w0],
          up [r0]]
  | _ => []

/-- The 72 bits written as 0 in a word (Table 7.7). DEDUCED (log 84): a word that is odd in an odd row is inverted twice. -/
def background (k row word : Nat) : BitVec 72 :=
  let five : BitVec 72 := 0x555555555555555555
  match k with
  | 0 => 0
  | 1 => if (row + word) % 2 = 1 then ~~~five else five
  | 2 => if row % 2 = 1 then BitVec.allOnes 72 else 0
  | _ => five

/-- The backgrounds of a MARCH_START word; none set means solid (Table 7.22). -/
def marchBackgrounds (w : Word32) : List Nat :=
  let l := (List.range 4).filter fun k => bitOf w.toNat (9 + k)
  if l.isEmpty then [0] else l

/-- A read of a march: its background's and its element's places, its own among the operations, and what it expects. -/
structure MarchRead where
  pass : Nat
  element : Nat
  down : Bool
  op : Nat
  expects : BitVec 72

/-- The reads that a march makes of a word, in the order it makes them. -/
def marchReads (algorithm : Nat) (backgrounds : List Nat) (row word : Nat) : List MarchRead :=
  backgrounds.zipIdx.flatMap fun g => (marchElements algorithm).zipIdx.flatMap fun e => e.1.ops.zipIdx.filterMap fun o =>
    match o.1 with
    | .read one =>
      some { pass := g.2, element := e.2, down := e.1.down, op := o.2,
             expects := if one then ~~~background g.1 row word else background g.1 row word }
    | .write _ => none

/-- The words of a bank, spare rows included (R323). -/
def bankWords : Nat := 33024

/-- When a read is made of the word at a place of the bank: the order in which the march makes its operations. -/
def MarchRead.time (r : MarchRead) (place : Nat) : Nat :=
  ((r.pass * 8 + r.element) * bankWords + (if r.down then bankWords - 1 - place else place)) * 8 + r.op

/-- When a word first fails, if it does: some read of it returned other bits than its element expects (R322). -/
def wordFailsAt (w : MarchWord) (algorithm : Nat) (backgrounds : List Nat) : Option Nat :=
  let place := 64 * w.row.val + 8 * w.line.toNat + w.word.toNat
  ((marchReads algorithm backgrounds w.row.val w.word.toNat).zipIdx.find? fun r =>
    w.returned.any fun x => x.1 = r.2 && x.2 ≠ r.1.expects).map fun r => r.1.time place

/-- Fails in the order in which the march finds them. -/
def insertFail (f : Nat × MarchFail) : List (Nat × MarchFail) → List (Nat × MarchFail)
  | [] => [f]
  | x :: xs => if x.1 ≤ f.1 then x :: insertFail f xs else f :: x :: xs

/-- The failing words of a march (R322). -/
def marchFails (algorithm : Nat) (backgrounds : List Nat) (ws : List MarchWord) : List MarchFail :=
  ((ws.filterMap fun w => (wordFailsAt w algorithm backgrounds).map fun t =>
    (t, ({ row := w.row, line := w.line, word := w.word } : MarchFail))).foldl (fun l f => insertFail f l) []).map (·.2)

/-! ## Fails (R322, Tables 7.25 and 7.26) -/

def srcMarchFound (k : Nat) : Nat := srcBank k 3
def srcNoSpare (k : Nat) : Nat := srcBank k 4

/-- One failing word is logged and counted. -/
def Blade.logFail (b : Blade) (bank : Nat) (f : MarchFail) (repaired destructive : Bool) : Blade :=
  let head := rMARCH + 0x14
  let i := b.field head 0 6
  let b := b.setReg (rMARCH + 0x100 + 4 * i) (pack [(0, 6, bank), (6, 10, f.row.val), (16, 3, f.line.toNat),
    (19, 3, f.word.toNat), (22, 1, b2n repaired), (23, 1, b2n destructive), (31, 1, 1)])
  let b := b.setReg head (pack [(0, 6, i + 1), (16, 16, min (b.field head 16 16 + 1) 0xFFFF)])
  b.raise (srcMarchFound bank)

/-- A row's log entries show that it has been mapped. -/
def Blade.logRepaired (b : Blade) (bank row : Nat) : Blade :=
  (List.range 64).foldl (fun b i =>
    let a := rMARCH + 0x100 + 4 * i
    if b.flag a 31 && b.field a 0 6 = bank && b.field a 6 10 = row then b.setField a 22 1 1 else b) b

/-! ## Spare rows (R324, R330, R332, Table 7.20) -/

/-- A spare row is neither bad nor mapped, staged mappings counting. -/
def Blade.spareFree (b : Blade) (bank s : Nat) : Bool := !bitOf (b.nextReg (rREPAIR bank s)) 9 && !b.flag (rREPAIR bank s) 10

/-- The lowest-numbered spare row that is free and not bad. -/
def Blade.freeSpare (b : Blade) (bank : Nat) : Option Nat := firstFrom (b.spareFree bank) 4 0

/-- A spare row is bad: no row is mapped to it, and none ever will be. -/
def Blade.spareBad (b : Blade) (bank s : Nat) : Blade := b.setField (rREPAIR bank s) 10 1 1

/-- A failing row has no spare row left. -/
def Blade.noSpare (b : Blade) (bank : Nat) : Blade := { b with flt.noSpareRow := true }.raise (srcNoSpare bank)

/-- A live repair's mapping is recorded in MEM_REPAIR at once (R331). -/
def Blade.mapRow (b : Blade) (bank row s : Nat) : Blade :=
  let b := (List.range 4).foldl (fun b k =>
    if b.flag (rREPAIR bank k) 9 && b.field (rREPAIR bank k) 0 9 = row then b.setField (rREPAIR bank k) 9 1 0 else b) b
  let b := b.setReg (rREPAIR bank s) (pack [(0, 9, row), (9, 1, 1), (10, 1, b2n (b.flag (rREPAIR bank s) 10))])
  b.record (.plain recREPAIR bank row s)

/-- The spare row that a row will be mapped to once what is staged takes effect. -/
def Blade.nextSpare (b : Blade) (bank row : Nat) : Option Nat :=
  firstFrom (fun s => bitOf (b.nextReg (rREPAIR bank s)) 9 && bits (b.nextReg (rREPAIR bank s)) 0 9 = row) 4 0

/-- A word of MEM_REPAIR is staged until the bank's HOIST. -/
def Blade.stageRepair (b : Blade) (bank s row valid : Nat) : Blade :=
  let a := rREPAIR bank s
  { b with csr.staged := (b.csr.staged.filter (·.1 ≠ a)) ++ [(a, pack [(0, 9, row), (9, 1, valid)])] }

/-- A march's mapping takes effect at HOIST (R324); an entry that named the row is given up with it. -/
def Blade.stageRow (b : Blade) (bank row s : Nat) : Blade :=
  let b := match b.nextSpare bank row with
    | some k => b.stageRepair bank k row 0
    | none => b
  (b.stageRepair bank s row 1).record (.plain recREPAIR bank row s)

/-! ## Destructive marches (R323, R324) -/

/-- The distinct rows among fails, in the order they were found. -/
def failRows (fails : List MarchFail) : List Nat := (fails.map fun f => f.row.val).dedup

/-- A data row fails as the bank's accesses will reach it: itself where it is unmapped, else its spare row. -/
def Blade.rowFails (b : Blade) (bank : Nat) (fails : List MarchFail) (row : Nat) : Bool :=
  let rows := failRows fails
  match b.nextSpare bank row with
  | some s => rows.contains (512 + s)
  | none => rows.contains row

/-- The data rows that are failing or are mapped to a failing spare row, ascending. -/
def Blade.failedRows (b : Blade) (bank : Nat) (fails : List MarchFail) : List Nat :=
  (List.range 512).filter (b.rowFails bank fails)

/-- A failing row is mapped to a spare row, or finds none. -/
def Blade.repairRow (b : Blade) (bank row : Nat) : Blade :=
  match b.freeSpare bank with
  | some s => b.stageRow bank row s
  | none => b.noSpare bank

/-- What a destructive march of a bank found: the log, and where repair was asked the bad spare rows and the mappings; and
whether it leaves a failing row unmapped (MARCH_STATUS.last_failed). -/
def Blade.marchResult (b : Blade) (bank : Nat) (fails : List MarchFail) (repair : Bool) : Bool × Blade :=
  let b := fails.foldl (fun b f => b.logFail bank f false true) b
  let bad := (List.range 4).filter fun s => (failRows fails).contains (512 + s)
  let b := if repair then bad.foldl (fun b s => b.spareBad bank s) b else b
  let rows := b.failedRows bank fails
  let b := if repair then rows.foldl (fun b r => b.repairRow bank r) b else b
  let b := rows.foldl (fun b r => if b.rowFails bank fails r then b else b.logRepaired bank r) b
  let left := rows.any (b.rowFails bank fails)
  (left, b.setField (rMARCH + 8) 9 1 (b2n left))

/-- The march of a start or of a domain switched on: March C− over the solid and checkerboard backgrounds, with repair
(R323, R616). -/
def Blade.marchFresh (b : Blade) (ws : List (Fin 64 × MarchWord)) (bank : Nat) : Bool × Blade :=
  b.marchResult bank (marchFails 1 [0, 1] ((ws.filter fun f => f.1.val = bank).map (·.2))) true

/-- A list of free length, of words of which one read returned free bits. -/
def drawWords : Nat → Blade → List (Fin 64 × MarchWord) × Blade
  | 0, b => ([], b)
  | n + 1, b =>
    let d := b.draw (64 * 516 * 64)
    let k := d.2.draw 10
    let v := k.2.draw (2 ^ 72)
    let f : MarchWord := { row := ⟨d.1 / 64 % 516, Nat.mod_lt _ (by decide)⟩, line := BitVec.ofNat 3 d.1,
                           word := BitVec.ofNat 3 (d.1 / 8), returned := [(k.1, BitVec.ofNat 72 v.1)] }
    let r := drawWords n v.2
    ((⟨d.1 / (64 * 516) % 64, Nat.mod_lt _ (by decide)⟩, f) :: r.1, r.2)

end Sys2Proof.Machine
end

