-- ==== Sys2Proof/Machine/Fans.lean ====
section
/-! DEFINITION. The fans' duty (R639, Table 15.10). -/

namespace Sys2Proof.Machine

def rFAN (k : Nat) : Nat := rCHAS + 0x200 + 4 * k
def rTEMP (k : Nat) : Nat := rCHAS + 0x300 + 4 * k

/-- A fan is faulty, absent or prepared (R639). -/
def Blade.fanOut (b : Blade) (k : Nat) : Bool := !b.flag (rFAN k) 23 || b.flag (rFAN k) 24 || b.flag (rFAN k) 25

/-- The duty of Table 15.10 for an inlet temperature in eighths of a degree, in hundredths of a percent. -/
def inletDuty (t : Int) : Nat :=
  if t ≤ 200 then 3500 else if 320 ≤ t then 10000 else 3500 + 6500 * (t - 200).toNat / 120

/-- A valid sensor's reading in eighths of a degree. -/
def Blade.tempOf (b : Blade) (k : Nat) : Option Int :=
  if b.flag (rTEMP k) 16 then some ((BitVec.ofNat 16 (b.field (rTEMP k) 0 16)).toInt) else none

/-- The duty that this blade commands, in percent (R639): how a fraction of a percent rounds is a free value. -/
def Blade.ownDuty (b : Blade) : Nat × Blade :=
  let inlet := ((b.tempOf 0).map inletDuty).getD 3500
  let d := b.draw 2
  let whole := inlet / 100 + (if inlet % 100 = 0 then 0 else d.1)
  let hot := (b.tempOf 2).any fun t => 680 ≤ t
  let full := hot || b.flag (rCHAS + 0x220) 7 || (List.range 4).any b.fanOut
  (if full then 100 else max whole (b.field (rCHAS + 0x220) 0 7), d.2)

/-- The blade drives its fan inputs: neither fenced nor without its main rail. -/
def Blade.drivesFans (b : Blade) : Bool := !b.flt.fenced && 2 ≤ b.hw.startStep.toNat

/-- The fans run at the higher of the duties of both blades, the partner's a free value, and at 100 % while neither drives them
(R639). -/
def Blade.driveFans (b : Blade) : Blade :=
  let o := if b.drivesFans then b.ownDuty else (if b.pair.partnerPresent then 0 else 100, b)
  let d := o.2.draw (101 - min o.1 100)
  let duty := if b.pair.partnerPresent then o.1 + d.1 else o.1
  (List.range 4).foldl (fun b k => b.setField (rFAN k) 16 7 duty) d.2

end Sys2Proof.Machine
end

