-- ==== Sys2Proof/Machine/RegWrite.lean ====
section
/-! DEFINITION. Writes of the register window (chapter 11): access types, key arms, staged fields, posted writes, and the
actions that some registers take. -/

namespace Sys2Proof.Machine

/-- A requester's port, and within it the halyard or key slot that writes; 0xFF is an untagged command. -/
structure Writer where
  port : Port
  sub : Nat

/-- A requester as a record codes it: its unit of Table 12.9 and what lies within it. -/
def Writer.code (w : Writer) : Nat :=
  match w.port with
  | .tile t => t.val
  | .cluster c => 0x40 + c.val + w.sub * 2 ^ 8
  | .command => 0x7E + w.sub * 2 ^ 8

/-- How a register write ends (R495, R505). -/
inductive WriteStatus where
  | done
  | notStruck
  | locked
  deriving DecidableEq, Repr

/-! ## Access types (Table 0.5) -/

/-- The writable fields of a register by access type, and the function that stages its RWS fields. -/
structure RegFields where
  rw : Nat
  rwk : Nat
  rws : Nat
  fn : Nat

def RegFields.none : RegFields := { rw := 0, rwk := 0, rws := 0, fn := 0 }
def RegFields.plain (m : Nat) : RegFields := { RegFields.none with rw := m }
def RegFields.guarded (m : Nat) : RegFields := { RegFields.none with rwk := m }
def RegFields.staged (m fn : Nat) : RegFields := { RegFields.none with rws := m, fn := fn }

/-- The mask of a queue's descriptor words. -/
def qcfgMask (k : Nat) : Nat :=
  match k with
  | 2 => 0xFFFF07FF
  | 3 => 0xFF0FFFFF
  | _ => 0x1FFFF

/-- Fields of the blocks from SYS to REC. -/
def fieldsLow (a : Nat) : RegFields :=
  if a = rCMD then .guarded 0xFFFFFFFF
  else if a = rCMD + 4 then .guarded 7
  else if rPWR + 0x100 ≤ a ∧ a < rPWR + 0x100 + 4 * 33 ∧ a % 4 = 0 then .guarded 1
  else if rPWR + 0x200 ≤ a ∧ a < rPWR + 0x240 ∧ a % 4 = 0 then .guarded 1
  else if rFAULT ≤ a ∧ a < rFAULT + 0x3000 ∧ a % 0x100 = 0x14 then .guarded 0xFFFFFFFF
  else if a = rFAULT + 0x3000 then { rw := 6, rwk := 1, rws := 0, fn := 0 }
  else if a = rFAULT + 0x3024 then .guarded 0x1FF
  else if a = rFAULT + 0x3028 then { rw := 0xFF, rwk := 0x100, rws := 0, fn := 0 }
  else .none

/-- Fields of the blocks from TNET to TOGGLE, but for the queue descriptors. -/
def fieldsMid (a : Nat) : RegFields :=
  if a = rMSTORE then .plain 3
  else if a = rMSTORE + 4 then .plain 0x7F7F
  else if a = rMSTORE + 8 then .plain 0x3FFFFF0F
  else if a = rSCHED then .plain 0xFF03
  else if rSCHED + 0x20 ≤ a ∧ a < rSCHED + 0x40 ∧ a % 4 = 0 then .plain 0xFFFFFFFF
  else if rDELAY + 0x30 ≤ a ∧ a < rDELAY + 0x40 ∧ a % 4 = 0 then .staged 1 (fnDelay ((a - rDELAY - 0x30) / 4))
  else if a = rCTX then .plain 1
  else if a = rCTX + 0x18 then .plain 0xFFFF
  else if a = rMEM then .plain 0xFFFFFFFF
  else if a = rMEM + 4 then .plain 0x1FF
  else if rMEM + 0x400 ≤ a ∧ a < rMEM + 0x800 ∧ a % 4 = 0 then .staged 0x3FF (fnBank ((a - rMEM - 0x400) / 16))
  else if a = rMARCH then .plain 0xFFFF0003
  else if rATOM + 0x100 ≤ a ∧ a < rATOM + 0x180 ∧ a % 4 = 0 then .guarded 0xF
  else if a = rQPOOL then .plain 3
  else if a = rJRNL then { rw := 0xFFFF0000, rwk := 0, rws := 1, fn := fnJournal }
  else if a = rTOGGLE then .staged 0xFFFFFF01 fnToggle
  else if a = rTOGGLE + 0x40 then .plain 0xFFFC
  else .none

/-- Fields of the UPLINK and LANE blocks. -/
def fieldsHigh (a : Nat) : RegFields :=
  if rUPLINK 0 ≤ a ∧ a < rUPLINK 3 ∧ a % 4 = 0 then
    let u := (a - rUPLINK 0) / 0x1000
    let o := a % 0x1000
    if o = 0 ∨ (0x10 ≤ o ∧ o < 0x50) then .staged (uplinkMask u o) (fnUplink u) else .none
  else if rLANE 0 ≤ a ∧ a < rLANE 8 then
    let c := (a - rLANE 0) / 0x10000
    let o := a % 0x10000
    if o = 0 then .guarded 1
    else if o = 0xC then .plain 0xFFF
    else if 0x1000 ≤ o ∧ o < 0x1800 ∧ o % 4 = 0 then .staged 0xFFFFFF7F (fnPort (16 * c + (o - 0x1000) / 0x80))
    else if portOffset a = some 0 then .staged 0xFFFF0FF1 (fnPort (16 * c + (o - 0x8000) / 0x400))
    else .none
  else .none

/-- The queue descriptor word that an address names. -/
def qcfgWord (a : Nat) : Option Nat := arr a (rQPOOL + 0x104) 4 4

/-- The fields of a register as a requester addresses it. -/
def Blade.fieldsOf (b : Blade) (who : Port) (a : Nat) : RegFields :=
  match qcfgWord a with
  | some k => .staged (qcfgMask k) (fnQueue (selected b.csr.queueSel who))
  | none => if a < rTNET then fieldsLow a else if a < rUPLINK 0 then fieldsMid a else fieldsHigh a

/-- Where a register's staged word is kept. -/
def Blade.stageKey (b : Blade) (who : Port) (a : Nat) : Nat :=
  match qcfgWord a with
  | some k => queueKey (selected b.csr.queueSel who) k
  | none => a

/-! ## Values that a write ignores -/

/-- The word that a write of RW fields leaves, those values ignored that their registers do not take. DESIGN CHOICE (log 87):
MSTORE_THROTTLE.on_pct takes any value, one above 100 too. -/
def acceptRW (a : Nat) (old new : Word32) : Word32 :=
  let n := new.toNat
  let keep := fun mask : Nat => merge (w32 mask) new old
  if a = rFAULT + 0x3028 then (if bits n 0 8 = 0 then keep 0xFF else new)
  else if a = rMSTORE + 4 then (if bits n 8 7 < bits n 0 7 then new else old)
  else if a = rMSTORE + 8 then
    let v := if bits n 0 4 < 2 then merge 0xF new old else new
    let v := if bits n 8 8 = 0 then merge 0xFF00 v old else v
    if 8191 < bits n 16 14 then merge 0x3FFF0000 v old else v
  else if a = rSCHED then (if bits n 8 8 = 0 then keep 0xFF00 else new)
  else if a = rMEM then (if bits n 16 16 = 0 then keep 0xFFFF0000 else new)
  else if a = rMEM + 4 then (if bits n 0 8 = 0 then keep 0xFF else new)
  else if a = rMARCH then (if bits n 16 16 < 64 then keep 0xFFFF0000 else new)
  else if a = rJRNL then (if bits n 16 16 < 16 then keep 0xFFFF0000 else new)
  else new

/-! ## Key arms (R653, R505) -/

/-- The source of the command that sets the command engine's arm (R481). -/
def Writer.source (w : Writer) : Option (Fin 4) := if h : w.sub < 4 then some ⟨w.sub, h⟩ else none

/-- A write of KEY_UNLOCK: the pass value leaves the arm set, any other consumes it. -/
def Blade.unlock (b : Blade) (w : Writer) (v : Word32) : Blade :=
  if v = 0x5E11 then
    let b := b.arm w.port
    if w.port = .command then { b with csr.armSource := some w.source } else b
  else b.disarm w.port

/-! ## Posted writes (R501 to R503) -/

/-- Writes to SH fields, and to LANE_PORT_CFG, are posted. -/
def postable (a : Nat) : Bool :=
  portOffset a = some 0 || portOffset a = some 0x18 || a = rCHAS + 0x220 || a = rCHAS + 0x400

/-- The slow domain of an address is absent: a lane port of an empty port-card slot. -/
def Blade.domainAbsent (b : Blade) (a : Nat) : Bool :=
  (portOffset a).isSome && !b.hw.cards.getLsbD ((a - rLANE 0) / 0x10000)

/-- A posted write takes effect. -/
def Blade.applyPosted (b : Blade) (p : PostedWrite) : Blade :=
  let a := p.address.toNat
  let n := p.value.toNat
  if b.domainAbsent a then
    let k := portId p.port
    { b with csr.postDropped := mput 0 k (w32 (min ((mget 0 k b.csr.postDropped).toNat + 1) 0xFFFF)) b.csr.postDropped }
  else if portOffset a = some 0 then
    { b with csr.staged := mput' a (merge 0xFFFF0FF1 (b.stagedOr a (b.reg a)) p.value) b.csr.staged }
  else if portOffset a = some 0x18 then b.setReg a 0
  else if a = rCHAS + 0x220 then
    let v := if bits n 0 7 < 35 then merge 0x80 (b.reg a) p.value else merge 0xFF (b.reg a) p.value
    (b.setReg a v).driveFans
  else b.setReg a (p.value &&& 1)
where
  /-- A staged word replaces the one at its key. -/
  mput' (k : Nat) (v : Word32) (l : SMap Word32) : SMap Word32 := (l.filter (·.1 ≠ k)) ++ [(k, v)]

/-- The oldest posted write of a requester takes effect (R501). -/
def Blade.postedEffect (b : Blade) (who : Port) : Blade :=
  match b.csr.posted.find? (·.port = who) with
  | some p => { b with csr.posted := dropFirst (·.port = who) b.csr.posted }.applyPosted p
  | none => b

/-- A write is posted; a ninth waits until the oldest takes effect (R502). -/
def Blade.post (b : Blade) (who : Port) (a : Nat) (v : Word32) : Blade :=
  let b := if 8 ≤ (b.csr.posted.filter (·.port = who)).length then b.postedEffect who else b
  { b with csr.posted := b.csr.posted ++ [{ port := who, address := w32 a, value := v }] }

/-- Every posted write to an address, and those of its requester before it, takes effect (R493). -/
def Blade.flushPosted (b : Blade) (a : Nat) : Blade :=
  times b.csr.posted.length (fun b =>
    match b.csr.posted.find? (·.address.toNat = a) with
    | some p => b.postedEffect p.port
    | none => b) b

/-! ## Mirroring (R560, Table 13.5) -/

/-- A register whose writes are never mirrored. -/
def neverMirrored (a : Nat) : Bool :=
  (rKEY ≤ a && a < rCLK) || (rMEM ≤ a && a < rMARCH) || (rJRNL ≤ a && a < rLANE 0) || a = rQPOOL + 0x100 ||
    a = rREC + 0x20 || a = rFAULT + 0x3034 ||
    (rLANE 0 ≤ a && a < rLANE 8 && a % 0x10000 = 0xC)

/-- A write that the active blade performed to an RW, RWS or RWK field goes to its partner. -/
def Blade.mirrorWrite (b : Blade) (who : Port) (a : Nat) (v : Word32) : Blade :=
  if b.mirrors && b.active && !neverMirrored a then
    match qcfgWord a with
    | some _ => b.sendOver (.mirror (.queue (BitVec.ofNat 14 (selected b.csr.queueSel who)) (w32 a) v))
    | none => b.sendOver (.mirror (.write (w32 a) v))
  else b

/-! ## The sweep's requested marches (R323 to R329) -/

/-- Whether a MARCH_START word may start, as a command's status. DESIGN CHOICE (log 87): a destructive one of algorithm 3 is DENIED. -/
def Blade.marchCheck (b : Blade) (v : Word32) : Nat :=
  let k := bits v.toNat 0 6
  if bitOf v.toNat 6 then
    if k < 4 then stDENIED
    else if !b.bankOffline k then stNOT_STRUCK
    else if b.bank.march.isSome then stBUSY
    else if bits v.toNat 7 2 = 3 then stDENIED
    else stOK
  else if b.bank.march.isSome then stBUSY
  else stOK

/-- A requested march starts; a destructive one leaves its bank zero from now on (R320). -/
def Blade.startMarch (b : Blade) (v : Word32) (dest : Option ReplyTo) : Blade :=
  let k := bits v.toNat 0 6
  { b with bank.march := some { bank := ⟨k % 64, Nat.mod_lt _ (by decide)⟩, word := v, borrow := 0, dest := dest },
           bank.zeroed := if bitOf v.toNat 6 then b.bank.zeroed ||| BitVec.ofNat 64 (2 ^ k) else b.bank.zeroed }

/-- The requested march ends before its time; the command of a destructive one has failed. -/
def Blade.stopMarch (b : Blade) : Blade :=
  match b.bank.march with
  | some r =>
    let b := { b with bank.march := none }
    if r.dest.isSome && bitOf r.word.toNat 6 then b.finishDeferred 0x33 stFAILED else b
  | none => b

/-- A destructive march runs on a bank. -/
def Blade.marches (b : Blade) (k : Nat) : Bool := b.bank.march.any fun r => r.bank.val = k && bitOf r.word.toNat 6

/-- A write of MARCH_START; a refused start, or one with algorithm 3, sets MARCH_STATUS.refused (Table 7.23). -/
def Blade.marchWrite (b : Blade) (v : Word32) : Blade :=
  if bitOf v.toNat 31 then
    if b.marchCheck v = stOK && bits v.toNat 7 2 ≠ 3 then b.startMarch v none else b.setField (rMARCH + 8) 8 1 1
  else b

/-! ## Power domains and feeds (R614 to R618) -/

/-- A function takes its reset state, struck, its staged words gone. -/
def Blade.resetFunction (b : Blade) (fn : Nat) : Blade := b.setStruck fn true

/-- A lane and its port take their reset values. -/
def Blade.resetLane (b : Blade) (l : Nat) : Blade :=
  ((b.setHalyard l Halyard.init).setPort l LanePort.init).resetFunction (fnPort l)

/-- The words of an address range take their reset values. -/
def Blade.resetWords (b : Blade) (lo hi : Nat) : Blade :=
  { b with csr.words := b.csr.words.filter fun e => e.1 < lo || hi ≤ e.1,
           csr.staged := b.csr.staged.filter fun e => e.1 < lo || hi ≤ e.1 }

/-- A tile takes its reset state. -/
def Blade.resetTile (b : Blade) (t : Nat) : Blade :=
  let b := (b.setTile t Tile.init).resetFunction (fnTile t)
  let b := ({ b with net.sets := b.net.sets.filter fun e => e.1 / 512 ≠ t } : Blade).updateThrottle
  b.resetWords (rTILE t) (rTILE t + 0x1000)

/-- A domain loses its contents (R616). -/
def Blade.loseDomain (b : Blade) (d : Nat) : Blade :=
  if d < 8 then
    let b := (b.setCluster d Cluster.init).resetFunction (fnCluster d)
    let b := (List.range 16).foldl (fun b h => b.resetLane (16 * d + h)) b
    b.resetWords (rLANE d) (rLANE d + 0x10000)
  else if d < 25 then (b.resetTile (2 * (d - 8))).resetTile (2 * (d - 8) + 1)
  else
    let g := d - 25
    let b := if (List.range 16).any fun k => b.marches (16 * g + k) then b.stopMarch else b
    let b := (List.range 16).foldl (fun b k => b.resetFunction (fnBank (16 * g + k))) b
    b.resetWords (rMEM + 0x400 + 256 * g) (rMEM + 0x500 + 256 * g)

/-- A bank group switched on runs a destructive march with repair on its banks, which hoist as zero (R616); what its reads
return is free. DEDUCED (log 86): the march is the start's, whose time is four groups' together. -/
def Blade.marchGroup (b : Blade) (g : Nat) : Blade :=
  let n := b.draw (64 * 516 * 64 + 1)
  let ws := drawWords n.1 n.2
  let b := (List.range 16).foldl (fun b k => (b.marchFresh ws.1 (16 * g + k)).2) ws.2
  { b with bank.zeroed := b.bank.zeroed ||| BitVec.ofNat 64 (0xFFFF * 2 ^ (16 * g)) }

/-- The tiles of a pair switched on run their self-test, whose results are free: a tile that fails is a failed one, and no valid
spare (R616, R602). -/
def Blade.testPair (b : Blade) (p : Nat) : Blade :=
  let d := b.draw 4
  (List.range 2).foldl (fun b i =>
    let t := 2 * p + i
    if bitOf d.1 i then b
    else { b with net.failedTiles := b.net.failedTiles ||| (BitVec.ofNat 34 (2 ^ t) &&& ~~~b.net.retiredTiles),
                  net.spareValid := if t < 32 then b.net.spareValid else b.net.spareValid &&& ~~~BitVec.ofNat 2 (2 ^ (t - 32)) }) d.2

/-- A request on a domain (R615, R616): off where Table 14.7 permits it, else refused. -/
def Blade.domainRequest (b : Blade) (d : Nat) (on : Bool) : Blade :=
  let bit : BitVec 33 := BitVec.ofNat 33 (2 ^ d)
  if on then
    if b.hw.domainsOn.getLsbD d then b
    else
      let b := { b with hw.domainsOn := b.hw.domainsOn ||| bit }
      if 25 ≤ d ∧ d < 29 then b.marchGroup (d - 25)
      else if 8 ≤ d ∧ d < 25 then b.testPair (d - 8)
      else b
  else if !b.hw.domainsOn.getLsbD d then b
  else if b.domainPermitted d then { b.loseDomain d with hw.domainsOn := b.hw.domainsOn &&& ~~~bit }
  else b.setField (rPWR + 0x100 + 4 * d) 3 1 1

/-- A feed is commanded on or off by this blade, and by a joined partner, which performs the same write (R28, R618, R560). -/
def Blade.commandFeed (b : Blade) (k : Nat) (on : Bool) : Blade :=
  let f := b.feed k
  b.setFeed k { f with command := on, partnerCommand := if b.active && b.mirrors then on else f.partnerCommand }

/-- Whether the partner commands the feeds of a range on (R618). -/
def Blade.partnerFeeds (b : Blade) (lo hi : Nat) (on : Bool) : Blade :=
  (List.range (hi - lo)).foldl (fun b i =>
    b.setFeed (lo + i) { b.feed (lo + i) with partnerCommand := on && (b.feed (lo + i)).present }) b

/-! ## Performing a write -/

/-- Selections held per requester (R382). -/
def Blade.selectWrite (b : Blade) (who : Port) (a : Nat) (v : Word32) : Option Blade :=
  let k := portId who
  if a = rQPOOL + 0x100 then some { b with csr.queueSel := mput 0 k (v &&& 0x3FFF) b.csr.queueSel }
  else if a = rREC + 0x20 then some { b with csr.recSel := mput 0 k (v &&& 0x1FFF) b.csr.recSel }
  else if a = rFAULT + 0x3034 then some { b with csr.injSel := mput 0 k (v &&& 0x7FF) b.csr.injSel }
  else if a = rCLK + 0x20 then
    let n := v &&& 0xFF
    if 202 < n.toNat then some b
    else some { b with csr.measSel := mput 0 k n b.csr.measSel, csr.measured := mput 0 k 0 b.csr.measured }
  else none

/-- L sources of a group whose cause holds and whose bit is clear assert, now that their mask may have changed (R527). -/
def Blade.assertCauses (b : Blade) (g : Nat) : Blade :=
  (mkeys (fun s (x : Source) => s / 32 = g && x.cause && !x.sticky) b.flt.sources).foldl Blade.raise b

/-- Actions of registers that no field of type RW, RWK or RWS describes: WO and W1C fields; what a write that changes bit 0 asks
of a power domain or a feed (R495); and what follows the write of a mask. -/
def Blade.actionWrite (b : Blade) (w : Writer) (turned : Bool) (a : Nat) (v : Word32) : Blade :=
  let n := v.toNat
  let clear := fun i : Nat => if bitOf n i then b.setField a i 1 0 else b
  if rFAULT ≤ a ∧ a < rFAULT + 0x3000 then
    if a % 0x100 = 0 then b.clearSticky ((a - rFAULT) / 0x100) v w.code
    else if a % 0x100 = 0x18 then clear 31
    else if a % 0x100 = 0x14 then b.assertCauses ((a - rFAULT) / 0x100)
    else b
  else if a = rFAULT + 0x302C then { b with flt.kickFrames := 0 }
  else if a = rMARCH + 4 then b.marchWrite v
  else if a = rMARCH + 8 then clear 8
  else if rMSTORE + 0x100 ≤ a ∧ a < rMSTORE + 0x188 ∧ a % 4 = 0 then
    (if bitOf n 31 then b.setField a 16 13 (b.sliceUsed ((a - rMSTORE - 0x100) / 4)) else b)
  else if a = rTOGGLE + 0x14 then (if bitOf n 31 then b.setField a 16 15 0 else b)
  else if a = rTOGGLE + 0x44 then
    (if b.pair.partnerPresent then b.sendOver (.peerWrite (w32 (0x020F0000 + (b.reg (rTOGGLE + 0x40)).toNat)) v) else b)
  else if a = rMEM + 0x24 then clear 31
  else if rLANE 0 ≤ a ∧ a < rLANE 8 ∧ a % 0x10000 = 0x20 then clear 31
  else
    match arr a (rPWR + 0x100) 4 33, arr a (rPWR + 0x200) 4 16 with
    | some d, _ => if turned then (clear 3).domainRequest d (bitOf n 0) else clear 3
    | none, some k => if turned then b.commandFeed k (bitOf n 0) else b
    | none, none => b

/-- A write that is not refused takes effect on a register's RW, RWK and RWS fields. -/
def Blade.fieldWrite (b : Blade) (who : Port) (a : Nat) (f : RegFields) (old v : Word32) : Blade :=
  let key := b.stageKey who a
  let live := w32 (f.rw + f.rwk)
  let new := acceptRW a (b.reg a) (merge live (b.reg a) v)
  let b := if f.rw + f.rwk = 0 then b else b.setReg a new
  let b := if a = rMSTORE + 4 then b.updateThrottle else b
  if f.rws = 0 ∨ !b.struck f.fn then b
  else if postable a then (if (old ^^^ v) &&& w32 f.rws = 0 then b else b.post who a v)
  else
    let word := merge (w32 f.rws) (if f.rw = 0 then old else new) v
    { b with csr.staged := (b.csr.staged.filter (·.1 ≠ key)) ++ [(key, word)] }

/-- A register write by a requester's port (R495, R505, R560, R653). -/
def Blade.writeReg (b : Blade) (w : Writer) (a : Nat) (v : Word32) : WriteStatus × Blade :=
  let who := w.port
  if a = rKEY then (.done, b.unlock w v)
  else
    let armed := b.isArmed who
    let b := b.disarm who
    match b.selectWrite who a v with
    | some b => (.done, if a = rCLK + 0x20 then b.mirrorWrite who a v else b)
    | none =>
      let f := b.fieldsOf who a
      let old := b.regValue who a
      let changed := old ^^^ v
      if changed &&& w32 f.rws ≠ 0 ∧ !b.struck f.fn then (.notStruck, b)
      else if changed &&& w32 f.rwk ≠ 0 ∧ !armed then (.locked, b.count (rKEY + 0xC))
      else
        let b := if f.rw + f.rwk + f.rws = 0 then (if postable a then b.post who a v else b)
          else b.fieldWrite who a f old v
        let b := b.actionWrite w (bitOf changed.toNat 0) a v
        (.done, if f.rw + f.rwk + f.rws = 0 then b else b.mirrorWrite who a v)

/-- What a tile's or a halyard's refused write raises (R216, R406): the register address, what was executing, its node's
debug tag, and a tile's context (Table 12.14). -/
def Blade.refusedWrite (b : Blade) (w : Writer) (k : Nat) (a : Nat) (d1 d2 : Nat) : Blade :=
  match w.port with
  | .tile t => b.raiseWith { Assertion.plain (srcTile t.val (6 + k)) with
      context := (b.tile t.val).firing.map (·.context), detail := (w32 a, w32 d1, w32 d2) }
  | .cluster c =>
    b.raiseWith { Assertion.plain (srcCluster c.val (7 + k)) with
      sub := BitVec.ofNat 8 w.sub, detail := (w32 a, w32 d1, w32 d2) }
  | .command => b

/-- A register write by a tile or a halyard. -/
def Blade.codeletWrite (b : Blade) (w : Writer) (a : Nat) (v : Word32) (d1 d2 : Nat) : Blade :=
  let r := b.writeReg w a v
  match r.1 with
  | .done => r.2
  | .notStruck => r.2.refusedWrite w 0 a d1 d2
  | .locked => r.2.refusedWrite w 1 a d1 d2

end Sys2Proof.Machine
end

