-- ==== Sys2Proof/Machine/Operands.lean ====
section
/-! DEFINITION. Operands of codelet instructions: general registers with their poison, immediates, rounding modes, windows
and targets; and the frame every instruction runs in: its fetch, its traps, its completion. -/

namespace Sys2Proof.Machine

/-! ## The end of a step -/

/-- Nothing waits for the end of the step: no assertion is due, no notice waits at port 44, no PARK or SYNC is open. -/
def Blade.quiet (b : Blade) : Bool :=
  b.flt.due.isEmpty && b.net.port44.isEmpty && (b.deferredOf 0x58).isNone && (b.deferredOf 0x14).isNone

/-- A SYNC is answered once the command engine's posted writes have all taken effect (R504). -/
def Blade.syncSettle (b : Blade) : Blade :=
  if b.csr.posted.any (·.port = .command) then b else b.finishDeferred 0x14 stOK

/-- What ends every step: the collector takes its assertions, port 44 sends its notices, a PARK command that has ended
otherwise and a SYNC whose writes are done are answered. -/
def Blade.endStep (b : Blade) (m : Memory) : Blade := if b.quiet then b else (b.settle m).parkSettle.syncSettle

/-- The state after a command that works on memory and blade. -/
def State.after (s : State) (r : Memory × Blade) : Result :=
  .next { s with mem := r.1, blade := r.2.endStep r.1 }

/-- The state after a command that works on the blade alone. -/
def State.afterBlade (s : State) (b : Blade) : Result := .next { s with blade := b.endStep s.mem }

/-! ## General registers (R190, R191) -/

/-- A register's value; g0 reads zero. -/
def Firing.reg (f : Firing) (r : RegNo) : Word64 := if r = 0 then 0 else mget 0 r.toNat f.g

/-- A register's poison bit; g0 is never poisoned. -/
def Firing.bad (f : Firing) (r : RegNo) : Bool := r ≠ 0 && f.poisoned.getLsbD r.toNat

/-- A result with its poison bit; one written to g0 is discarded. -/
def Firing.write (f : Firing) (r : RegNo) (v : Word64) (poison : Bool) : Firing :=
  if r = 0 then f
  else
    let bit : BitVec 32 := BitVec.ofNat 32 (2 ^ r.toNat)
    { f with g := mput 0 r.toNat v f.g, poisoned := if poison then f.poisoned ||| bit else f.poisoned &&& ~~~bit }

/-- The instruction completes and the next word follows. -/
def Firing.advance (f : Firing) : Firing := { f with pc := f.pc + 4, executed := f.executed + 1 }

/-- The instruction completes with a jump. -/
def Firing.jump (f : Firing) (target : Nat) : Firing := { f with pc := target, executed := f.executed + 1 }

def sext16 (imm : BitVec 16) : Word64 := imm.signExtend 64
def zext16 (imm : BitVec 16) : Word64 := imm.setWidth 64

/-- The rounding mode of an rm field (R249); 6 and 7 are none. -/
def Firing.rounding (f : Firing) (rm : BitVec 3) : Rm :=
  if rm = 0 then .ofCode f.fcr.toNat else .ofCode (rm.toNat - 1)

def rmLegal (rm : BitVec 3) : Bool := rm.toNat ≤ 5

/-- The format a size bit selects (Table 4.2). -/
def sizeFmt (size : BitVec 1) : Fmt := if size = 0 then binary64 else binary32

/-! ## Windows (Table 4.7) -/

inductive Window where
  | sram
  | queue
  | regs
  | app
  | dram
  deriving DecidableEq, Repr

/-- The window of an address, if any. -/
def windowOf (a : Word64) : Option Window :=
  let n := a.toNat
  if n < 0x1000000 then some .sram
  else if n < 0x2000000 then some .queue
  else if n < 0x3000000 then some .regs
  else if appBase ≤ n ∧ n < dramEnd then some .app
  else if dramBase ≤ n ∧ n < dramEnd then some .dram
  else none

/-! ## The codelet segment (R197) -/

def Memory.codeBytes (m : Memory) (slotB : Bool) : Nat := m.nat (slotBase slotB + 0x18) 4
def Memory.codeBase (m : Memory) (slotB : Bool) : Nat := slotBase slotB + m.nat (slotBase slotB + 0x14) 4

/-- An address of the segment where an instruction can lie. -/
def Memory.inSegment (m : Memory) (f : Firing) (pc : Nat) : Bool := pc % 4 = 0 && pc + 4 ≤ m.codeBytes f.slotB

/-- A branch target; none outside the segment. -/
def Memory.target (m : Memory) (f : Firing) (disp : BitVec 21) : Option Nat :=
  let t : Int := f.pc + 4 * disp.toInt
  if 0 ≤ t ∧ m.inSegment f t.toNat then some t.toNat else none

/-! ## The frame of an instruction -/

/-- The tile's firing is replaced. -/
def Blade.putFiring (b : Blade) (t : TileId) (f : Firing) : Blade :=
  b.modTile t.val fun x => { x with firing := some f }

/-- A trap; it waits while the audit trail cannot take its records (R658). -/
def Blade.trapNow (b : Blade) (m : Memory) (t : TileId) (f : Firing) (code : Nat) (damage : Nat := 0) : Memory × Blade :=
  (m, if b.trailFull && f.trapForms then b else b.trap m t f code damage)

/-- POISON raised in execution (R225). -/
def Blade.trapPoisoned (b : Blade) (m : Memory) (t : TileId) (f : Firing) : Memory × Blade :=
  b.trapNow m t f trapPOISON 1

/-- The words of a range of memory are read, each corrected or found lost (R198, R305). -/
def Blade.readLine (b : Blade) (m : Memory) (a words : Nat) : Memory × Blade :=
  (List.range words).foldl (fun r i => let w := r.2.loadWord r.1 (a + 8 * i); (w.mem, w.blade)) (m, b)

/-- The word at a firing's pc, as the segment holds it. -/
def Memory.wordAt (m : Memory) (f : Firing) : Word32 := BitVec.ofNat 32 (m.nat (m.codeBase f.slotB + f.pc) 4)

/-- The fetch of an instruction (R198, R661): the word, unless it cannot be read, and what the cache and the memory are after
it. A miss reads the 64-byte line into the cache, where an armed injection damages its words (Table 12.8); a word that then fails
its parity is counted and the line read anew. DESIGN CHOICE (log 83): a line with another word that cannot be read is not kept in the cache. -/
def Blade.fetch (b : Blade) (m : Memory) (t : TileId) (f : Firing) : Option Word32 × Memory × Blade :=
  let set := bits f.pc 6 6
  let tag := bits f.pc 12 16 + b2n f.slotB * 2 ^ 16
  let ways := mget [] set (b.tile t.val).icache
  let put := fun (b : Blade) (l : List Nat) => b.modTile t.val fun x => { x with icache := mput [] set l x.icache }
  let hit := ways.contains tag
  let others := ways.filter (· ≠ tag)
  let lineNo := f.pc / 64 + b2n f.slotB * 2 ^ 22
  let bad := hit && (b.tile t.val).icacheBad.contains (lineNo, f.pc / 4 % 16)
  if hit && !bad then (some (m.wordAt f), m, put b (tag :: others))
  else
    let b := if bad then b.windowEvent (srcTile t.val 0) f.pc else b
    let line := m.codeBase f.slotB + f.pc / 64 * 64
    let r := b.readLine m line 8
    if m.unreadable ((m.codeBase f.slotB + f.pc) / 8 * 8) 8 then (none, r.1, put r.2 others)
    else if m.unreadable line 64 then (some (m.wordAt f), r.1, put r.2 others)
    else
      let k := r.2.injectWords (srcTile t.val 0) 1 16
      let b := k.2.modTile t.val fun x => { x with
        icacheBad := x.icacheBad.filter (·.1 ≠ lineNo) ++ (List.range k.1).map fun w => (lineNo, w) }
      (some (m.wordAt f), r.1, put b ((tag :: others).take 4))

/-- One codelet instruction of a tile (R239, R241): nothing happens on a tile that executes no firing or whose firing waits
for a queue, and on a blade that has stopped executing (R576); then INSN_LIMIT, a fetch outside the segment, FETCH and ILLEGAL,
in the order of R241; then its body. The word at the pc is what the tile executes: one that Tables 4.3 to 4.6 do not list traps
ILLEGAL (R196), and a command for an instruction that the word does not spell does nothing. -/
def Blade.codelet (b : Blade) (m : Memory) (t : TileId) (i : Instr) (legal : Bool)
    (body : Blade → Memory → Firing → Memory × Blade) : Memory × Blade :=
  match (b.tile t.val).firing with
  | none => (m, b)
  | some f =>
    if f.stall.isSome || b.stopped then (m, b)
    else if 4096 ≤ f.executed then b.trapNow m t f trapINSN_LIMIT
    else if !m.inSegment f f.pc then b.trapNow m t f trapBAD_TARGET
    else
      let r := b.fetch m t f
      match r.1 with
      | none => r.2.2.trapNow r.2.1 t f trapFETCH
      | some w =>
        match decodeCode t w with
        | none => r.2.2.trapNow r.2.1 t f trapILLEGAL
        | some j =>
          if j ≠ i then (m, b)
          else if !legal then r.2.2.trapNow r.2.1 t f trapILLEGAL
          else body r.2.2 r.2.1 f

/-- An instruction that computes a register from registers: its sources' poison is the result's (R222). -/
def Blade.compute (b : Blade) (m : Memory) (t : TileId) (i : Instr) (legal : Bool) (rd : RegNo) (srcs : List RegNo)
    (v : Firing → Word64) : Memory × Blade :=
  b.codelet m t i legal fun b m f => (m, b.putFiring t ((f.write rd (v f) (srcs.any f.bad)).advance))

/-- A floating-point instruction: a poisoned source poisons the result and raises no flag (R256). -/
def Blade.computeFp (b : Blade) (m : Memory) (t : TileId) (i : Instr) (legal : Bool) (rd : RegNo) (srcs : List RegNo)
    (v : Firing → FpResult) : Memory × Blade :=
  b.codelet m t i legal fun b m f =>
    let r := v f
    let p := srcs.any f.bad
    (m, b.putFiring t (((f.write rd r.1 p).accrue (if p then 0 else r.2)).advance))

end Sys2Proof.Machine
end

