-- ==== Sys2Proof/Machine/Alu.lean ====
section
/-! DEFINITION. The integer instructions (Tables 4.3 to 4.5, R201 to R203, R245, R246). -/

namespace Sys2Proof.Machine

/-- Shifts take the whole unsigned amount (R202). -/
def shiftLeft (a : Word64) (n : Nat) : Word64 := if n < 64 then a <<< n else 0
def shiftRight (a : Word64) (n : Nat) : Word64 := if n < 64 then a >>> n else 0
def shiftArith (a : Word64) (n : Nat) : Word64 := a.sshiftRight (min n 63)
def rotLeft (a : Word64) (n : Nat) : Word64 := a.rotateLeft (n % 64)
def rotRight (a : Word64) (n : Nat) : Word64 := a.rotateRight (n % 64)

/-- Bits [127:64] of a product. -/
def mulHighU (a b : Word64) : Word64 := BitVec.ofNat 64 (a.toNat * b.toNat / 2 ^ 64)
def mulHighS (a b : Word64) : Word64 := BitVec.ofInt 64 (a.toInt * b.toInt / 2 ^ 64)

/-- The quotient rounded toward zero, and its remainder. -/
def quotS (a b : Word64) : Word64 := BitVec.ofInt 64 (a.toInt.tdiv b.toInt)
def remS (a b : Word64) : Word64 := BitVec.ofInt 64 (a.toInt.tmod b.toInt)

/-- Operations with rc zero over ra and rb. -/
def Blade.alu2 (b : Blade) (m : Memory) (i : Instr) (t : TileId) (rd ra rb rc : RegNo) (f : Word64 → Word64 → Word64) :
    Memory × Blade :=
  b.compute m t i (rc = 0) rd [ra, rb] fun x => f (x.reg ra) (x.reg rb)

/-- Operations over ra, rb and rc. -/
def Blade.alu3 (b : Blade) (m : Memory) (i : Instr) (t : TileId) (rd ra rb rc : RegNo) (f : Word64 → Word64 → Word64 → Word64) :
    Memory × Blade :=
  b.compute m t i true rd [ra, rb, rc] fun x => f (x.reg ra) (x.reg rb) (x.reg rc)

/-- Operations over ra and an immediate. -/
def Blade.aluImm (b : Blade) (m : Memory) (i : Instr) (t : TileId) (rd ra : RegNo) (f : Word64 → Word64) : Memory × Blade :=
  b.compute m t i true rd [ra] fun x => f (x.reg ra)

/-- Divisions trap DIVZERO on rb = 0, poisoned or not (R203, R200). -/
def Blade.divide (b : Blade) (m : Memory) (i : Instr) (t : TileId) (rd ra rb rc : RegNo) (f : Word64 → Word64 → Word64) :
    Memory × Blade :=
  b.codelet m t i (rc = 0) fun b m x =>
    if x.reg rb = 0 then b.trapNow m t x trapDIVZERO
    else (m, b.putFiring t ((x.write rd (f (x.reg ra) (x.reg rb)) (x.bad ra || x.bad rb)).advance))

def execAdd (t : TileId) (rd ra rb rc : RegNo) (s : State) : Result :=
  s.after (s.blade.alu2 s.mem (.add t rd ra rb rc) t rd ra rb rc (· + ·))

def execSub (t : TileId) (rd ra rb rc : RegNo) (s : State) : Result :=
  s.after (s.blade.alu2 s.mem (.sub t rd ra rb rc) t rd ra rb rc (· - ·))

/-- ADDC takes its carry in from bit 0 of rc. -/
def execAddc (t : TileId) (rd ra rb rc : RegNo) (s : State) : Result :=
  s.after (s.blade.alu3 s.mem (.addc t rd ra rb rc) t rd ra rb rc fun a b c => a + b + (c &&& 1))

def execSubb (t : TileId) (rd ra rb rc : RegNo) (s : State) : Result :=
  s.after (s.blade.alu3 s.mem (.subb t rd ra rb rc) t rd ra rb rc fun a b c => a - b - (c &&& 1))

def execCarry (t : TileId) (rd ra rb rc : RegNo) (s : State) : Result :=
  s.after (s.blade.alu3 s.mem (.carry t rd ra rb rc) t rd ra rb rc fun a b c => boolWord (carryOut a b (c.getLsbD 0)))

def execBorrow (t : TileId) (rd ra rb rc : RegNo) (s : State) : Result :=
  s.after (s.blade.alu3 s.mem (.borrow t rd ra rb rc) t rd ra rb rc fun a b c => boolWord (borrowOut a b (c.getLsbD 0)))

def execNeg (t : TileId) (rd ra rb rc : RegNo) (s : State) : Result :=
  s.after (s.blade.compute s.mem t (.neg t rd ra rb rc) (rb = 0 && rc = 0) rd [ra] fun x => 0 - x.reg ra)

def execAnd (t : TileId) (rd ra rb rc : RegNo) (s : State) : Result :=
  s.after (s.blade.alu2 s.mem (.and t rd ra rb rc) t rd ra rb rc (· &&& ·))

def execOr (t : TileId) (rd ra rb rc : RegNo) (s : State) : Result :=
  s.after (s.blade.alu2 s.mem (.or t rd ra rb rc) t rd ra rb rc (· ||| ·))

def execXor (t : TileId) (rd ra rb rc : RegNo) (s : State) : Result :=
  s.after (s.blade.alu2 s.mem (.xor t rd ra rb rc) t rd ra rb rc (· ^^^ ·))

def execAndn (t : TileId) (rd ra rb rc : RegNo) (s : State) : Result :=
  s.after (s.blade.alu2 s.mem (.andn t rd ra rb rc) t rd ra rb rc fun a b => a &&& ~~~b)

def execSll (t : TileId) (rd ra rb rc : RegNo) (s : State) : Result :=
  s.after (s.blade.alu2 s.mem (.sll t rd ra rb rc) t rd ra rb rc fun a b => shiftLeft a b.toNat)

def execSrl (t : TileId) (rd ra rb rc : RegNo) (s : State) : Result :=
  s.after (s.blade.alu2 s.mem (.srl t rd ra rb rc) t rd ra rb rc fun a b => shiftRight a b.toNat)

def execSra (t : TileId) (rd ra rb rc : RegNo) (s : State) : Result :=
  s.after (s.blade.alu2 s.mem (.sra t rd ra rb rc) t rd ra rb rc fun a b => shiftArith a b.toNat)

def execRol (t : TileId) (rd ra rb rc : RegNo) (s : State) : Result :=
  s.after (s.blade.alu2 s.mem (.rol t rd ra rb rc) t rd ra rb rc fun a b => rotLeft a b.toNat)

def execRor (t : TileId) (rd ra rb rc : RegNo) (s : State) : Result :=
  s.after (s.blade.alu2 s.mem (.ror t rd ra rb rc) t rd ra rb rc fun a b => rotRight a b.toNat)

def execCmpeq (t : TileId) (rd ra rb rc : RegNo) (s : State) : Result :=
  s.after (s.blade.alu2 s.mem (.cmpeq t rd ra rb rc) t rd ra rb rc fun a b => boolWord (a = b))

def execCmplt (t : TileId) (rd ra rb rc : RegNo) (s : State) : Result :=
  s.after (s.blade.alu2 s.mem (.cmplt t rd ra rb rc) t rd ra rb rc fun a b => boolWord (a.slt b))

def execCmpltu (t : TileId) (rd ra rb rc : RegNo) (s : State) : Result :=
  s.after (s.blade.alu2 s.mem (.cmpltu t rd ra rb rc) t rd ra rb rc fun a b => boolWord (a.ult b))

def execSel (t : TileId) (rd ra rb rc : RegNo) (s : State) : Result :=
  s.after (s.blade.alu3 s.mem (.sel t rd ra rb rc) t rd ra rb rc fun a b c => if c ≠ 0 then a else b)

def execMul (t : TileId) (rd ra rb rc : RegNo) (s : State) : Result :=
  s.after (s.blade.alu2 s.mem (.mul t rd ra rb rc) t rd ra rb rc (· * ·))

def execMulhu (t : TileId) (rd ra rb rc : RegNo) (s : State) : Result :=
  s.after (s.blade.alu2 s.mem (.mulhu t rd ra rb rc) t rd ra rb rc mulHighU)

def execMulhs (t : TileId) (rd ra rb rc : RegNo) (s : State) : Result :=
  s.after (s.blade.alu2 s.mem (.mulhs t rd ra rb rc) t rd ra rb rc mulHighS)

def execDiv (t : TileId) (rd ra rb rc : RegNo) (s : State) : Result :=
  s.after (s.blade.divide s.mem (.div t rd ra rb rc) t rd ra rb rc quotS)

def execDivu (t : TileId) (rd ra rb rc : RegNo) (s : State) : Result :=
  s.after (s.blade.divide s.mem (.divu t rd ra rb rc) t rd ra rb rc fun a b => a / b)

def execRem (t : TileId) (rd ra rb rc : RegNo) (s : State) : Result :=
  s.after (s.blade.divide s.mem (.rem t rd ra rb rc) t rd ra rb rc remS)

def execRemu (t : TileId) (rd ra rb rc : RegNo) (s : State) : Result :=
  s.after (s.blade.divide s.mem (.remu t rd ra rb rc) t rd ra rb rc fun a b => a % b)

def execAddi (t : TileId) (rd ra : RegNo) (imm : BitVec 16) (s : State) : Result :=
  s.after (s.blade.aluImm s.mem (.addi t rd ra imm) t rd ra (· + sext16 imm))

def execAndi (t : TileId) (rd ra : RegNo) (imm : BitVec 16) (s : State) : Result :=
  s.after (s.blade.aluImm s.mem (.andi t rd ra imm) t rd ra (· &&& zext16 imm))

def execOri (t : TileId) (rd ra : RegNo) (imm : BitVec 16) (s : State) : Result :=
  s.after (s.blade.aluImm s.mem (.ori t rd ra imm) t rd ra (· ||| zext16 imm))

def execXori (t : TileId) (rd ra : RegNo) (imm : BitVec 16) (s : State) : Result :=
  s.after (s.blade.aluImm s.mem (.xori t rd ra imm) t rd ra (· ^^^ zext16 imm))

/-- SETH replaces one 16-bit quarter of rd; its field [20:18] is zero. -/
def execSeth (t : TileId) (rd ra : RegNo) (imm : BitVec 16) (s : State) : Result :=
  s.after (s.blade.compute s.mem t (.seth t rd ra imm) (ra.toNat < 4) rd [rd] fun x =>
    let lo := 16 * ra.toNat
    (x.reg rd &&& ~~~(BitVec.ofNat 64 (0xFFFF * 2 ^ lo))) ||| BitVec.ofNat 64 (imm.toNat * 2 ^ lo))

def execCmpeqi (t : TileId) (rd ra : RegNo) (imm : BitVec 16) (s : State) : Result :=
  s.after (s.blade.aluImm s.mem (.cmpeqi t rd ra imm) t rd ra fun a => boolWord (a = sext16 imm))

def execCmplti (t : TileId) (rd ra : RegNo) (imm : BitVec 16) (s : State) : Result :=
  s.after (s.blade.aluImm s.mem (.cmplti t rd ra imm) t rd ra fun a => boolWord (a.slt (sext16 imm)))

def execCmpltui (t : TileId) (rd ra : RegNo) (imm : BitVec 16) (s : State) : Result :=
  s.after (s.blade.aluImm s.mem (.cmpltui t rd ra imm) t rd ra fun a => boolWord (a.ult (zext16 imm)))

/-- SHIFTI: amount in [7:0], kind in [9:8], [15:10] zero. -/
def execShifti (t : TileId) (rd ra : RegNo) (imm : BitVec 16) (s : State) : Result :=
  s.after (s.blade.compute s.mem t (.shifti t rd ra imm) (imm.toNat < 1024) rd [ra] fun x =>
    let n := bits imm.toNat 0 8
    match bits imm.toNat 8 2 with
    | 0 => shiftLeft (x.reg ra) n
    | 1 => shiftRight (x.reg ra) n
    | 2 => shiftArith (x.reg ra) n
    | _ => rotLeft (x.reg ra) n)

end Sys2Proof.Machine
end

