-- ==== Sys2Proof/Machine/Control.lean ====
section
/-! DEFINITION. Branches, emissions, adjustments, context requests, special registers, semaphores and END (chapter 4). -/

namespace Sys2Proof.Machine

/-! ## Branches and jumps (R237) -/

/-- A taken branch or jump to a target of the segment; `f` is the firing as the jump leaves it. -/
def Blade.jumpTo (b : Blade) (m : Memory) (t : TileId) (f g : Firing) (target : Option Nat) : Memory × Blade :=
  match target with
  | some k => (m, b.putFiring t (g.jump k))
  | none => b.trapNow m t f trapBAD_TARGET

/-- BZ and BNZ. -/
def Blade.branch (b : Blade) (m : Memory) (i : Instr) (t : TileId) (ra : RegNo) (disp : BitVec 21) (taken : Word64 → Bool) :
    Memory × Blade :=
  b.codelet m t i true fun b m f =>
    if f.bad ra then b.trapPoisoned m t f
    else if taken (f.reg ra) then b.jumpTo m t f f (m.target f disp)
    else (m, b.putFiring t f.advance)

/-- The address of the next word, which a jump links. -/
def Firing.link (f : Firing) : Word64 := BitVec.ofNat 64 (f.pc + 4)

def execBz (t : TileId) (ra : RegNo) (disp : BitVec 21) (s : State) : Result :=
  s.after (s.blade.branch s.mem (.bz t ra disp) t ra disp (· = 0))

def execBnz (t : TileId) (ra : RegNo) (disp : BitVec 21) (s : State) : Result :=
  s.after (s.blade.branch s.mem (.bnz t ra disp) t ra disp (· ≠ 0))

def execJal (t : TileId) (ra : RegNo) (disp : BitVec 21) (s : State) : Result :=
  s.after (s.blade.codelet s.mem t (.jal t ra disp) true fun b m f =>
    b.jumpTo m t f (f.write ra f.link false) (m.target f disp))

def execJalr (t : TileId) (rd ra rb rc : RegNo) (func : BitVec 6) (s : State) : Result :=
  s.after (s.blade.codelet s.mem t (.jalr t rd ra rb rc func) (rb = 0 && rc = 0 && func = 0) fun b m f =>
    let k := (f.reg ra).toNat
    if f.bad ra then b.trapPoisoned m t f
    else b.jumpTo m t f (f.write rd f.link false) (if m.inSegment f k then some k else none))

/-! ## Emissions (R226 to R230, Table 4.8) -/

/-- The token of a SEND or SENDD before any flow sequence. -/
def sendToken (i : SendFields) (f : Firing) : Token :=
  let tag := (f.reg i.rt).toNat
  { Token.data (bits tag 32 16) (BitVec.ofNat 12 (bits tag 20 12)) i.port (BitVec.ofNat 20 (bits tag 0 20)) (f.reg i.rv) with
    kind := if i.ctrl = 0 then 0 else 2, cls := i.cls, poison := f.bad i.rv }

/-- SEND_ARG (R226, R227). -/
def sendBadArg (i : SendFields) (f : Firing) : Bool :=
  2 ^ 48 ≤ (f.reg i.rt).toNat || 5 ≤ i.cls.toNat || i.port = 3 || (i.ctrl = 1 && i.cls ≠ 0)

/-- A poisoned value in an audited class, or a poisoned tag (R223). -/
def sendBadPoison (i : SendFields) (f : Firing) : Bool :=
  f.bad i.rt || (f.bad i.rv && audited i.cls)

/-- Joins the output buffer, or traps EMIT_LIMIT (R230). -/
def Blade.emit (b : Blade) (m : Memory) (t : TileId) (f : Firing) (e : Emission) : Memory × Blade :=
  if 16 ≤ f.emissions.length then b.trapNow m t f trapEMIT_LIMIT
  else (m, b.putFiring t { f with emissions := f.emissions ++ [e] }.advance)

/-- A token sent from a node with ordered_release in a firing that holds a flow sequence is ordered (Table 4.8). -/
def Firing.order (f : Firing) (orderedRelease : Bool) (tok : Token) : Token :=
  match f.heldSequence with
  | some (fl, q) => if orderedRelease then { tok with ordered := true, flow := fl, sequence := q } else tok
  | none => tok

def execSend (t : TileId) (i : SendFields) (s : State) : Result :=
  s.after (s.blade.codelet s.mem t (.send t i) (i.zero = 0 && i.rdl = 0 && i.list = 0) fun b m f =>
    if sendBadPoison i f then b.trapPoisoned m t f
    else if sendBadArg i f then b.trapNow m t f trapSEND_ARG
    else b.emit m t f (.now (f.order (m.desc f.slotB f.node.toNat).orderedRelease (sendToken i f))))

/-- The amounts a list takes (R229). -/
def delayMax (list : BitVec 2) : Nat := if list = 0 then 65535 else 16777215

def execSendd (t : TileId) (i : SendFields) (s : State) : Result :=
  s.after (s.blade.codelet s.mem t (.sendd t i) (i.zero = 0) fun b m f =>
    let n := (f.reg i.rdl).toNat
    if sendBadPoison i f || f.bad i.rdl then b.trapPoisoned m t f
    else if sendBadArg i f then b.trapNow m t f trapSEND_ARG
    else if n = 0 || delayMax i.list < n then b.trapNow m t f trapDELAY_ARG
    else b.emit m t f (.delayed { token := sendToken i f, list := i.list.toFin, amount := n }))

/-! ## Adjustments (R231) -/

/-- ADJ: [25:24] zero and the class in [23:21], the three low bits of the rd field. -/
def execAdj (t : TileId) (rd ra : RegNo) (imm : BitVec 16) (s : State) : Result :=
  s.after (s.blade.codelet s.mem t (.adj t rd ra imm) (rd.toNat < 8) fun b m f =>
    let cls : BitVec 3 := rd.truncate 3
    if f.bad ra then b.trapPoisoned m t f
    else if !audited cls || 0xFF00 ≤ imm.toNat then b.trapNow m t f trapADJ_ARG
    else if 8 ≤ f.adjustments.length then b.trapNow m t f trapADJ_LIMIT
    else (m, b.putFiring t
      { f with adjustments := f.adjustments ++ [({ cls := cls, value := f.reg ra, reason := imm } : Adjustment)] }.advance))

/-! ## Contexts (R232 to R235, R85 to R88) -/

/-- OPEN's allocation: the context and, where asked for, the flow slot; none where R88 writes 0. -/
def Blade.openTake (b : Blade) (flow : Bool) : Option (Nat × Option Nat × Blade) :=
  if b.flag rCTX 0 then
    match b.led.free.take with
    | none => none
    | some (c, l) =>
      if flow then
        match b.ord.free.take with
        | none => none
        | some (x, fl) => some (c, some x, { b with led.free := l, ord.free := fl })
      else some (c, none, { b with led.free := l })
  else none

def execOpenCtx (t : TileId) (rd ra : RegNo) (imm : BitVec 16) (s : State) : Result :=
  let slot := bits imm.toNat 14 2
  s.after (s.blade.codelet s.mem t (.openCtx t rd ra imm) (slot ≠ 3 && bits imm.toNat 0 13 = 0) fun b m f =>
    let node := (f.reg ra).toNat
    let slotB := if slot = 0 then f.slotB else slot = 2
    if f.bad ra then b.trapPoisoned m t f
    else if 2 ^ 20 ≤ node || m.nodeCount slotB ≤ node || (m.desc slotB node).arity ≠ 1 then
      b.trapNow m t f trapOPEN_ARG
    else if 4 ≤ f.openCount then b.trapNow m t f trapOPEN_LIMIT
    else
      let f := { f with openCount := f.openCount + 1 }
      match b.openTake (bitOf imm.toNat 13) with
      | none => (m, b.putFiring t (f.write rd 0 false).advance)
      | some (c, fl, b) =>
        let o : OpenRequest := { context := BitVec.ofNat 16 c, slotB := slotB, exceptionNode := BitVec.ofNat 20 node,
                                 flow := fl.map (BitVec.ofNat 12) }
        (m, b.putFiring t ({ f with opens := f.opens ++ [o] }.write rd (BitVec.ofNat 64 c) false).advance))

/-- What Table 2.7 makes of a request on a context in a state: the state after it, and whether the request was valid. A parking
leaves its context LIVE until it completes. -/
def CtxState.predict (st : CtxState) (causeCancel : Bool) (k : ContextRequestKind) : (CtxState × Bool) × Bool :=
  match k, st with
  | .close, .live => ((.draining, false), true)
  | .close, .damaged => ((.draining, false), true)
  | .cancel, .live => ((.draining, true), true)
  | .cancel, .damaged => ((.draining, true), true)
  | .cancel, .draining => if causeCancel then ((st, true), false) else ((.draining, true), true)
  | .cancel, .parked => ((.closed, false), true)
  | .park, .live => ((.live, false), true)
  | _, _ => ((st, causeCancel), false)

/-- The outcome a firing's request has after its own earlier ones (R235), those of contexts it opened included; a context
whose record is lost takes none (R96). -/
def Blade.predict (b : Blade) (f : Firing) (k : ContextRequestKind) (c : Nat) : Bool :=
  let x := b.ctx c
  let opened := f.opens.any fun o => o.context.toNat = c
  let start := (if opened then CtxState.live else x.state, x.causeCancel)
  let now := (f.requests.filter fun r => r.context.toNat = c).foldl (fun s r => (s.1.predict s.2 r.kind).1) start
  !x.recordLost && (now.1.predict now.2 k).2

/-- CLOSE, CANCEL and PARK of a codelet. -/
def Blade.requestInsn (b : Blade) (m : Memory) (i : Instr) (t : TileId) (rd ra : RegNo) (imm : BitVec 16) (k : ContextRequestKind) :
    Memory × Blade :=
  b.codelet m t i (imm = 0) fun b m f =>
    let c := (f.reg ra).toNat
    if f.bad ra then b.trapPoisoned m t f
    else if 65536 ≤ c then b.trapNow m t f trapCTX_ARG
    else if c < 256 then b.trapNow m t f trapCTX_DENIED
    else if 8 ≤ f.requests.length then b.trapNow m t f trapCTX_LIMIT
    else
      let g := { f with requests := f.requests ++ [({ kind := k, context := BitVec.ofNat 16 c } : ContextRequest)] }
      (m, b.putFiring t (g.write rd (boolWord (b.predict f k c)) false).advance)

def execCloseCtx (t : TileId) (rd ra : RegNo) (imm : BitVec 16) (s : State) : Result :=
  s.after (s.blade.requestInsn s.mem (.closeCtx t rd ra imm) t rd ra imm .close)

def execCancelCtx (t : TileId) (rd ra : RegNo) (imm : BitVec 16) (s : State) : Result :=
  s.after (s.blade.requestInsn s.mem (.cancelCtx t rd ra imm) t rd ra imm .cancel)

def execParkCtx (t : TileId) (rd ra : RegNo) (imm : BitVec 16) (s : State) : Result :=
  s.after (s.blade.requestInsn s.mem (.parkCtx t rd ra imm) t rd ra imm .park)

/-! ## Special registers (Table 4.9) -/

/-- The value of a special register; CYCLE is a free value below 250,000. -/
def Blade.special (b : Blade) (t : TileId) (f : Firing) (n : Nat) : Nat × Blade :=
  match n with
  | 0 => (f.fps.toNat, b)
  | 1 => (f.fcr.toNat, b)
  | 2 => (f.portInfo, b)
  | 3 => (f.executed, b)
  | 4 => (f.emissions.length, b)
  | 5 => (f.adjustments.length, b)
  | 6 => (t.val, b)
  | 7 => (b.frame.toNat, b)
  | 8 => b.draw 250000
  | 9 => (f.qstat, b)
  | 10 => (f.poisonMask, b)
  | _ => (b2n f.slotB, b)

def execMfs (t : TileId) (rd ra : RegNo) (imm : BitVec 16) (s : State) : Result :=
  s.after (s.blade.codelet s.mem t (.mfs t rd ra imm) (ra = 0 && imm.toNat < 12) fun b m f =>
    let v := b.special t f imm.toNat
    (m, v.2.putFiring t (f.write rd (BitVec.ofNat 64 v.1) false).advance))

/-- MTS reaches FPS and FCR; every other number is RO or undefined (R236, Table 4.11). -/
def execMts (t : TileId) (rd ra : RegNo) (imm : BitVec 16) (s : State) : Result :=
  s.after (s.blade.codelet s.mem t (.mts t rd ra imm) (rd = 0 && imm.toNat < 2) fun b m f =>
    let v := f.reg ra
    if imm = 1 && 5 ≤ v.toNat % 8 then b.trapNow m t f trapILLEGAL
    else if f.bad ra then b.trapPoisoned m t f
    else if imm = 0 then (m, b.putFiring t { f with fps := v.truncate 5 }.advance)
    else (m, b.putFiring t { f with fcr := v.truncate 3 }.advance))

/-! ## Semaphores (R219 to R221) -/

/-- The owner of a firing's semaphores (R219, Table 7.12). -/
def Firing.owner (f : Firing) : Owner := { cls := 0, unit := 0, context := f.context.toNat }

/-- SEM_ARG and SEM_DENIED before a semaphore operation. -/
def Blade.semInsn (b : Blade) (m : Memory) (i : Instr) (t : TileId) (legal : Bool) (rd ra : RegNo) (srcs : List RegNo)
    (op : Blade → Firing → Nat → Nat × Blade) : Memory × Blade :=
  b.codelet m t i legal fun b m f =>
    let n := (f.reg ra).toNat
    if srcs.any f.bad then b.trapPoisoned m t f
    else if 1023 < n then b.trapNow m t f trapSEM_ARG
    else if !b.semAllowed 0 n then b.trapNow m t f trapSEM_DENIED
    else
      let r := op b f n
      (m, r.2.putFiring t (f.write rd (BitVec.ofNat 64 r.1) false).advance)

def execSemAcq (t : TileId) (rd ra rb rc : RegNo) (func : BitVec 6) (s : State) : Result :=
  s.after (s.blade.semInsn s.mem (.semAcq t rd ra rb rc func) t (rb = 0 && rc = 0 && func = 0) rd ra [ra] fun b f n => b.semAcquire f.owner n)

def execSemRel (t : TileId) (rd ra rb rc : RegNo) (func : BitVec 6) (s : State) : Result :=
  s.after (s.blade.semInsn s.mem (.semRel t rd ra rb rc func) t (rc = 0 && func = 0) rd ra [ra, rb] fun b f n =>
    b.semRelease f.owner n ((f.reg rb).toNat % 2 ^ 16))

/-! ## END (R238) -/

def execEndFiring (t : TileId) (zero : BitVec 26) (s : State) : Result :=
  s.after (s.blade.codelet s.mem t (.endFiring t zero) (zero = 0) fun b m f => (m, b.finish m t f))

end Sys2Proof.Machine
end

