-- ==== Sys2Proof/Machine/FloatOps.lean ====
section
/-! DEFINITION. The floating-point instructions (Table 4.6, R204 to R206, R247 to R262). -/

namespace Sys2Proof.Machine

/-- A format F instruction over ra and rb in the format of its size bit. -/
def Blade.fp2 (b : Blade) (m : Memory) (n : Instr) (t : TileId) (i : FpFields) (op : Fmt → Rm → FVal → FVal → FpResult) :
    Memory × Blade :=
  b.computeFp m t n (i.zero = 0 && rmLegal i.rm) i.rd [i.ra, i.rb] fun x =>
    let k := sizeFmt i.size
    op k (x.rounding i.rm) (k.unpack (x.reg i.ra)) (k.unpack (x.reg i.rb))

/-- A compare: rm zero (Table 4.6). -/
def Blade.fpTest (b : Blade) (m : Memory) (n : Instr) (t : TileId) (i : FpFields) (test : Int → Bool) (signalling : Bool) :
    Memory × Blade :=
  b.computeFp m t n (i.zero = 0 && i.rm = 0) i.rd [i.ra, i.rb] fun x =>
    let k := sizeFmt i.size
    fpCompare test signalling (k.unpack (x.reg i.ra)) (k.unpack (x.reg i.rb))

/-- An instruction over ra alone. -/
def Blade.fp1 (b : Blade) (m : Memory) (n : Instr) (t : TileId) (i : FpFields) (legal : Bool) (op : Rm → Word64 → FpResult) :
    Memory × Blade :=
  b.computeFp m t n (i.zero = 0 && rmLegal i.rm && legal) i.rd [i.ra] fun x => op (x.rounding i.rm) (x.reg i.ra)

def execFadd (t : TileId) (i : FpFields) (s : State) : Result := s.after (s.blade.fp2 s.mem (.fadd t i) t i Fmt.add)

/-- FSUB is FADD with b's sign inverted (R258). -/
def execFsub (t : TileId) (i : FpFields) (s : State) : Result :=
  s.after (s.blade.fp2 s.mem (.fsub t i) t i fun k rm a b => k.add rm a b.negate)

def execFmul (t : TileId) (i : FpFields) (s : State) : Result := s.after (s.blade.fp2 s.mem (.fmul t i) t i Fmt.mul)

def execFdiv (t : TileId) (i : FpFields) (s : State) : Result := s.after (s.blade.fp2 s.mem (.fdiv t i) t i Fmt.div)

def execFsqrt (t : TileId) (i : FpFields) (s : State) : Result :=
  s.after (s.blade.fp1 s.mem (.fsqrt t i) t i (i.rb = 0) fun rm a => (sizeFmt i.size).sqrt rm ((sizeFmt i.size).unpack a))

def execFma (t : TileId) (i : FmaFields) (s : State) : Result :=
  s.after (s.blade.computeFp s.mem t (.fma t i) (i.zero = 0 && rmLegal i.rm) i.rd [i.ra, i.rb, i.rc] fun x =>
    let k := sizeFmt i.size
    k.fma (x.rounding i.rm) (k.unpack (x.reg i.ra)) (k.unpack (x.reg i.rb)) (k.unpack (x.reg i.rc)))

def execFcmpeq (t : TileId) (i : FpFields) (s : State) : Result := s.after (s.blade.fpTest s.mem (.fcmpeq t i) t i (· = 0) false)

def execFcmplt (t : TileId) (i : FpFields) (s : State) : Result := s.after (s.blade.fpTest s.mem (.fcmplt t i) t i (· < 0) true)

def execFcmple (t : TileId) (i : FpFields) (s : State) : Result := s.after (s.blade.fpTest s.mem (.fcmple t i) t i (· ≤ 0) true)

/-- FCVT.I (Table 5.11). -/
def execFcvtI (t : TileId) (i : FpFields) (s : State) : Result :=
  s.after (s.blade.fp1 s.mem (.fcvtI t i) t i true fun rm a =>
    toInteger (-(2 ^ 63)) (2 ^ 63 - 1) rm ((sizeFmt i.size).unpack a))

/-- FCVT.U (Table 5.11). -/
def execFcvtU (t : TileId) (i : FpFields) (s : State) : Result :=
  s.after (s.blade.fp1 s.mem (.fcvtU t i) t i true fun rm a => toInteger 0 (2 ^ 64 - 1) rm ((sizeFmt i.size).unpack a))

def execFcvtFi (t : TileId) (i : FpFields) (s : State) : Result :=
  s.after (s.blade.fp1 s.mem (.fcvtFi t i) t i true fun rm a => (sizeFmt i.size).ofInteger rm a.toInt)

def execFcvtFu (t : TileId) (i : FpFields) (s : State) : Result :=
  s.after (s.blade.fp1 s.mem (.fcvtFu t i) t i true fun rm a => (sizeFmt i.size).ofInteger rm a.toNat)

def execFwiden (t : TileId) (i : FpFields) (s : State) : Result :=
  s.after (s.blade.fp1 s.mem (.fwiden t i) t i (i.rb = 0 && i.size = 0) fun rm a => binary64.convert rm (binary32.unpack a))

def execFnarrow (t : TileId) (i : FpFields) (s : State) : Result :=
  s.after (s.blade.fp1 s.mem (.fnarrow t i) t i (i.rb = 0 && i.size = 0) fun rm a => binary32.convert rm (binary64.unpack a))

end Sys2Proof.Machine
end

