-- ==== Sys2Proof/Machine/Access.lean ====
section
/-! DEFINITION. Loads, stores and compare-and-swap of codelets (R207 to R218), and the queue window (R357 to R371). -/

namespace Sys2Proof.Machine

/-! ## The queue window (Table 8.4) -/

def qDATA : Nat := 0x00
def qHEAD : Nat := 0x04
def qCURSOR : Nat := 0x08
def qSELECT : Nat := 0x0C
def qDROP_REST : Nat := 0x10
def qSEAL : Nat := 0x14
def qABORT : Nat := 0x18
def qSTATUS : Nat := 0x1C

/-- The queue of a window address; its offset is the address modulo 1,024. -/
def queueOf (a : Nat) : Nat := bits a 10 14

/-- A load of the window. -/
def Blade.queueLoad (b : Blade) (who : Requester) (q off : Nat) : Item × Blade :=
  if off = qDATA then b.dataLoad who q
  else if off = qHEAD then b.headLoad who q
  else if off = qCURSOR then b.cursorLoad who q
  else if off = qSTATUS then (.data (b.queueStatus q), b)
  else (.data 0, b)

/-- A store of the window; none where it must wait. -/
def Blade.queueStore (b : Blade) (who : Requester) (q off : Nat) (v : Word32) (poison : Bool) : Option Blade :=
  if off = qDATA then b.append (.requester who) q v poison
  else if off = qSELECT then some (b.selectStore who q v)
  else if off = qDROP_REST then some (b.endCursor who q)
  else if off = qSEAL then b.sealPacket (.requester who) q v
  else if off = qABORT then some (b.abortPacket (.requester who) q)
  else some b

/-! ## Loads -/

/-- A load instruction of n bytes (R207, R208, R211, R212). -/
def Blade.loadInsn (b : Blade) (m : Memory) (i : Instr) (t : TileId) (rd ra : RegNo) (imm : BitVec 16) (n : Nat) (sext : Bool) :
    Memory × Blade :=
  b.codelet m t i true fun b m f =>
    let a := f.reg ra + sext16 imm
    let k := a.toNat
    let widen := fun v : Word64 => if sext then (v.truncate (8 * n)).signExtend 64 else (v.truncate (8 * n)).setWidth 64
    if f.bad ra then b.trapPoisoned m t f
    else
      match windowOf a with
      | none => b.trapNow m t f trapADDR
      | some .queue =>
        if n ≠ 4 then b.trapNow m t f trapQWIDTH
        else if k % 4 ≠ 0 then b.trapNow m t f trapMISALIGN
        else
          let r := b.queueLoad (.tile t) (queueOf k) (k % 1024)
          let p : Bool := r.1.tag = .poison
          (m, r.2.putFiring t ((f.write rd (widen (r.1.value.setWidth 64)) p).sawItem r.1).advance)
      | some .regs =>
        if n ≠ 4 then b.trapNow m t f trapCSR_WIDTH
        else if k % 4 ≠ 0 then b.trapNow m t f trapMISALIGN
        else
          let r := b.readReg (.tile t) k
          (m, r.2.putFiring t (f.write rd (widen (r.1.setWidth 64)) false).advance)
      | some _ =>
        if k % n ≠ 0 then b.trapNow m t f trapMISALIGN
        else
          let r := b.load m k n
          (r.mem, r.blade.putFiring t (f.write rd (widen r.value) r.poison).advance)

/-! ## Stores -/

/-- A store of a codelet to a queue: it completes, or stalls its firing, or traps at once where stall_frames is 0 (R213,
R375). -/
def Blade.queueStoreInsn (b : Blade) (m : Memory) (t : TileId) (f : Firing) (q off : Nat) (v : Word32) :
    Memory × Blade :=
  match b.queueStore (.tile t) q off v false with
  | some b => (m, b.putFiring t f.advance)
  | none =>
    if (b.queue q).stallFrames = 0 then b.trapNow m t f trapQFULL
    else
      (m, (b.count (rQPOOL + 0x4C)).putFiring t
        { f with stall := some { queue := BitVec.ofNat 14 q, sealing := off = qSEAL, value := v, poison := false, since := b.frame,
                                 instruction := true } })

/-- A store instruction of n bytes (R207, R208, R213, R215, R216, R223, R224). -/
def Blade.storeInsn (b : Blade) (m : Memory) (i : Instr) (t : TileId) (rs ra : RegNo) (imm : BitVec 16) (n : Nat) : Memory × Blade :=
  b.codelet m t i true fun b m f =>
    let a := f.reg ra + sext16 imm
    let k := a.toNat
    let v := f.reg rs
    let w := windowOf a
    if f.bad ra || (f.bad rs && (w = some .queue || w = some .regs)) then b.trapPoisoned m t f
    else
      match w with
      | none => b.trapNow m t f trapADDR
      | some .dram => b.trapNow m t f trapADDR
      | some .queue =>
        if n ≠ 4 then b.trapNow m t f trapQWIDTH
        else if k % 4 ≠ 0 then b.trapNow m t f trapMISALIGN
        else b.queueStoreInsn m t f (queueOf k) (k % 1024) (v.truncate 32)
      | some .regs =>
        if n ≠ 4 then b.trapNow m t f trapCSR_WIDTH
        else if k % 4 ≠ 0 then b.trapNow m t f trapMISALIGN
        else
          let w : Writer := { port := .tile t, sub := 0 }
          let b := b.codeletWrite w k (v.truncate 32) f.node.toNat (m.desc f.slotB f.node.toNat).debugTag
          (m, b.putFiring t f.advance)
      | some _ =>
        if k % n ≠ 0 then b.trapNow m t f trapMISALIGN
        else
          let r := b.store m k n v (f.bad rs)
          (r.1, r.2.putFiring t f.advance)

/-! ## Compare-and-swap (R217, R218) -/

def Blade.casInsn (b : Blade) (m : Memory) (i : Instr) (t : TileId) (rd ra rb rc : RegNo) (n : Nat) : Memory × Blade :=
  b.codelet m t i true fun b m f =>
    let a := f.reg ra
    let k := a.toNat
    if f.bad ra || f.bad rb || f.bad rc then b.trapPoisoned m t f
    else
      match windowOf a with
      | none => b.trapNow m t f trapADDR
      | some .dram => b.trapNow m t f trapADDR
      | some .queue => b.trapNow m t f trapCAS_REGION
      | some .regs => b.trapNow m t f trapCAS_REGION
      | some _ =>
        if k % n ≠ 0 then b.trapNow m t f trapMISALIGN
        else
          let r := b.cas m k n (f.reg rb) (f.reg rc)
          (r.mem, r.blade.putFiring t (f.write rd r.value r.poison).advance)

def execLd8u (t : TileId) (rd ra : RegNo) (imm : BitVec 16) (s : State) : Result :=
  s.after (s.blade.loadInsn s.mem (.ld8u t rd ra imm) t rd ra imm 1 false)

def execLd8s (t : TileId) (rd ra : RegNo) (imm : BitVec 16) (s : State) : Result :=
  s.after (s.blade.loadInsn s.mem (.ld8s t rd ra imm) t rd ra imm 1 true)

def execLd16u (t : TileId) (rd ra : RegNo) (imm : BitVec 16) (s : State) : Result :=
  s.after (s.blade.loadInsn s.mem (.ld16u t rd ra imm) t rd ra imm 2 false)

def execLd16s (t : TileId) (rd ra : RegNo) (imm : BitVec 16) (s : State) : Result :=
  s.after (s.blade.loadInsn s.mem (.ld16s t rd ra imm) t rd ra imm 2 true)

def execLd32u (t : TileId) (rd ra : RegNo) (imm : BitVec 16) (s : State) : Result :=
  s.after (s.blade.loadInsn s.mem (.ld32u t rd ra imm) t rd ra imm 4 false)

def execLd32s (t : TileId) (rd ra : RegNo) (imm : BitVec 16) (s : State) : Result :=
  s.after (s.blade.loadInsn s.mem (.ld32s t rd ra imm) t rd ra imm 4 true)

def execLd64 (t : TileId) (rd ra : RegNo) (imm : BitVec 16) (s : State) : Result :=
  s.after (s.blade.loadInsn s.mem (.ld64 t rd ra imm) t rd ra imm 8 false)

def execSt8 (t : TileId) (rs ra : RegNo) (imm : BitVec 16) (s : State) : Result :=
  s.after (s.blade.storeInsn s.mem (.st8 t rs ra imm) t rs ra imm 1)

def execSt16 (t : TileId) (rs ra : RegNo) (imm : BitVec 16) (s : State) : Result :=
  s.after (s.blade.storeInsn s.mem (.st16 t rs ra imm) t rs ra imm 2)

def execSt32 (t : TileId) (rs ra : RegNo) (imm : BitVec 16) (s : State) : Result :=
  s.after (s.blade.storeInsn s.mem (.st32 t rs ra imm) t rs ra imm 4)

def execSt64 (t : TileId) (rs ra : RegNo) (imm : BitVec 16) (s : State) : Result :=
  s.after (s.blade.storeInsn s.mem (.st64 t rs ra imm) t rs ra imm 8)

def execCas64 (t : TileId) (rd ra rb rc : RegNo) (s : State) : Result :=
  s.after (s.blade.casInsn s.mem (.cas64 t rd ra rb rc) t rd ra rb rc 8)

def execCas32 (t : TileId) (rd ra rb rc : RegNo) (s : State) : Result :=
  s.after (s.blade.casInsn s.mem (.cas32 t rd ra rb rc) t rd ra rb rc 4)

/-! ## Queue-window rows -/

/-- A store or SEAL of a requester that must wait (R374, R375): a tile's firing stalls, or traps QFULL at once; a halyard's word
replays; the command engine keeps it until a cell is granted. -/
def Blade.storeWaits (b : Blade) (m : Memory) (who : Requester) (q : QueueId) (sealing : Bool) (v : Word32) (poison : Bool) :
    Memory × Blade :=
  match who with
  | .tile t =>
    match (b.tile t.val).firing with
    | none => (m, b)
    | some f =>
      if f.stall.isSome then (m, b)
      else if (b.queue q.toNat).stallFrames = 0 then b.trapNow m t f trapQFULL
      else
        (m, (b.count (rQPOOL + 0x4C)).putFiring t { f with stall := some {
          queue := q, sealing := sealing, value := v, poison := poison, since := b.frame, instruction := false } })
  | .halyard c h => (m, b.setHalyard (16 * c.val + h.val) { b.halyard (16 * c.val + h.val) with waitsFor := some q })
  | .command =>
    if 8256 ≤ q.toNat ∧ q.toNat < 8288 then
      let k := b.channel (q.toNat - 8256)
      (m, b.setChannel (q.toNat - 8256)
        (if sealing then { k with waitingSeal := some v.toNat }
         else { k with waitingWords := k.waitingWords ++ [{ value := v, bad := poison }] }))
    else (m, b.holdStore q.toNat (if sealing then .seal v else .word v poison))

/-- A write of the command engine finds an earlier one of its own unfinished (R374). -/
def Blade.behind (b : Blade) (who : Requester) (q : Nat) : Bool := who = .command && b.storesWait q

/-- A lane cluster's or a host channel's seal is progress of R161. -/
def Blade.sealed (b : Blade) (who : Requester) (q : Nat) : Blade :=
  match who with
  | .tile _ => b
  | .halyard _ _ => { b with net.progressed := true }
  | .command => if 8256 ≤ q ∧ q < 8288 then { b with net.progressed := true } else b

/-- A DATA store of a requester. -/
def execQDataStore (who : Requester) (q : QueueId) (value : BitVec 32) (poison : Bool) (s : State) : Result :=
  if s.blade.behind who q.toNat then s.after (s.blade.storeWaits s.mem who q false value poison)
  else
    match s.blade.queueStore who q.toNat qDATA value poison with
    | some b => s.afterBlade b
    | none => s.after (s.blade.storeWaits s.mem who q false value poison)

def execQDataLoad (who : Requester) (q : QueueId) (s : State) : Result :=
  let r := s.blade.queueLoad who q.toNat qDATA
  s.afterBlade (r.2.respond r.1)

def execQHead (who : Requester) (q : QueueId) (s : State) : Result :=
  let r := s.blade.queueLoad who q.toNat qHEAD
  s.afterBlade (r.2.respond r.1)

def execQSelect (who : Requester) (q : QueueId) (value : BitVec 32) (s : State) : Result :=
  s.afterBlade (s.blade.selectStore who q.toNat value)

def execQDropRest (who : Requester) (q : QueueId) (s : State) : Result :=
  s.afterBlade (s.blade.endCursor who q.toNat)

/-- A SEAL of a requester. -/
def execQSeal (who : Requester) (q : QueueId) (value : BitVec 32) (s : State) : Result :=
  if s.blade.behind who q.toNat then s.after (s.blade.storeWaits s.mem who q true value false)
  else
    match s.blade.sealPacket (.requester who) q.toNat value with
    | some b => s.afterBlade (b.sealed who q.toNat)
    | none => s.after (s.blade.storeWaits s.mem who q true value false)

def execQAbort (who : Requester) (q : QueueId) (s : State) : Result :=
  s.afterBlade (s.blade.abortPacket (.requester who) q.toNat)

/-- The write of a stalled firing completes (R374, R375). -/
def Blade.grantTile (b : Blade) (m : Memory) (t : TileId) (q : Nat) : Blade :=
  match (b.tile t.val).firing with
  | some f =>
    match f.stall with
    | some w =>
      if w.queue.toNat = q then
        match b.queueStore (.tile t) q (if w.sealing then qSEAL else qDATA) w.value w.poison with
        | some b =>
          let g : Firing := { f with stall := none }
          b.putFiring t (if w.instruction then g.advance else g)
        | none => b
      else b
    | none => b
  | none => b

/-- QFULL: the stall limit of the queue has passed (R375). -/
def Blade.qfull (b : Blade) (m : Memory) (t : TileId) : Memory × Blade :=
  match (b.tile t.val).firing with
  | some f =>
    match f.stall with
    | some w =>
      if (b.queue w.queue.toNat).stallFrames.toNat ≤ (b.frame - w.since).toNat then
        b.trapNow m t { f with stall := none } trapQFULL
      else (m, b)
    | none => (m, b)
  | none => (m, b)

def execQfull (t : TileId) (s : State) : Result := s.after (s.blade.qfull s.mem t)

end Sys2Proof.Machine
end

