-- ==== Sys2Proof/Machine/Microcode.lean ====
section
/-! DEFINITION. The lane engine (chapter 9): microwords, their validity, I/O operations, the ALU, the next address, and what a
cluster fault does. -/

namespace Sys2Proof.Machine

/-! ## The microword (Table 9.3) -/

/-- The fields of a microword. -/
structure Uop where
  nac : Nat
  next : Nat
  csel : Nat
  mask : Nat
  len : Nat
  alu : Nat
  asel : Nat
  bsrc : Nat
  bsel : Nat
  dst : Nat
  wen : Bool
  setf : Bool
  io : Nat
  ioreg : Nat
  ioarg : Nat
  evmask : Nat
  rsv : Nat
  imm : Nat
  deriving DecidableEq, Repr

def uopOf (w : BitVec 128) : Uop :=
  let n := w.toNat
  { nac := bits n 124 4, next := bits n 112 12, csel := bits n 108 4, mask := bits n 104 4, len := bits n 102 2,
    alu := bits n 98 4, asel := bits n 94 4, bsrc := bits n 92 2, bsel := bits n 88 4, dst := bits n 84 4,
    wen := bitOf n 83, setf := bitOf n 82, io := bits n 76 6, ioreg := bits n 72 4, ioarg := bits n 64 8,
    evmask := bits n 48 16, rsv := bits n 32 16, imm := bits n 0 32 }

/-- A word of the shape SEQ, PASSA with nothing written, and no I/O. -/
def Uop.base : Uop :=
  { nac := 0, next := 0, csel := 0, mask := 0, len := 0, alu := 0, asel := 0, bsrc := 0, bsel := 0, dst := 0, wen := false,
    setf := false, io := 0, ioreg := 0, ioarg := 0, evmask := 0, rsv := 0, imm := 0 }

/-- The word a row of Table 9.4 gives. -/
def Uop.ofNext (nac : Nat) (f : NextFields) : Uop :=
  { Uop.base with nac := nac, next := f.next.toNat, csel := f.csel.toNat, mask := f.mask.toNat, evmask := f.evmask.toNat }

/-- The word a row of Table 9.7 gives. -/
def Uop.ofIo (io : Nat) (f : IoFields) : Uop :=
  { Uop.base with len := f.len.toNat, io := io, asel := f.asel.toNat, ioreg := f.ioreg.toNat, ioarg := f.ioarg.toNat,
                  evmask := f.evmask.toNat }

/-- The minimum length of an I/O operation (Table 9.7). -/
def ioMinLen (io : Nat) : Nat :=
  match io with
  | 0x01 => 2
  | 0x05 => 2
  | 0x06 => 2
  | 0x07 => 2
  | 0x08 => 2
  | 0x09 => 2
  | 0x0A => 2
  | 0x0B => 2
  | 0x0F => 2
  | 0x14 => 3
  | 0x15 => 2
  | 0x16 => 3
  | 0x17 => 2
  | 0x18 => 3
  | 0x19 => 3
  | _ => 1

/-- The values of ioarg an operation takes (R395, Table 9.7). -/
def ioargValid (io arg : Nat) : Bool :=
  match io with
  | 0x04 => true
  | 0x07 => true
  | 0x06 => arg < 64
  | 0x08 => arg < 64
  | 0x09 => arg < 64
  | 0x0A => arg < 64
  | 0x0B => arg < 64
  | 0x0C => arg < 128
  | _ => arg = 0

/-- A valid microword (R390, R415). -/
def Uop.valid (u : Uop) (pc : Nat) : Bool :=
  u.nac < 6 && !(u.nac = 0 && pc = 0xFFF) &&
    ((u.nac = 0 || u.nac = 4) → u.next = 0) && (u.nac ≠ 2 → (u.csel = 0 && u.mask = 0)) &&
    u.alu < 13 && u.bsrc ≠ 3 && u.io < 0x1A && ioargValid u.io u.ioarg && ioMinLen u.io ≤ u.len + 1 &&
    (u.evmask ≠ 0 → (u.nac = 5 || u.io = 0x12)) && u.rsv = 0

/-! ## Registers and condition groups (Table 9.5) -/

def Halyard.ureg (h : Halyard) (r : Nat) : Word32 := mget 0 r h.u

def Halyard.setUreg (h : Halyard) (r : Nat) (v : Word32) : Halyard := { h with u := mput 0 r v h.u }

def laneNo (c : ClusterId) (h : HalyardId) : Nat := 16 * c.val + h.val

/-- Bytes of the pennants that wait in the transmit area. -/
def LanePort.txBytes (p : LanePort) : Nat := (p.tx.map fun t => t.payload.length).sum

/-- The pod's credit on an endpoint that the pennants waiting for their first sending leave (R454). -/
def LanePort.freeCredit (p : LanePort) (e : Nat) : Nat :=
  ((p.credit e).limit - (p.credit e).consumed).toNat -
    (p.tx.map fun t => if !t.paid && t.endpoint.toNat = e then blocksOf t.payload else 0).sum

/-- The personality number that groups 12 and 13 show (R410). -/
def Blade.personality (b : Blade) (l : Nat) : Nat :=
  let h := b.halyard l
  let w := b.reg (rEP l h.endpoint.toNat)
  if h.rxOpen.isSome && bitOf w.toNat 6 then bits w.toNat 0 6 else 0

/-- A condition group; `ev` is the event register as sampled. -/
def Blade.group (b : Blade) (c h : Nat) (ev : BitVec 16) (csel : Nat) : Nat :=
  let l := 16 * c + h
  let y := b.halyard l
  let p := b.port l
  let who : Producer := match h, c with
    | h, c => .requester (.halyard ⟨c % 8, Nat.mod_lt _ (by decide)⟩ ⟨h % 16, Nat.mod_lt _ (by decide)⟩)
  match csel with
  | 0 => y.flags.toNat
  | 1 =>
    flagBits [y.rxOpen.isSome, (y.rxOpen.map (·.urgent)).getD false, y.endpoint = 0, y.inTaint || y.outTaint]
  | 2 =>
    y.queueGroup.toNat + 4 * b2n (0 < b.openCount who) +
      8 * b2n (b.pool.cursors.any fun k => Producer.requester k.who = who && !k.ended)
  | 3 =>
    flagBits [p.txBytes + 1024 ≤ 4096, y.txOpen.isSome, p.full, 16 ≤ p.freeCredit y.endpoint.toNat]
  | 4 => bits ev.toNat 0 4
  | 5 => bits ev.toNat 4 4
  | 8 => y.byteClass.toNat
  | 9 => bits (y.ureg 15).toNat 0 4
  | 10 => bits (y.ureg 15).toNat 4 4
  | 11 => bits (y.ureg 14).toNat 0 4
  | 12 => bits (b.personality l) 0 4
  | 13 => bits (b.personality l) 4 2
  | 14 => flagBits [(b.cluster c).quiescing, b.struck (fnPort l)]
  | _ => 0

/-! ## The ALU (Table 9.6) -/

/-- Result and carry. -/
def ualu (op : Nat) (a b : Word32) : Word32 × Bool :=
  let n := bits b.toNat 0 5
  match op with
  | 0 => (a, false)
  | 1 => (a + b, 2 ^ 32 ≤ a.toNat + b.toNat)
  | 2 => (a - b, a.toNat < b.toNat)
  | 3 => (b - a, b.toNat < a.toNat)
  | 4 => (a &&& b, false)
  | 5 => (a ||| b, false)
  | 6 => (a ^^^ b, false)
  | 7 => (a <<< n, false)
  | 8 => (a >>> n, false)
  | 9 => (b, false)
  | 10 => (a * 10 + b - 0x30, false)
  | 11 => (BitVec.ofNat 32 (beNat (leBytes 4 b.toNat)), false)
  | _ => (a.sshiftRight n, false)

/-- The ALU flags: digit, carry, neg, zero (R394). -/
def ualuFlags (r b : Word32) (carry : Bool) : BitVec 4 :=
  BitVec.ofNat 4 (flagBits [r = 0, r.msb, carry, 0x30 ≤ bits b.toNat 0 8 && bits b.toNat 0 8 ≤ 0x39])

/-! ## I/O operations (Table 9.7) -/

/-- How an I/O operation ends: completed with its read data, or replayed (R388). -/
inductive IoEnd where
  | complete (m : Memory) (b : Blade) (read : Word32)
  | replay (b : Blade)

/-- Poisoned data sets both taints (R404). -/
def Halyard.taint (h : Halyard) : Halyard := { h with inTaint := true, outTaint := true }

/-- The class of a received byte: ASCII digit, delim0, delim1 (Table 9.5). -/
def Blade.byteClass (b : Blade) (l : Nat) (v : Byte) : BitVec 4 :=
  let w := (b.reg (rEP l (b.halyard l).endpoint.toNat)).toNat
  BitVec.ofNat 4 (flagBits [0x30 ≤ v.toNat && v.toNat ≤ 0x39, v.toNat = bits w 8 8, v.toNat = bits w 16 8])

/-- A stored pennant with an uncorrectable word (R401): it and what followed it in its space are as if not received. -/
def Blade.loseReceived (b : Blade) (l : Nat) (r : RxPennant) : Blade :=
  let p := b.port l
  let later := fun x : RxPennant => x.urgent = r.urgent && (x.sequence - r.sequence).toNat < 32768
  let gone := p.rx.filter later
  let p := { p with rx := p.rx.filter fun x => !later x }
  let p := if r.urgent then
      { p with uExpected := r.sequence,
               urgent := { p.urgent with consumed := p.urgent.consumed - BitVec.ofNat 16 gone.length } }
    else
      gone.foldl (fun p x =>
        let g := p.grant x.endpoint.toNat
        p.setGrant x.endpoint.toNat { g with consumed := g.consumed - BitVec.ofNat 16 (blocksOf x.payload) })
        { p with rxExpected := r.sequence }
  let b := (b.setPort l p).packetLost l
  let b := (b.portCount l crcERR).linkError l
  if !(b.port l).full then b else if r.urgent then b.nakUrgent l 1 else b.nakData l 1

/-- RXOPEN (R400, R401). -/
def Blade.rxOpenIo (b : Blade) (m : Memory) (l : Nat) : IoEnd :=
  let h := b.halyard l
  if h.rxOpen.isSome then .complete m b 0
  else
    let p := b.port l
    match (p.rx.find? (·.urgent)).or (p.rx.find? (!·.urgent)) with
    | none => .complete m b 0
    | some r =>
      if r.lost then .replay (b.loseReceived l r)
      else
        let b := b.correctWords l r.weak
        let b := b.setPort l { b.port l with rx := dropFirst (· = r) (b.port l).rx }
        .complete m (b.setHalyard l { b.halyard l with rxOpen := some { r with weak := 0 }, rxPosition := 0,
                                                       endpoint := r.endpoint }) 0

/-- The bytes left in the open receive pennant. -/
def Halyard.rest (h : Halyard) : List Byte := ((h.rxOpen.map (·.payload)).getD []).drop h.rxPosition

/-- RXB. -/
def Blade.rxByte (b : Blade) (m : Memory) (l : Nat) : IoEnd :=
  let h := b.halyard l
  match h.rest with
  | [] => .complete m (b.setHalyard l { h with byteClass := 8 }) 0
  | v :: _ =>
    .complete m (b.setHalyard l { h with byteClass := b.byteClass l v, rxPosition := h.rxPosition + 1 })
      (BitVec.ofNat 32 v.toNat)

/-- RXW. -/
def Blade.rxWordIo (b : Blade) (m : Memory) (l : Nat) : IoEnd :=
  let h := b.halyard l
  let r := h.rest.take 4
  .complete m (b.setHalyard l { h with byteClass := if r.length < 4 then 8 else 0, rxPosition := h.rxPosition + r.length })
    (BitVec.ofNat 32 (leNat r))

/-- RXSKIP. -/
def Blade.rxSkip (b : Blade) (m : Memory) (l n : Nat) : IoEnd :=
  let h := b.halyard l
  let k := min n h.rest.length
  .complete m (b.setHalyard l { h with byteClass := if h.rest.length ≤ k then 8 else 0, rxPosition := h.rxPosition + k }) 0

/-- RXDONE (R402). -/
def Blade.rxDone (b : Blade) (m : Memory) (l : Nat) : IoEnd :=
  let h := b.halyard l
  match h.rxOpen with
  | none => .complete m b 0
  | some r =>
    let p := b.port l
    .complete m ((b.setPort l { p with freed := p.freed ++ [(b.frame, r)] }).setHalyard l
      { h with rxOpen := none, rxPosition := 0 }) 0

/-- A queue operation that waits replays, naming the queue (R374, R388). -/
def Blade.replayOn (b : Blade) (l q : Nat) : IoEnd :=
  .replay (b.modHalyard l fun h => { h with waitsFor := some (BitVec.ofNat 14 q) })

/-- A queue operation that is done; the halyard waits for no queue. -/
def Blade.queueDone (b : Blade) (m : Memory) (l : Nat) (v : Word32) : IoEnd :=
  .complete m (b.modHalyard l fun h => { h with waitsFor := none }) v

/-- QSEAL of a tainted packet: it is bad, and the seal clears in_taint (R404, R662). -/
def Blade.sealTainted (b : Blade) (who : Requester) (q : Nat) : Option Blade :=
  match b.openPacket (.requester who) q with
  | some _ => some (b.abortPacket (.requester who) q)
  | none =>
    match b.takeCell q with
    | none => none
    | some (n, b) =>
      let r := b.openNew (.requester who) q (some n)
      some ((r.2.spoil r.1).dropPacket r.1)

/-- QSEAL (R403, R404, R407). -/
def Blade.sealIo (b : Blade) (m : Memory) (l : Nat) (who : Requester) (q : Nat) (pad : Nat) : IoEnd :=
  let h := b.halyard l
  if h.inTaint then
    match b.sealTainted who q with
    | some b => (b.modHalyard l fun h => { h with inTaint := false }).queueDone m l 0
    | none => b.replayOn l q
  else
    let bad := ((b.openPacket (.requester who) q).map fun i => (b.packet i).bad).getD false
    if !bad && (b.queue q).notice = 1 && 32 ≤ b.lanePending l then b.replayOn l q
    else
      match b.sealPacket (.requester who) q (BitVec.ofNat 32 pad) with
      | some b => ({ b with net.progressed := true } : Blade).queueDone m l 0
      | none => b.replayOn l q

/-- QHEAD and QDATA: the item's tag goes to group 2, a POISON item taints. -/
def Blade.itemIo (b : Blade) (m : Memory) (l : Nat) (r : Item × Blade) : IoEnd :=
  let i := r.1
  .complete m (r.2.modHalyard l fun h =>
    let h := { h with queueGroup := i.tag.code }
    if i.tag = .poison then h.taint else h) i.value

/-- The open transmit pennant is discarded (R405). -/
def Blade.discardTx (b : Blade) (l : Nat) : Blade :=
  (b.modHalyard l fun h => { h with txOpen := none }).count (rLANE (l / 16) + 0x34)

def TxPennant.fresh (mgmt : Bool) (e : Nat) : TxPennant :=
  { mgmt := mgmt, endpoint := BitVec.ofNat 5 e, sequence := 0, payload := [], weak := 0, lost := false, paid := false,
    sent := false, resend := false, sentFrame := 0 }

/-- TXOPEN. -/
def Blade.txOpenIo (b : Blade) (m : Memory) (l e : Nat) (mgmt : Bool) : IoEnd :=
  let b := if (b.halyard l).txOpen.isSome then b.discardTx l else b
  .complete m (b.modHalyard l fun h => { h with txOpen := some (.fresh mgmt e) }) 0

/-- TXB and TXW. -/
def Blade.txAppend (b : Blade) (m : Memory) (l : Nat) (bs : List Byte) : IoEnd :=
  match (b.halyard l).txOpen with
  | none => .complete m b 0
  | some t =>
    if 1024 < t.payload.length + bs.length then .complete m (b.discardTx l) 0
    else .complete m (b.modHalyard l fun h => { h with txOpen := some { t with payload := t.payload ++ bs } }) 0

/-- A pennant joins the transmit area; an armed injection damages it (Table 12.8). -/
def Blade.queueTx (b : Blade) (l : Nat) (t : TxPennant) : Blade :=
  let weak := b.armed (srcPktCorr l) 1
  let lost := b.armed (srcPktUncorr l) 1
  let b := if weak then b.useInjection (srcPktCorr l) else if lost then b.useInjection (srcPktUncorr l) else b
  b.modPort l fun p =>
    { p with tx := p.tx ++ [{ t with sequence := p.txNext, weak := b2n weak, lost := !weak && lost }],
             txNext := p.txNext + 1 }

/-- TXSEND (R404, R405, R438). -/
def Blade.txSendIo (b : Blade) (m : Memory) (l : Nat) : IoEnd :=
  let h := b.halyard l
  match h.txOpen with
  | none => .complete m b 0
  | some t =>
    if b.struck (fnPort l) then .replay b
    else if h.outTaint then
      .complete m ((b.setHalyard l { h with txOpen := none, outTaint := false }).count (rLANE (l / 16) + 0x30)) 0
    else if t.mgmt ≠ (t.endpoint = 0) then .complete m (b.discardTx l) 0
    else
      let p := b.port l
      if p.freeCredit t.endpoint.toNat < blocksOf t.payload ||
          4096 < p.txBytes + t.payload.length then .replay b
      else .complete m ((b.setHalyard l { h with txOpen := none }).queueTx l t) 0

/-- A semaphore operation of a halyard; a group that denies clusters raises SEM_DENIED (R340). -/
def Blade.semIo (b : Blade) (m : Memory) (c h : Nat) (n : Nat) (op : Blade → Owner → Nat × Blade) : IoEnd :=
  if b.semAllowed 1 n then
    let r := op b { cls := 1, unit := c, context := h }
    .complete m r.2 (BitVec.ofNat 32 r.1)
  else
    let pc := (b.halyard (16 * c + h)).pc.toNat
    .complete m (b.raiseWith { Assertion.plain (srcCluster c 9) with
      sub := BitVec.ofNat 8 h, detail := (w32 pc, b.reg (rLANE c + 0x20), 0) }) 0

/-- The I/O operation of a word on the halyard's behalf. -/
def Blade.ioPerform (b : Blade) (m : Memory) (c : ClusterId) (hd : HalyardId) (u : Uop) : IoEnd :=
  let l := laneNo c hd
  let h := b.halyard l
  let who : Requester := .halyard c hd
  let e := if bitOf u.ioarg 5 then h.endpoint.toNat else bits u.ioarg 0 5
  let inq := 32 * l + e
  let outq := 4096 + 32 * l + e
  let x := h.ureg u.ioreg
  let a := h.ureg u.asel
  let addr := bits x.toNat 2 22 * 4
  match u.io with
  | 0x01 => b.rxOpenIo m l
  | 0x02 => b.rxByte m l
  | 0x03 => b.rxWordIo m l
  | 0x04 => b.rxSkip m l u.ioarg
  | 0x05 => b.rxDone m l
  | 0x06 =>
    match b.append (.requester who) inq x false with
    | some b => b.queueDone m l 0
    | none => b.replayOn l inq
  | 0x07 => b.sealIo m l who inq (bits u.ioarg 6 2)
  | 0x08 => .complete m ((b.abortPacket (.requester who) inq).modHalyard l fun h => { h with inTaint := false }) 0
  | 0x09 => b.itemIo m l (b.headLoad who outq)
  | 0x0A => b.itemIo m l (b.dataLoad who outq)
  | 0x0B => .complete m (b.endCursor who outq) 0
  | 0x0C => b.txOpenIo m l e (bits u.ioarg 6 2 = 1)
  | 0x0D => b.txAppend m l [x.truncate 8]
  | 0x0E => b.txAppend m l (leBytes 4 x.toNat)
  | 0x0F => b.txSendIo m l
  | 0x10 => .complete m (b.setHalyard l { h with txOpen := none, outTaint := false }) 0
  | 0x11 => .complete m (b.setHalyard l { h with txMask := 0 }) h.txMask
  | 0x12 => .complete m (b.setHalyard l { h with latched := h.latched &&& ~~~(BitVec.ofNat 16 u.evmask) }) 0
  | 0x13 => .complete m (b.setHalyard l { h with timer := x.truncate 16 }) 0
  | 0x14 =>
    let r := b.load m addr 4
    .complete r.mem (if r.poison then r.blade.modHalyard l Halyard.taint else r.blade) (r.value.truncate 32)
  | 0x15 =>
    let r := b.store m addr 4 (a.setWidth 64) false
    .complete r.1 r.2 0
  | 0x16 =>
    let r := b.readReg (.cluster c) (rSYS + addr)
    .complete m r.2 r.1
  | 0x17 => .complete m (b.codeletWrite { port := .cluster c, sub := hd.val } (rSYS + addr) a h.pc.toNat 0) 0
  | 0x18 => b.semIo m c.val hd.val (bits x.toNat 0 10) fun b o => b.semAcquire o (bits x.toNat 0 10)
  | 0x19 => b.semIo m c.val hd.val (bits x.toNat 0 10) fun b o =>
      b.semRelease o (bits x.toNat 0 10) (bits a.toNat 0 16)
  | _ => .complete m b 0

/-! ## Cluster faults (Table 9.14, R391) -/

/-- One of the four sources that strike a cluster (LANE_FAULT_INFO's cause is k's place in Table 9.21). -/
def Blade.clusterFault (b : Blade) (c h k cause : Nat) : Blade :=
  let pc := (b.halyard (16 * c + h)).pc.toNat
  let info := rLANE c + 0x20
  let b := if b.flag info 31 then b else b.setReg info (pack [(0, 4, h), (4, 12, pc), (16, 3, cause), (31, 1, 1)])
  let parity := k = 1 ∨ k = 2
  let strikes := !parity || b.relaxedCluster c
  let loc := b.draw (2 ^ 48)
  let d := if parity then loc.2.locDetail (if k = 1 then pc else loc.1) 0 else ((w32 pc, b.reg info, 0), b)
  let b := d.2.raiseWith { Assertion.plain (srcCluster c k) with sub := BitVec.ofNat 8 h, detail := d.1 }
  if strikes then
    let b := (b.setStruck (fnCluster c) true).modCluster c fun x => { x with faultStruck := true }
    if parity then (List.range 16).foldl (fun b i => b.setLink (16 * c + i) linkDOWN) b else b
  else b

/-! ## Issue -/

/-- The next pc of a word, its return stack and its YIELD (R390); none where the stack faults (R391). -/
def Blade.nextPc (b : Blade) (c h : Nat) (ev : BitVec 16) (u : Uop) (y : Halyard) : Option Halyard :=
  let pc := fun n : Nat => BitVec.ofNat 12 n
  match u.nac with
  | 0 => some { y with pc := y.pc + 1 }
  | 1 => some { y with pc := pc u.next }
  | 2 => some { y with pc := pc (u.next ||| (b.group c h ev u.csel &&& u.mask)) }
  | 3 => if 4 ≤ y.stack.length then none else some { y with pc := pc u.next, stack := (y.pc + 1) :: y.stack }
  | 4 =>
    match y.stack with
    | [] => none
    | r :: rest => some { y with pc := r, stack := rest }
  | _ => some { y with pc := pc u.next, waitMask := BitVec.ofNat 16 u.evmask, yielded := true }

/-- A word completes: ALU, flags, next address (R393), and a parity injection on the state it writes (Table 12.8). -/
def Blade.completeWord (b : Blade) (c h : Nat) (ev : BitVec 16) (u : Uop) (a bOperand : Word32) : Blade :=
  let l := 16 * c + h
  let r := ualu u.alu a bOperand
  let y := b.halyard l
  let y := if u.wen then y.setUreg u.dst r.1 else y
  let y := if u.setf then { y with flags := ualuFlags r.1 bOperand r.2 } else y
  let hurt := b.armed (srcCluster c 2) 1
  let b := if hurt then b.useInjection (srcCluster c 2) else b
  let b := b.setHalyard l { y with replaying := false, parityBad := hurt }
  match b.nextPc c h ev u (b.halyard l) with
  | some y => b.setHalyard l y
  | none => b.clusterFault c h 4 2

/-- A valid word at its turn: its effects in the order of R393, or its replay (R388). -/
def Blade.runWord (b : Blade) (m : Memory) (c : ClusterId) (h : HalyardId) (u : Uop) : Memory × Blade :=
  let l := laneNo c h
  let ev := b.events l
  let y := b.halyard l
  let a := y.ureg u.asel
  match b.ioPerform m c h u with
  | .replay b =>
    (m, (b.modHalyard l fun y => { y with replaying := true }).count64 (rLANE c.val + 0x40))
  | .complete m b read =>
    let bop := if u.bsrc = 0 then y.ureg u.bsel else if u.bsrc = 1 then w32 u.imm else read
    (m, (b.completeWord c.val h.val ev u a bop).respond (.data read))

/-- The halyard that issues next: the first in the rotation that has not yielded (R386); none on a blade that has stopped
executing (R576). -/
def Blade.turnOf (b : Blade) (c : ClusterId) : Option HalyardId :=
  if b.stopped then none
  else ((List.finRange 16).map fun i => (b.cluster c.val).turn + i).find? fun h => !(b.halyard (laneNo c h)).yielded

/-- The rotation stands after a halyard. -/
def Blade.passTurn (b : Blade) (c : ClusterId) (h : HalyardId) : Blade :=
  b.setCluster c.val { b.cluster c.val with turn := h + 1 }

/-- A halyard issues a word in its turn: nothing while its cluster is struck, or out of turn (R386); then the faults of
Table 9.14. -/
def Blade.issue (b : Blade) (m : Memory) (c : ClusterId) (h : HalyardId) (u : Uop) : Memory × Blade :=
  let y := b.halyard (laneNo c h)
  if b.struck (fnCluster c.val) || b.turnOf c ≠ some h then (m, b)
  else
  let b := b.passTurn c h
  if y.parityBad then (m, b.clusterFault c.val h.val 2 4)
  else if !u.valid y.pc.toNat then (m, b.clusterFault c.val h.val 3 1)
  else b.runWord m c h u

/-- MICROWORD: the stored word at the halyard's pc, its control-store errors first (Table 9.14). -/
def Blade.microword (b : Blade) (m : Memory) (c : ClusterId) (h : HalyardId) : Memory × Blade :=
  let y := b.halyard (laneNo c h)
  if b.struck (fnCluster c.val) || b.turnOf c ≠ some h then (m, b)
  else
    let k := b.cluster c.val
    let pc := y.pc.toNat
    let marks := [mget .sound (2 * pc) k.damage, mget .sound (2 * pc + 1) k.damage]
    if marks.contains .uncorrectable then (m, b.clusterFault c.val h.val 1 3)
    else
      let n := (marks.filter (· = .single)).length
      let b := times n (fun b => (b.count (rLANE c.val + 0x28)).windowEvent (srcCluster c.val 0) pc) b
      let b := b.setCluster c.val { k with damage := mput .sound (2 * pc) .sound (mput .sound (2 * pc + 1) .sound k.damage) }
      b.issue m c h (uopOf (mget 0 pc k.store))

/-- YIELD_RESUME (R398). -/
def Blade.resumeHalyard (b : Blade) (c : ClusterId) (h : HalyardId) : Blade :=
  let l := laneNo c h
  let y := b.halyard l
  if b.struck (fnCluster c.val) || !y.yielded || b.events l &&& y.waitMask = 0 then b
  else b.setHalyard l { y with yielded := false }

/-- TIMER_EVENT: a timer passes from 1 to 0 (R399). -/
def Blade.timerExpires (b : Blade) (l : Nat) : Blade :=
  let y := b.halyard l
  if y.timer = 1 then (b.setHalyard l { y with timer := 0 }).latch l evTIMER else b

/-- Every timer that has more than one microsecond left counts a fine tick. -/
def Blade.timersTick (b : Blade) : Blade :=
  (mkeys (fun _ (y : Halyard) => 1 < y.timer.toNat) b.lan.halyards).foldl
    (fun b l => b.modHalyard l fun y => { y with timer := y.timer - 1 }) b

end Sys2Proof.Machine
end

