-- ==== Sys2Proof/Machine/Images.lean ====
section
/-! DEFINITION. Graph, microcode and firmware images: their checks (R65, R66, R72, R415, R599, R600) and what they load. -/

namespace Sys2Proof.Machine

/-! ## Signatures (R599, R600) -/

/-- Whether the 64 bytes at an offset sign every byte before it under one of some public keys. -/
def signedBy (keys : List (Nat × Nat)) (img : List Byte) (off : Nat) : Bool :=
  let digest := sha256 (img.take off)
  keys.any fun k => ecdsaVerify k digest (fieldAt img off 32) (fieldAt img (off + 32) 32)

/-- A public key in the fuses: what the fuses of this part are taken to hold where the state lists none. -/
def Boot.fusedKey (x : Boot) (k : Nat) : Nat × Nat := ((x.fuses.find? (·.1 = k)).map (·.2)).getD (Config.fusedKey k)

/-- The fused keys of some numbers that are not revoked. -/
def Boot.keysOf (x : Boot) (ks : List Nat) : List (Nat × Nat) := (ks.filter fun k => !x.revoked.getLsbD k).map x.fusedKey

/-- The fused keys that are not revoked. -/
def Boot.goodKeys (x : Boot) : List (Nat × Nat) := x.keysOf (List.range 4)

/-- The key of firmware and factory images. -/
def Boot.makerKey (x : Boot) : List (Nat × Nat) := x.keysOf [0]

/-! ## Graph images (Tables 2.2, 2.25 and 2.26) -/

def graphNodes (img : List Byte) : Nat := fieldAt img 0x0C 4
def graphCode (img : List Byte) : Nat := fieldAt img 0x18 4
def graphLanes (img : List Byte) : Nat := fieldAt img 0x20 2
def graphCodeOffset (img : List Byte) : Nat := 0x40 + 16 * graphNodes img
def graphLaneOffset (img : List Byte) : Nat := graphCodeOffset img + graphCode img
def graphSigOffset (img : List Byte) : Nat := graphLaneOffset img + 16 * graphLanes img

/-- The header of a graph image (R65). -/
def graphHeader (img : List Byte) : Bool :=
  fieldAt img 0 4 = 0x52474C48 && fieldAt img 4 2 = 1 && fieldAt img 6 2 = 0 && 4096 ≤ graphNodes img &&
    graphNodes img ≤ 1048576 && fieldAt img 0x10 4 = 0x40 && fieldAt img 0x14 4 = graphCodeOffset img &&
    graphCode img ≠ 0 && graphCode img % 4 = 0 && fieldAt img 0x1C 4 = graphLaneOffset img &&
    graphLanes img ≤ 4096 && fieldAt img 0x22 2 = 0 && fieldAt img 0x24 4 = graphSigOffset img &&
    fieldAt img 0x28 24 = 0 && img.length = graphSigOffset img + 64 && img.length ≤ 0x10000000

/-- The system exception nodes that have arity 1 (R72). -/
def systemException (node : Nat) : Bool :=
  node = 0x10 || (0x100 ≤ node && node < 0x180) || (0x180 ≤ node && node ≤ 0x1FE)

/-- The descriptor of a node (R72). -/
def descValid (img : List Byte) (node : Nat) : Bool :=
  let a := 0x40 + 16 * node
  let d0 := fieldAt img a 4
  let d1 := fieldAt img (a + 4) 4
  bits d1 0 2 ≠ 0 && bits d1 8 2 ≠ 3 && ([20, 22, 24, 26].all fun i => bits d1 i 2 ≠ 3) && !bitOf d1 19 &&
    bits d1 28 4 = 0 && bits (fieldAt img (a + 8) 4) 20 12 = 0 && fieldAt img (a + 12) 4 = 0 &&
    (bits d1 8 2 ≠ 2 || bits d1 0 2 = 1) && d0 % 4 = 0 && d0 < graphCode img &&
    (!systemException node || bits d1 0 2 = 1)

/-- An entry of the lane configuration (R66). -/
def laneEntryValid (img : List Byte) (i : Nat) : Bool :=
  let a := graphLaneOffset img + 16 * i
  let lane := fieldAt img a 2
  (lane < 128 || lane = 0xFFFF) && fieldAt img (a + 2) 1 ≤ 31 && fieldAt img (a + 3) 1 < 0x80 && fieldAt img (a + 7) 1 = 0

/-- A graph image that R65, R66 and R72 accept. -/
def graphValid (keys : List (Nat × Nat)) (img : List Byte) : Bool :=
  graphHeader img && ((List.range (graphNodes img)).all (descValid img)) &&
    ((List.range (graphLanes img)).all (laneEntryValid img)) && signedBy keys img (graphSigOffset img)

/-! ## Microcode images (Tables 9.11 and 9.12) -/

def microPersonalities (img : List Byte) : Nat := fieldAt img 6 2

def microWord (img : List Byte) (pc : Nat) : BitVec 128 := BitVec.ofNat 128 (fieldAt img (0x40 + 16 * pc) 16)

/-- Every microword of an image is valid. -/
def microWordsValid (img : List Byte) : Bool := (List.range 4096).all fun pc => (uopOf (microWord img pc)).valid pc

def microEntry (img : List Byte) (i : Nat) : Personality :=
  let a := 0x10040 + 16 * i
  { number := BitVec.ofNat 8 (fieldAt img a 1), family := BitVec.ofNat 8 (fieldAt img (a + 1) 1),
    entry := BitVec.ofNat 16 (fieldAt img (a + 2) 2), reserve := BitVec.ofNat 16 (fieldAt img (a + 4) 2),
    name := BitVec.ofNat 64 (fieldAt img (a + 8) 8) }

def microDirectory (img : List Byte) : List Personality := (List.range (microPersonalities img)).map (microEntry img)

/-- No personality number stands twice. -/
def numbersDiffer : List Personality → Bool
  | [] => true
  | p :: r => (r.all fun q => q.number ≠ p.number) && numbersDiffer r

/-- The words, header and directory of a microcode image are as R415 asks, and its directory has an entry 0 (R411). -/
def microFormed (img : List Byte) : Bool :=
  let n := microPersonalities img
  fieldAt img 0 4 = 0x55434C48 && fieldAt img 4 2 = 1 && 1 ≤ n && n ≤ 64 && fieldAt img 0x0C 4 = 4096 &&
    fieldAt img 0x10 4 = 0x10040 && fieldAt img 0x14 4 = 0x10040 + 16 * n && fieldAt img 0x18 40 = 0 &&
    microWordsValid img && numbersDiffer (microDirectory img) &&
    ((List.range n).all fun i => (microEntry img i).number.toNat < 64 && (microEntry img i).entry.toNat < 0x1000 &&
      fieldAt img (0x10040 + 16 * i + 6) 2 = 0) &&
    (microDirectory img).any fun p => p.number = 0

/-- A microcode image that R415 accepts, signed. -/
def microValid (keys : List (Nat × Nat)) (img : List Byte) : Bool :=
  let sig := 0x10040 + 16 * microPersonalities img
  microFormed img && img.length = sig + 64 && signedBy keys img sig

/-- What a control store is loaded from. -/
def microImage (img : List Byte) : MicroImage :=
  { imageId := BitVec.ofNat 32 (fieldAt img 8 4),
    store := (List.range 4096).foldr (fun pc s => if microWord img pc = 0 then s else (pc, microWord img pc) :: s) [],
    directory := microDirectory img }

/-! ## Firmware images (Table 14.4) -/

/-- A firmware image whose signature verifies under key 0. -/
def firmwareValid (keys : List (Nat × Nat)) (img : List Byte) : Bool :=
  fieldAt img 0 4 = 0x57464C48 && fieldAt img 4 2 = 1 && fieldAt img 0x10 4 + 64 ≤ img.length &&
    signedBy keys img (fieldAt img 0x10 4)

/-- An image of a kind passes its checks. -/
def Boot.imageValid (x : Boot) (kind : Nat) (img : List Byte) : Bool :=
  if kind = 1 then firmwareValid x.makerKey img
  else if kind = 2 then graphValid x.goodKeys img
  else kind = 3 && microValid x.goodKeys img

/-! ## The staging region (Table 7.5, R485) -/

/-- The staged image's bytes. -/
def Blade.stagedImage (b : Blade) (m : Memory) : List Byte := m.read imageStagingBase b.eng.staging.total

/-- The staged image is read (R315); one with a lost word passes no check. -/
def Blade.readStaged (b : Blade) (m : Memory) : DramRead := b.readDram m imageStagingBase b.eng.staging.total

/-- Whether the ranges cover every byte from `i` on, over as many ranges as there are. -/
def covered (ranges : List (Nat × Nat)) (total : Nat) : Nat → Nat → Bool
  | 0, i => total ≤ i
  | n + 1, i =>
    match ranges.find? fun r => r.1 ≤ i && i < r.1 + r.2 with
    | some r => covered ranges total n (r.1 + r.2)
    | none => total ≤ i

/-- Every byte of the staged image has been loaded. -/
def ImageStaging.complete (s : ImageStaging) : Bool := 0 < s.total && covered s.ranges s.total s.ranges.length 0

/-! ## Loading -/

/-- The lines of an instruction cache that are not of a slot (R661). -/
def dropLines (slotB : Bool) (l : SMap (List Nat)) : SMap (List Nat) :=
  l.filterMap fun e =>
    let ways := e.2.filter fun tag => decide (2 ^ 16 ≤ tag) ≠ slotB
    if ways.isEmpty then none else some (e.1, ways)

/-- A graph image is written into a slot; what tiles and units hold of the slot's old contents goes (R78, R590, R661). -/
def Blade.loadGraph (b : Blade) (m : Memory) (slotB : Bool) (img : List Byte) : Memory × Blade :=
  let b := (mkeys (fun _ (x : Tile) => !x.icache.isEmpty) b.net.tiles).foldl (fun b t =>
    b.modTile t fun x => { x with icache := dropLines slotB x.icache }) b
  { b with led.lostDescriptors := b.led.lostDescriptors.filter fun p => p.1 ≠ slotB }.fillDram m (slotBase slotB) img

/-- A cluster's halyards are reset (R384): their registers, stacks and open pennants. -/
def Blade.resetHalyards (b : Blade) (c : Nat) : Blade :=
  (List.range 16).foldl (fun b h =>
    let l := 16 * c + h
    let y := b.halyard l
    b.setHalyard l { Halyard.init with notices := y.notices }) b

/-- A control store is loaded from an image (Table 9.13 step 5), lowest word first; an armed injection damages its 64-bit
words as they are written (Table 12.8). -/
def Blade.loadCluster (b : Blade) (c : Nat) (v : MicroImage) : Blade :=
  let weak := b.injectWords (srcCluster c 0) 1 8192
  let lost := weak.2.injectWords (srcCluster c 1) 1 8192
  let damage := if 0 < lost.1 then (List.range lost.1).map fun i => (i, WordMark.uncorrectable)
    else (List.range weak.1).map fun i => (i, WordMark.single)
  let b := lost.2.setCluster c { lost.2.cluster c with
    store := v.store, damage := damage, directory := v.directory, imageId := v.imageId, loaded := true,
    faultStruck := false }
  b.resetHalyards c

/-- The cells of a halyard's open inbound packets and cursors before a load of a fault-struck cluster (R422). -/
def Blade.clearHalyard (b : Blade) (c : ClusterId) (h : HalyardId) : Blade :=
  let l := 16 * c.val + h.val
  let who : Requester := .halyard c h
  let b := (b.rewindAll (.requester who) false).unclaim who
  let y := b.halyard l
  let b := match y.rxOpen with
    | some r => b.modPort l fun p => { p with rx := r :: p.rx }
    | none => b
  b.setHalyard l { y with rxOpen := none, rxPosition := 0, txOpen := none }

/-! ## The lane configuration (R66, R412, R588, R607) -/

/-- One entry, applied to a lane by the attach procedure: its LANE_EP word and its queues' quotas and reserves. -/
def Blade.attachEntry (b : Blade) (img : List Byte) (i l : Nat) : Blade :=
  let a := graphLaneOffset img + 16 * i
  let e := fieldAt img (a + 2) 1
  let word := pack [(0, 7, fieldAt img (a + 3) 1), (8, 8, fieldAt img (a + 4) 1), (16, 8, fieldAt img (a + 5) 1),
    (24, 8, fieldAt img (a + 6) 1)]
  let b := b.setReg (rEP l e) word
  let q := 32 * l + e
  let b := b.setQueue q { b.queue q with quota := fieldAt img (a + 8) 2, reserve := fieldAt img (a + 10) 2 }
  b.setQueue (4096 + q) { b.queue (4096 + q) with
    quota := fieldAt img (a + 12) 2, reserve := fieldAt img (a + 14) 2 }

/-- Every entry that names a lane of a list, or all lanes, in order. -/
def Blade.attachLanes (b : Blade) (img : List Byte) (ls : List Nat) : Blade :=
  (List.range (graphLanes img)).foldl (fun b i =>
    let lane := fieldAt img (graphLaneOffset img + 16 * i) 2
    (ls.filter fun l => lane = l || lane = 0xFFFF).foldl (fun b l => b.attachEntry img i l) b) b

/-- A slot's image is read, its lane configuration included (R315). -/
def Blade.readSlot (b : Blade) (m : Memory) (slotB : Bool) : DramRead :=
  let h := b.readDram m (slotBase slotB) 0x40
  h.blade.readDram h.mem (slotBase slotB) (fieldAt h.bytes 0x24 4 + 64)

/-- The attach procedure of lanes applies the active slot's lane configuration. -/
def Blade.attachActive (b : Blade) (m : Memory) (ls : List Nat) : Memory × Blade :=
  let r := b.readSlot m b.led.activeSlotB
  (r.mem, r.blade.attachLanes r.bytes ls)

end Sys2Proof.Machine
end

