-- ==== Sys2Proof/Machine/RegisterRows.lean ====
section
/-! DEFINITION. The rows of the register window: a write or a read by a requester's port (R497 to R505, R653). A row that
names the direction of a request (a domain off, a destructive march) sets that bit of the word it writes. -/

namespace Sys2Proof.Machine

/-! ## One write, one read -/

/-- What a refused write of a port says of its writer (Table 12.11): a tile's node and its debug tag, or a cluster's
microword address. -/
def Blade.writerDetail (b : Blade) (m : Memory) (who : Port) : Nat × Nat :=
  match who with
  | .tile t =>
    match (b.tile t.val).firing with
    | some f => (f.node.toNat, (m.desc f.slotB f.node.toNat).debugTag)
    | none => (0, 0)
  | .cluster c => ((b.halyard (16 * c.val)).pc.toNat, 0)
  | .command => (0, 0)

/-- The writer that a port stands for. -/
def writerOf (who : Port) : Writer := { port := who, sub := if who = .command then 0xFF else 0 }

/-- A register write by a requester's port; a tile's or cluster's refused write raises its source. -/
def Blade.portWrite (b : Blade) (m : Memory) (who : Port) (a : Nat) (v : Word32) : Blade :=
  let d := b.writerDetail m who
  b.codeletWrite (writerOf who) a v d.1 d.2

/-- A register read by a requester's port. -/
def Blade.portRead (b : Blade) (who : Port) (a : Nat) : Blade :=
  let r := b.readReg who a
  r.2.respond (.data r.1)

/-- An aligned address of the register window (R497). -/
def inWindow (a : Nat) : Bool := rSYS ≤ a && a < 0x03000000 && a % 4 = 0

/-- A word with one bit given. -/
def withBit (v : Word32) (i : Nat) (on : Bool) : Word32 := merge (w32 (2 ^ i)) v (w32 (b2n on * 2 ^ i))

/-! ## Rows -/

def execKeyUnlock (who : Port) (value : BitVec 32) (s : State) : Result :=
  s.afterBlade (s.blade.portWrite s.mem who rKEY value)

def execFaultSticky (who : Port) (g : Fin 48) (value : BitVec 32) (s : State) : Result :=
  s.afterBlade (s.blade.portWrite s.mem who (rGROUP g.val) value)

def execFaultWdogKick (who : Port) (value : BitVec 32) (s : State) : Result :=
  s.afterBlade (s.blade.portWrite s.mem who (rFAULT + 0x302C) value)

def execDestructiveMarchStart (who : Port) (value : BitVec 32) (s : State) : Result :=
  s.afterBlade (s.blade.portWrite s.mem who (rMARCH + 4) (withBit (withBit value 6 true) 31 true))

def execPreservingPassStart (who : Port) (value : BitVec 32) (s : State) : Result :=
  s.afterBlade (s.blade.portWrite s.mem who (rMARCH + 4) (withBit (withBit value 6 false) 31 true))

def execHwClear (who : Port) (t : TileId) (value : BitVec 32) (s : State) : Result :=
  s.afterBlade (s.blade.portWrite s.mem who (rMSTORE + 0x100 + 4 * t.val) (withBit value 31 true))

def execAckNsClear (who : Port) (value : BitVec 32) (s : State) : Result :=
  s.afterBlade (s.blade.portWrite s.mem who (rTOGGLE + 0x14) (withBit value 31 true))

def execUackMaxClear (who : Port) (l : LaneId) (value : BitVec 32) (s : State) : Result :=
  s.afterBlade (s.blade.portWrite s.mem who (rPORT l.val + 0x18) (withBit value 31 true))

def execDomainOffRequest (who : Port) (d : Fin 33) (value : BitVec 32) (s : State) : Result :=
  s.afterBlade (s.blade.portWrite s.mem who (rPWR + 0x100 + 4 * d.val) (withBit value 0 false))

def execDomainOnRequest (who : Port) (d : Fin 33) (value : BitVec 32) (s : State) : Result :=
  s.afterBlade (s.blade.portWrite s.mem who (rPWR + 0x100 + 4 * d.val) (withBit value 0 true))

def execFeedOnCommand (who : Port) (k : Fin 16) (value : BitVec 32) (s : State) : Result :=
  s.afterBlade (s.blade.portWrite s.mem who (rPWR + 0x200 + 4 * k.val) (withBit value 0 true))

def execFeedOffCommand (who : Port) (k : Fin 16) (value : BitVec 32) (s : State) : Result :=
  s.afterBlade (s.blade.portWrite s.mem who (rPWR + 0x200 + 4 * k.val) (withBit value 0 false))

def execPeerDataWrite (who : Port) (value : BitVec 32) (s : State) : Result :=
  s.afterBlade (s.blade.portWrite s.mem who (rTOGGLE + 0x44) value)

def execPeerDataRead (who : Port) (s : State) : Result := s.afterBlade (s.blade.portRead who (rTOGGLE + 0x44))

/-- A read of a _LO register latches its _HI register for the reader (R499). -/
def execLoReadLatch (who : Port) (addr : BitVec 32) (s : State) : Result :=
  s.afterBlade (if inWindow addr.toNat then s.blade.portRead who addr.toNat else s.blade)

/-- A read of ATOM_SEM_STATE latches ATOM_SEM_OWNER for the reader (R347). -/
def execSemStateRead (who : Port) (n : Fin 1024) (s : State) : Result :=
  s.afterBlade (s.blade.portRead who (rATOM + 0x1000 + 4 * n.val))

def execRegisterWrite (who : Port) (addr value : BitVec 32) (s : State) : Result :=
  s.afterBlade (if inWindow addr.toNat then s.blade.portWrite s.mem who addr.toNat value else s.blade)

def execPostedWriteEffect (who : Port) (s : State) : Result := s.afterBlade (s.blade.postedEffect who)

end Sys2Proof.Machine
end

