-- ==== Sys2Proof/Machine/Commands.lean ====
section
/-! DEFINITION. The command engine (chapter 11): the checks of Table 11.2, and the commands that read state, access
registers, and act on contexts, semaphores, keys, checkers and the recorder. -/

namespace Sys2Proof.Machine

/-! ## Requests (Table 11.1) -/

def rqTagged (r : Request) : Bool := r.flags.getLsbD 1
def rqSlot (r : Request) : Nat := bits r.flags.toNat 2 2
def rqUnlock (r : Request) : Bool := r.flags.getLsbD 4

/-- The header and parameters of a request. -/
def rqBody (r : Request) : List Byte :=
  leBytes 4 r.magic.toNat ++ [r.version, r.opcode] ++ leBytes 2 r.flags.toNat ++ leBytes 4 r.sequence.toNat ++
    leBytes 4 r.length.toNat ++ r.params

/-- Every byte of a request. -/
def rqBytes (r : Request) : List Byte := rqBody r ++ r.tag

/-- Where the reply to a request goes, from where (R471), and in which key (R474). -/
def rqReplyTo (b : Blade) (r : Request) : ReplyTo :=
  { transport := r.transport, source := r.source, sourcePort := r.sourcePort, dest := r.dest, destPort := r.destPort,
    opcode := r.opcode, flags := r.flags, sequence := r.sequence, request := rqBytes r, key := (b.key (rqSlot r)).key }

/-- The source of a command, as R481 tells sources apart: a key slot, or none for provisioning. -/
def rqSource (r : Request) : Option (Fin 4) :=
  if rqTagged r then some ⟨rqSlot r % 4, Nat.mod_lt _ (by decide)⟩ else none

/-- The command engine as a writer of registers. -/
def rqWriter (r : Request) : Writer := { port := .command, sub := if rqTagged r then rqSlot r else 0xFF }

/-- The unsigned parameter of `len` bytes at an offset. -/
def rqField (r : Request) (off len : Nat) : Nat := fieldAt r.params off len

/-! ## Transports (R30, R468, R469) -/

/-- A request arrives; the flag says that it reaches the engine: a datagram to an address of the uplink and the engine's UDP
port, or a frame at the service port of the blade that its mux selects (R30, R468, R520). -/
def Blade.arrives (b : Blade) (r : Request) : Bool × Blade :=
  match uplinkOf r.transport with
  | some u =>
    let x := b.frameIn u r.vlan r.fragment
    (x.1 && x.2.owns u r.dest && r.destPort.toNat = bits (x.2.reg rCMD).toNat 0 16, x.2)
  | none => (!b.flt.fenced && !b.eng.usbDiscarding && b.muxSelects 10, b)

/-- The enable bit of CMD_CFG for a transport. -/
def Blade.transportOn (b : Blade) (t : Transport) : Bool :=
  match t with
  | .uplink0 => b.flag (rCMD + 4) 0
  | .uplink1 => b.flag (rCMD + 4) 0
  | .management => b.flag (rCMD + 4) 1
  | .usb => b.flag (rCMD + 4) 2

/-! ## The checks (Table 11.2) -/

def rqCheck1 (r : Request) : Bool :=
  16 ≤ r.size && r.magic = 0x4D434C50 && r.version = 1 && !r.flags.getLsbD 0 && bits r.flags.toNat 5 11 = 0

def rqCheck2 (r : Request) : Bool :=
  r.length.toNat % 4 = 0 && r.length.toNat ≤ 1408 && r.size = 16 + r.length.toNat + 16 * b2n (rqTagged r) &&
    r.params.length = r.length.toNat && r.tag.length = 16 * b2n (rqTagged r)

/-- Check 3 (R474, R475). -/
def Blade.check3 (b : Blade) (r : Request) : Bool :=
  if b.provisioning then !rqTagged r && r.transport = .usb
  else rqTagged r && (b.key (rqSlot r)).present && r.tag = authTag (b.key (rqSlot r)).key (rqBody r)

/-- The floor that a slot's floor is raised to before it accepts a sequence (R612). -/
def raiseFloor (floor s : Word32) : Word32 :=
  if s.toNat < floor.toNat then floor
  else BitVec.ofNat 32 (min (floor.toNat + 65536 * ((s.toNat - floor.toNat) / 65536 + 1)) 0xFFFFFFFF)

/-- A tagged request passes the sequence check (R477, R612). -/
def Blade.acceptSequence (b : Blade) (r : Request) : Blade :=
  let v := b.key (rqSlot r)
  let floor := if b.active then raiseFloor v.floor r.sequence else v.floor
  b.setKeySlot (rqSlot r) { v with last := r.sequence, floor := floor, request := rqBytes r, reply := [] }

/-- A request is still being executed: its reply waits for an operation, a commit, a hand-over or the trail buffer. -/
def Blade.requestRuns (b : Blade) (request : List Byte) : Bool :=
  (b.eng.deferred.map (·.dest) ++ b.eng.heldReplies.map (·.dest) ++ b.eng.cancels.map (·.2) ++
    (b.pair.handingOver.map (·.dest)).toList).any fun d => d.request = request

/-- A request that fails check 4 (R478): the accepted one again, one that is being executed, or a replay. -/
def Blade.replayed (b : Blade) (r : Request) : Blade :=
  let v := b.key (rqSlot r)
  if v.last = r.sequence && v.request = rqBytes r then
    (if v.reply.isEmpty then b else b.sendReply (rqReplyTo b r) v.reply)
  else if b.requestRuns (rqBytes r) then b
  else (b.count (rCMD + 0x3C)).answerReplay (rqReplyTo b r)

/-- Checks 1 to 4: whether the request passes them, and what they leave. -/
def Blade.accept (b : Blade) (r : Request) : Bool × Blade :=
  let x := b.arrives r
  let b := x.2
  if !x.1 then (false, b)
  else if r.transport = .usb && (r.size < 16 || 1440 < r.size) then
    (false, { (if r.size < 16 then b.count (rCMD + 0x34) else b) with eng.usbDiscarding := true })
  else
    let b := b.count (rCMD + 0x30)
    let d := rqReplyTo b r
    if !b.transportOn r.transport || !rqCheck1 r then (false, b.count (rCMD + 0x34))
    else if !rqCheck2 r then (false, b.answerUntagged d stBAD_LENGTH)
    else if !b.check3 r then (false, (b.count (rCMD + 0x38)).answerUntagged d stBAD_AUTH)
    else if !rqTagged r then (true, b)
    else if (b.key (rqSlot r)).last.toNat < r.sequence.toNat then (true, b.acceptSequence r)
    else (false, b.replayed r)

/-! ## Opcodes (Table 11.3) -/

/-- A row of Table 11.3: its code and its marks. -/
structure Opcode where
  code : Nat
  standby : Bool
  keyed : Bool
  deferred : Bool
  commit : Bool

def Opcode.plain (code : Nat) (standby : Bool) : Opcode :=
  { code := code, standby := standby, keyed := false, deferred := false, commit := false }

/-- A command's reply: at once, or at the commit of the frame (R484). -/
def Blade.conclude (b : Blade) (o : Opcode) (d : ReplyTo) (status : Nat) (data : List Byte := []) : Blade :=
  if o.commit then b.answerAtCommit d status data else b.answer d status data

/-- The key arm as a command begins (R481). -/
def Blade.beginCommand (b : Blade) (r : Request) : Blade :=
  let b := if b.csr.armSource = some (rqSource r) then b else b.disarm .command
  if rqUnlock r then b.unlock (rqWriter r) 0x5E11 else b

/-- The codes of Table 11.3. -/
def opcodes : List Nat :=
  [0x01, 0x02, 0x04, 0x05, 0x06, 0x10, 0x11, 0x12, 0x13, 0x14, 0x20, 0x21, 0x22, 0x30, 0x31, 0x32, 0x33, 0x40, 0x41, 0x48,
    0x49, 0x50, 0x51, 0x52, 0x53, 0x58, 0x59, 0x5A, 0x5B, 0x60, 0x68, 0x70, 0x71, 0x72, 0x78]

/-- A request, from its arrival to its execution: `fits` is check 7, `run` what the opcode does. A request of an opcode that
Table 11.3 does not list fails check 5 whichever row brings it; one of another listed opcode is no request of this row, and
changes nothing (DESIGN CHOICE, log 50). -/
def Blade.command (b : Blade) (m : Memory) (o : Opcode) (r : Request) (fits : Bool)
    (run : Blade → ReplyTo → Memory × Blade) : Memory × Blade :=
  let a := b.accept r
  let d := rqReplyTo b r
  let own := r.opcode.toNat = o.code
  if !own && opcodes.contains r.opcode.toNat then (m, b)
  else
  let b := a.2
  if !a.1 then (m, b)
  else if !own then (m, b.answer d stBAD_OPCODE)
  else if !o.standby && !b.active then (m, b.answer d stSTANDBY)
  else if !fits then (m, b.answer d stBAD_LENGTH)
  else
    let b := b.beginCommand r
    if o.keyed && !b.isArmed .command then (m, b.conclude o d stLOCKED)
    else
      let b := if o.keyed then b.disarm .command else b
      if o.deferred && b.deferBusy (BitVec.ofNat 8 o.code) then (m, b.conclude o d stBUSY) else run b d

/-- A command that works on the blade alone. -/
def Blade.bladeCommand (b : Blade) (m : Memory) (o : Opcode) (r : Request) (fits : Bool)
    (run : Blade → ReplyTo → Blade) : Memory × Blade :=
  b.command m o r fits fun b d => (m, run b d)

/-! ## Identity and keys -/

def execPing (r : Request) (s : State) : Result :=
  s.after (s.blade.bladeCommand s.mem (.plain 0x01 true) r true fun b d => b.answer d stOK r.params)

/-- Bytes of a serial number (Table 11.5). -/
def serialBytes (first : Nat) : List Byte := (List.range 16).map fun i => Config.serialByte (first + i)

/-- IDENT's reply data (Table 11.5). -/
def Blade.identData (b : Blade) (m : Memory) : List Byte :=
  let partner := if b.joined then 2 else b2n b.pair.partnerPresent
  leBytes 4 0x8128F001 ++ leBytes 1 (b2n b.bladeB) ++ leBytes 1 b.pair.role.code ++ leBytes 1 partner ++ leBytes 1 0 ++
    leBytes 4 b.frame.toNat ++ leBytes 4 (b.reg (rPWR + 0xC + 4 * b2n b.hw.boot.bootedB)).toNat ++
    leBytes 4 (m.nat (slotBase false + 8) 4) ++ leBytes 4 (m.nat (slotBase true + 8) 4) ++
    leBytes 4 ((b.eng.microcode.map fun v => v.imageId.toNat).getD 0) ++ leBytes 4 0 ++ serialBytes 0 ++ serialBytes 16

def execIdent (r : Request) (s : State) : Result :=
  s.after (s.blade.bladeCommand s.mem (.plain 0x02 true) r (r.length = 0) fun b d => b.answer d stOK (b.identData s.mem))

def execKeyStatus (r : Request) (s : State) : Result :=
  s.after (s.blade.bladeCommand s.mem (.plain 0x04 true) r (r.length = 0) fun b d =>
    b.answer d stOK (leBytes 4 (flagBits ((List.range 4).map fun i => (b.key i).present)) ++
      (List.range 4).flatMap fun i => leBytes 4 (b.key i).last.toNat))

/-- A write of the identity EEPROM begins; its command is answered when it completes. -/
def Blade.startEeprom (b : Blade) (d : ReplyTo) (operand : Nat) (data : List Byte) : Blade :=
  { b.defer d operand data with
    eng.eepromWrites := b.eng.eepromWrites ++ [{ dest := d, operand := operand, data := data }] }

/-- SET_KEY may write a slot (R476). -/
def Blade.keyWriter (b : Blade) (r : Request) (k : Nat) : Bool :=
  let zero := rqField r 4 32 = 0
  let others := (List.range 4).any fun i => i ≠ 0 && (b.key i).present
  (if rqTagged r then rqSlot r = 0 else k = 0) && !(zero && k = 0 && others)

def execSetKey (r : Request) (s : State) : Result :=
  s.after (s.blade.bladeCommand s.mem { Opcode.plain 0x05 false with keyed := true, deferred := true } r (r.length = 36)
    fun b d =>
      let k := rqField r 0 1
      if 3 < k then b.answer d stNO_SUCH
      else if !b.keyWriter r k then b.answer d stDENIED
      else b.startEeprom d k (sliceBytes r.params 4 32))

def execConfigSave (r : Request) (s : State) : Result :=
  s.after (s.blade.bladeCommand s.mem { Opcode.plain 0x06 false with keyed := true, deferred := true } r (r.length = 0)
    fun b d => b.startEeprom d 0 [])

/-- The uplink words that CONFIG_SAVE keeps: those of Table 11.22 that the EEPROM holds. -/
def uplinkWords : List Nat :=
  [0, 1, 2].flatMap fun u => ((List.range 16).map fun i => rUPLINK u + 0x10 + 4 * i)

/-- The channels of a slot that loses its key, and have nothing outstanding, wait for progress from here on (R663). -/
def Blade.keylessChannels (b : Blade) (slot : Nat) : Blade :=
  (mkeys (fun _ (c : Channel) => c.isOpen && c.slot.val = slot && c.sent.isEmpty) b.eng.channels).foldl
    (fun b h => b.setChannel h { b.channel h with progress := b.frame }) b

/-- The oldest write of the EEPROM has completed or failed (R476). Its command is answered in the key of its request, before a
key takes effect; a joined or joining partner is sent the slot. -/
def Blade.eepromDone (b : Blade) (ok : Bool) : Blade :=
  let b := if ok then b else b.raise (srcWide 7 3)
  match b.eng.eepromWrites with
  | [] => b
  | w :: rest =>
    let b := { b with eng.eepromWrites := rest }
    let op := w.dest.opcode
    if !ok then b.finishDeferred op stFAILED
    else
      let b := b.finishDeferred op stOK
      if op = 0x05 then
        let empty := leNat w.data = 0
        let b := b.setKeySlot w.operand
          { KeySlot.init with key := if empty then [] else w.data, floor := (b.key w.operand).floor }
        let b := if empty then b.keylessChannels w.operand else b
        if b.mirrors then b.mirrorKey ⟨w.operand % 4, Nat.mod_lt _ (by decide)⟩ else b
      else { b with eng.savedUplinks := (uplinkWords.map fun a => (a, b.reg a)) }

def execEepromWriteComplete (ok : Bool) (s : State) : Result := s.afterBlade (s.blade.eepromDone ok)

/-- USB_RESYNC: the line has been idle for 10 ms (R469). -/
def execUsbResync (s : State) : Result := s.afterBlade { s.blade with eng.usbDiscarding := false }

/-! ## Register access (R497, R498) -/

/-- The status of an address of n consecutive words. -/
def accessStatus (a n : Nat) : Nat :=
  if a % 4 ≠ 0 then stBAD_ALIGN else if rSYS ≤ a && a + 4 * n ≤ 0x03000000 then stOK else stNO_SUCH

def execReadReg (r : Request) (s : State) : Result :=
  s.after (s.blade.bladeCommand s.mem (.plain 0x10 true) r (r.length = 8) fun b d =>
    let a := rqField r 0 4
    let st := if rqField r 4 1 = 4 then accessStatus a 1 else stBAD_ALIGN
    if st = stOK then
      let v := b.readReg .command a
      v.2.answer d stOK (leBytes 4 v.1.toNat)
    else b.answer d st)

/-- A refused or performed write as a reply's status. -/
def WriteStatus.code : WriteStatus → Nat
  | .done => stOK
  | .notStruck => stNOT_STRUCK
  | .locked => stLOCKED

def execWriteReg (r : Request) (s : State) : Result :=
  s.after (s.blade.bladeCommand s.mem (.plain 0x11 false) r (r.length = 12) fun b d =>
    let a := rqField r 0 4
    let st := if rqField r 4 1 = 4 then accessStatus a 1 else stBAD_ALIGN
    if st = stOK then
      let w := b.writeReg (rqWriter r) a (w32 (rqField r 8 4))
      w.2.answer d w.1.code
    else b.answer d st)

/-- Consecutive words read in turn. -/
def Blade.readWords (b : Blade) (a : Nat) : Nat → List Byte × Blade
  | 0 => ([], b)
  | n + 1 =>
    let v := b.readReg .command a
    let r := v.2.readWords (a + 4) n
    (leBytes 4 v.1.toNat ++ r.1, r.2)

def execReadBlock (r : Request) (s : State) : Result :=
  let n := rqField r 4 2
  s.after (s.blade.bladeCommand s.mem (.plain 0x12 true) r (r.length = 8 && 1 ≤ n && n ≤ 256) fun b d =>
    let a := rqField r 0 4
    if accessStatus a n = stOK then
      let v := b.readWords a n
      v.2.answer d stOK v.1
    else b.answer d (accessStatus a n))

/-- Consecutive words written until one is refused: its status, the words written, and the blade. -/
def Blade.writeWords (b : Blade) (w : Writer) (a done : Nat) : List Word32 → Nat × Nat × Blade
  | [] => (stOK, done, b)
  | v :: r =>
    let x := b.writeReg w a v
    if x.1 = .done then x.2.writeWords w (a + 4) (done + 1) r else (x.1.code, done, x.2)

def execWriteBlock (r : Request) (s : State) : Result :=
  let n := rqField r 4 2
  s.after (s.blade.bladeCommand s.mem (.plain 0x13 false) r (1 ≤ n && n ≤ 256 && r.length = BitVec.ofNat 32 (8 + 4 * n))
    fun b d =>
      let a := rqField r 0 4
      if accessStatus a n = stOK then
        let x := b.writeWords (rqWriter r) a 0 (wordsOf (r.params.drop 8))
        x.2.2.answer d x.1 (leBytes 4 x.2.1)
      else b.answer d (accessStatus a n))

/-- SYNC (R504); the end of the step answers it when nothing of the engine is posted. -/
def execSync (r : Request) (s : State) : Result :=
  s.after (s.blade.bladeCommand s.mem { Opcode.plain 0x14 true with deferred := true } r (r.length = 0) fun b d =>
    b.defer d 0)

/-- SYNC_TIMEOUT (R504). -/
def execSyncTimeout (s : State) : Result := s.afterBlade (s.blade.finishDeferred 0x14 stBUSY)

/-! ## Checkers and the recorder (R531, R543, R548, R551) -/

/-- The modes that Table 12.8 gives a source. -/
def injectModes (s : Nat) : List Nat :=
  let g := s / 32
  let k := s % 32
  if 40 ≤ g ∧ g < 48 then (if k % 2 = 0 then [1, 2, 3] else [3])
  else if g = 6 ∧ k = 0 then [1, 2, 3]
  else
    let checked :=
      if g < 10 then [(0, 0), (0, 1), (1, 2), (1, 3), (2, 2), (2, 3), (3, 0), (3, 1), (3, 2), (4, 0), (4, 1), (4, 2), (4, 3),
        (9, 0), (9, 3)].contains (g, k)
      else if g < 20 then [0, 1, 2, 4].contains (k % 8)
      else if g < 36 then [0, 1].contains (k % 8)
      else [0, 1, 2, 5, 6].contains (k % 16)
    if checked then [1, 3] else [3]

/-- The other source of a SEC-DED checker, corrected for uncorrectable (R544). -/
def checkerPartner (s : Nat) : Option Nat :=
  let g := s / 32
  let k := s % 32
  let pair := fun (i j n : Nat) => if n = i then some (s + (j - i)) else if n = j then some (s - (j - i)) else none
  if g = 1 then pair 2 3 k
  else if g = 4 then (if k % 2 = 0 then pair 0 2 k else pair 1 3 k)
  else if 11 ≤ g ∧ g < 20 then pair 1 2 (k % 8)
  else if 20 ≤ g ∧ g < 36 then pair 0 1 (k % 8)
  else if 36 ≤ g ∧ g < 40 then (if k % 16 < 2 then pair 0 1 (k % 16) else pair 5 6 (k % 16))
  else none

/-- Sets the armed mode of a source and the events it has left. -/
def Blade.setInjection (b : Blade) (s mode count : Nat) : Blade :=
  let off := mode = 0 ∨ count = 0
  b.setSource s { b.source s with
    mode := if off then 0 else BitVec.ofNat 2 mode, remaining := if off then 0 else count }

/-- INJECT of an assigned source in a mode it takes; what its checker had left is replaced (R543, R545). -/
def Blade.armInjection (b : Blade) (s mode count : Nat) : Blade :=
  let b := b.record { RecordFields.plain recINJECT mode count 0 with source := s }
  let b := match checkerPartner s with
    | some o => b.setInjection o 0 0
    | none => b
  b.setInjection s mode count

def execInject (r : Request) (s : State) : Result :=
  s.after (s.blade.bladeCommand s.mem { Opcode.plain 0x40 true with keyed := true } r (r.length = 8) fun b d =>
    let src := rqField r 0 2
    let mode := rqField r 2 1
    if 1536 ≤ src || (b.sourceOf src).1 = .unassigned || !(mode = 0 || (injectModes src).contains mode) then
      b.answer d stNO_SUCH
    else (b.armInjection src mode (rqField r 4 4)).answer d stOK)

def execFaultAck (r : Request) (s : State) : Result :=
  s.after (s.blade.bladeCommand s.mem (.plain 0x41 true) r (r.length = 8) fun b d =>
    let g := rqField r 0 1
    let mask := w32 (rqField r 4 4)
    if 47 < g then b.answer d stNO_SUCH
    else
      let b := b.clearSticky g mask (rqWriter r).code
      b.answer d stOK (leBytes 4 (b.stickyWord g &&& mask).toNat))

def execRecorderRead (r : Request) (s : State) : Result :=
  let n := rqField r 2 2
  s.after (s.blade.bladeCommand s.mem (.plain 0x48 true) r (r.length = 4 && 1 ≤ n && n ≤ 32) fun b d =>
    let i := rqField r 0 2
    let saved := bitOf i 12
    if i / 8192 ≠ 0 || (saved && b.flt.saved.isNone) then b.answer d stNO_SUCH
    else
      let places := (List.range n).map fun k => (i + k) % 4096
      let b := if saved then b else b.checkRing places
      b.answer d stOK (places.flatMap fun p => leBytes 32 (b.ringRecord saved p).toNat))

/-- RECORDER_FREEZE: op 0 releases the ring under the key arm, any other freezes it; the active blade then writes its own
dump (R547 to R549). -/
def Blade.recorderOp (b : Blade) (r : Request) (d : ReplyTo) : Blade :=
  if rqField r 0 1 = 0 then
    if b.isArmed .command then ((b.disarm .command).releaseRing).answer d stOK else b.answer d stLOCKED
  else
    let fresh := !b.flt.frozen
    let b := b.freeze 3
    (if fresh && b.active then b.writeOwnDump else b).answer d stOK

def execRecorderFreeze (r : Request) (s : State) : Result :=
  s.after (s.blade.bladeCommand s.mem (.plain 0x49 true) r (r.length = 4) fun b d => b.recorderOp r d)

def execRecorderRelease (r : Request) (s : State) : Result :=
  s.after (s.blade.bladeCommand s.mem (.plain 0x49 true) r (r.length = 4) fun b d => b.recorderOp r d)

/-! ## Contexts and semaphores -/

def execContextQuery (r : Request) (s : State) : Result :=
  s.after (s.blade.bladeCommand s.mem (.plain 0x5A true) r (r.length = 4) fun b d =>
    let b := b.checkCtx s.mem (rqField r 0 2)
    b.answer d stOK (b.ctx (rqField r 0 2)).bytes)

/-- CONTEXT_CANCEL of a context (R487). -/
def Blade.cancelStatus (b : Blade) (m : Memory) (c : Nat) : Nat × Blade :=
  if c < 256 then (stDENIED, b)
  else if (b.ctx c).state = .free then (stFAILED, b)
  else if (b.ctx c).state = .closed then (stALREADY_COMPLETE, b)
  else (stOK, (b.cancelContext m c).2.zeroTest c)

/-- A CANCEL of a context waits: the trail buffer has no room for the records of what it would cancel (R658). -/
def Blade.cancelHolds (b : Blade) (c : Nat) : Bool :=
  let held := b.ord.flows.flatMap fun e => (e.2.held.filter fun h => !h.cancelled && h.token.context.toNat = c).map (·.token)
  let parked := if (b.ctx c).state = .parked || b.capturing c then (b.image c).records.map (·.token) else []
  let waiting := if b.unparking c then (b.led.parking.map fun p => p.waiting.map Emission.token).getD [] else []
  256 ≤ c && b.trailHolds (held ++ parked ++ waiting)

/-- CONTEXT_CANCEL takes effect and is answered; or waits for the trail buffer, in order. -/
def Blade.cancelCommand (b : Blade) (m : Memory) (c : Nat) (d : ReplyTo) : Blade :=
  if b.cancelHolds c then { b with eng.cancels := b.eng.cancels ++ [(BitVec.ofNat 16 c, d)] }
  else
    let x := (b.checkCtx m c).cancelStatus m c
    x.2.answerAtCommit d x.1

/-- Work that the trail buffer held up goes on, as far as it has room: due entries of the release unit, and CONTEXT_CANCELs in
their order (R658). -/
def Blade.trailTurn (b : Blade) (m : Memory) : Blade :=
  let b := if b.struck fnRelease then b else b.hoistRelease m
  b.eng.cancels.foldl (fun b e => b.cancelCommand m e.1.toNat e.2) { b with eng.cancels := [] }

def execContextCancel (r : Request) (s : State) : Result :=
  s.after (s.blade.bladeCommand s.mem { Opcode.plain 0x5B false with commit := true } r (r.length = 4) fun b d =>
    b.cancelCommand s.mem (rqField r 0 2) d)

/-- POST (R486): the status, the sequence and the blade. -/
def Blade.postToken (b : Blade) (m : Memory) (r : Request) : Nat × Nat × Blade :=
  let c := rqField r 0 2
  let x := b.ctx c
  let node := rqField r 4 4
  if x.state = .free || x.state = .closed || m.nodeCount (b.slotOf c) ≤ node || 3 ≤ rqField r 2 1 then (stNO_SUCH, 0, b)
  else
    let i := if rqField r 8 2 < 4096 then (rqField r 8 2, b) else b.draw 4096
    let b := i.2
    let t := Token.data c (BitVec.ofNat 12 i.1) (BitVec.ofNat 2 (rqField r 2 1)) (BitVec.ofNat 20 node)
      (BitVec.ofNat 64 (rqField r 12 8))
    match x.flow with
    | none => (stOK, 0, b.inject m t)
    | some f =>
      if b.flowFull f.toNat then (stBUSY, 0, b)
      else
        let a := b.allocate f.toNat t
        (stOK, a.1.sequence.toNat, a.2.inject m a.1)

def execPost (r : Request) (s : State) : Result :=
  s.after (s.blade.bladeCommand s.mem { Opcode.plain 0x60 false with commit := true } r (r.length = 20) fun b d =>
    let x := b.postToken s.mem r
    x.2.2.answerAtCommit d x.1 (if x.1 = stOK then leBytes 4 x.2.1 else []))

def execSemForce (r : Request) (s : State) : Result :=
  s.after (s.blade.bladeCommand s.mem { Opcode.plain 0x68 false with keyed := true, commit := true } r (r.length = 4)
    fun b d =>
      let n := rqField r 0 2
      if 1023 < n then b.answerAtCommit d stNO_SUCH
      else if !b.semAllowed 2 n then b.answerAtCommit d stDENIED
      else
        let x := b.semForce n (rqField r 2 2)
        x.2.answerAtCommit d (if x.1 then stOK else stFAILED))

/-! ## Parking -/

/-- PARK of a context (R182); its answer comes when the parking ends. -/
def Blade.parkRequest (b : Blade) (c : Nat) (d : ReplyTo) : Blade :=
  if c < 256 then b.answerAtCommit d stDENIED
  else if (b.ctx c).state ≠ .live || !b.parkFits c then b.answerAtCommit d stFAILED
  else if b.led.parking.isSome then b.answerAtCommit d stBUSY
  else { b.defer d c with led.parkRequests := b.led.parkRequests ++ [(BitVec.ofNat 16 c, .command d)] }

/-- UNPARK of a context (R183). -/
def Blade.unparkRequest (b : Blade) (c : Nat) (d : ReplyTo) : Blade :=
  if c < 256 || (b.ctx c).state ≠ .parked then b.answerAtCommit d stDENIED
  else if b.net.throttling || b.led.parking.isSome then b.answerAtCommit d stBUSY
  else if (b.image c).stored && !b.anyCarrier then b.answerAtCommit d stFAILED
  else { b.defer d c with
    led.parking := some { context := BitVec.ofNat 16 c, cause := .command d, unparking := true, paused := false,
                           waiting := [] } }

def execParkCommand (r : Request) (s : State) : Result :=
  s.after (s.blade.bladeCommand s.mem { Opcode.plain 0x58 false with deferred := true, commit := true } r (r.length = 4)
    fun b d => b.parkRequest (rqField r 0 2) d)

def execUnpark (r : Request) (s : State) : Result :=
  s.after (s.blade.bladeCommand s.mem { Opcode.plain 0x59 false with deferred := true, commit := true } r (r.length = 4)
    fun b d => b.unparkRequest (rqField r 0 2) d)

/-! ## Time (R524) -/

/-- TIME_STATUS's reply data; the state and the uplink are free while no uplink is followed. -/
def Blade.timeData (b : Blade) : List Byte × Blade :=
  let rest := fun (st u : Nat) => leBytes 8 b.eng.ptpTime.toNat ++ leBytes 1 st ++ leBytes 1 u ++ leBytes 2 0 ++
    leBytes 4 b.eng.ptpOffset.toNat ++ leBytes 4 b.frame.toNat
  match b.slaveUplink with
  | some u => (rest (b.ptpState u.val) u.val, b)
  | none =>
    let st := b.draw 5
    let u := st.2.draw 3
    (rest st.1 u.1, u.2)

def execTimeStatus (r : Request) (s : State) : Result :=
  s.after (s.blade.bladeCommand s.mem (.plain 0x78 true) r (r.length = 0) fun b d =>
    let x := b.timeData
    x.2.answer d stOK x.1)

end Sys2Proof.Machine
end

