-- ==== Sys2Proof/Machine/LaneRows.lean ====
section
/-! DEFINITION. The rows of the lane engine: stored microwords, next-address forms, I/O operations and halyard events. A row
of a form or of an I/O operation runs the word that names it and nothing else. -/

namespace Sys2Proof.Machine

def execMicroword (c : ClusterId) (h : HalyardId) (s : State) : Result := s.after (s.blade.microword s.mem c h)

def execNaSeq (c : ClusterId) (h : HalyardId) (f : NextFields) (s : State) : Result :=
  s.after (s.blade.issue s.mem c h (.ofNext 0 f))

def execNaJump (c : ClusterId) (h : HalyardId) (f : NextFields) (s : State) : Result :=
  s.after (s.blade.issue s.mem c h (.ofNext 1 f))

def execNaMway (c : ClusterId) (h : HalyardId) (f : NextFields) (s : State) : Result :=
  s.after (s.blade.issue s.mem c h (.ofNext 2 f))

def execNaCall (c : ClusterId) (h : HalyardId) (f : NextFields) (s : State) : Result :=
  s.after (s.blade.issue s.mem c h (.ofNext 3 f))

def execNaRet (c : ClusterId) (h : HalyardId) (f : NextFields) (s : State) : Result :=
  s.after (s.blade.issue s.mem c h (.ofNext 4 f))

def execNaYield (c : ClusterId) (h : HalyardId) (f : NextFields) (s : State) : Result :=
  s.after (s.blade.issue s.mem c h (.ofNext 5 f))

def execYieldResume (c : ClusterId) (h : HalyardId) (s : State) : Result := s.afterBlade (s.blade.resumeHalyard c h)

def execRxopen (c : ClusterId) (h : HalyardId) (f : IoFields) (s : State) : Result :=
  s.after (s.blade.issue s.mem c h (.ofIo 0x01 f))

def execRxb (c : ClusterId) (h : HalyardId) (f : IoFields) (s : State) : Result :=
  s.after (s.blade.issue s.mem c h (.ofIo 0x02 f))

def execRxw (c : ClusterId) (h : HalyardId) (f : IoFields) (s : State) : Result :=
  s.after (s.blade.issue s.mem c h (.ofIo 0x03 f))

def execRxskip (c : ClusterId) (h : HalyardId) (f : IoFields) (s : State) : Result :=
  s.after (s.blade.issue s.mem c h (.ofIo 0x04 f))

def execRxdone (c : ClusterId) (h : HalyardId) (f : IoFields) (s : State) : Result :=
  s.after (s.blade.issue s.mem c h (.ofIo 0x05 f))

def execQw (c : ClusterId) (h : HalyardId) (f : IoFields) (s : State) : Result :=
  s.after (s.blade.issue s.mem c h (.ofIo 0x06 f))

def execIoQseal (c : ClusterId) (h : HalyardId) (f : IoFields) (s : State) : Result :=
  s.after (s.blade.issue s.mem c h (.ofIo 0x07 f))

def execIoQabort (c : ClusterId) (h : HalyardId) (f : IoFields) (s : State) : Result :=
  s.after (s.blade.issue s.mem c h (.ofIo 0x08 f))

def execIoQhead (c : ClusterId) (h : HalyardId) (f : IoFields) (s : State) : Result :=
  s.after (s.blade.issue s.mem c h (.ofIo 0x09 f))

def execIoQdata (c : ClusterId) (h : HalyardId) (f : IoFields) (s : State) : Result :=
  s.after (s.blade.issue s.mem c h (.ofIo 0x0A f))

def execIoQdrop (c : ClusterId) (h : HalyardId) (f : IoFields) (s : State) : Result :=
  s.after (s.blade.issue s.mem c h (.ofIo 0x0B f))

def execTxopen (c : ClusterId) (h : HalyardId) (f : IoFields) (s : State) : Result :=
  s.after (s.blade.issue s.mem c h (.ofIo 0x0C f))

def execTxb (c : ClusterId) (h : HalyardId) (f : IoFields) (s : State) : Result :=
  s.after (s.blade.issue s.mem c h (.ofIo 0x0D f))

def execTxw (c : ClusterId) (h : HalyardId) (f : IoFields) (s : State) : Result :=
  s.after (s.blade.issue s.mem c h (.ofIo 0x0E f))

def execTxsend (c : ClusterId) (h : HalyardId) (f : IoFields) (s : State) : Result :=
  s.after (s.blade.issue s.mem c h (.ofIo 0x0F f))

def execTxcancel (c : ClusterId) (h : HalyardId) (f : IoFields) (s : State) : Result :=
  s.after (s.blade.issue s.mem c h (.ofIo 0x10 f))

def execTxpend (c : ClusterId) (h : HalyardId) (f : IoFields) (s : State) : Result :=
  s.after (s.blade.issue s.mem c h (.ofIo 0x11 f))

def execEvclr (c : ClusterId) (h : HalyardId) (f : IoFields) (s : State) : Result :=
  s.after (s.blade.issue s.mem c h (.ofIo 0x12 f))

def execTimer (c : ClusterId) (h : HalyardId) (f : IoFields) (s : State) : Result :=
  s.after (s.blade.issue s.mem c h (.ofIo 0x13 f))

def execMrd (c : ClusterId) (h : HalyardId) (f : IoFields) (s : State) : Result :=
  s.after (s.blade.issue s.mem c h (.ofIo 0x14 f))

def execMwr (c : ClusterId) (h : HalyardId) (f : IoFields) (s : State) : Result :=
  s.after (s.blade.issue s.mem c h (.ofIo 0x15 f))

def execCrd (c : ClusterId) (h : HalyardId) (f : IoFields) (s : State) : Result :=
  s.after (s.blade.issue s.mem c h (.ofIo 0x16 f))

def execCwr (c : ClusterId) (h : HalyardId) (f : IoFields) (s : State) : Result :=
  s.after (s.blade.issue s.mem c h (.ofIo 0x17 f))

def execSemacq (c : ClusterId) (h : HalyardId) (f : IoFields) (s : State) : Result :=
  s.after (s.blade.issue s.mem c h (.ofIo 0x18 f))

def execSemrel (c : ClusterId) (h : HalyardId) (f : IoFields) (s : State) : Result :=
  s.after (s.blade.issue s.mem c h (.ofIo 0x19 f))

def execTimerEvent (c : ClusterId) (h : HalyardId) (s : State) : Result :=
  s.afterBlade (s.blade.timerExpires (laneNo c h))

end Sys2Proof.Machine
end

