-- ==== Sys2Proof/Machine/Pennants.lean ====
section
/-! DEFINITION. What a lane port receives and the events of its link (chapter 10, R426 to R464). -/

namespace Sys2Proof.Machine

/-! ## Headers (Tables 10.2 and 10.3) -/

/-- The bytes that the CRC covers. -/
def pennantBody (type : Nat) (p : Pennant) : List Byte :=
  leBytes 1 (type + 16 * b2n p.ackv + 32 * b2n p.retx + 64 * b2n p.uspace + 128 * b2n p.receipt) ++
    leBytes 1 (p.endpoint.toNat + 32 * p.zeroHi.toNat) ++ leBytes 2 p.sequence.toNat ++
    leBytes 2 (p.length.toNat + 2048 * p.zeroLen.toNat) ++ leBytes 2 p.ack.toNat ++ p.payload

/-- The lengths a type takes. -/
def lengthValid (type n : Nat) : Bool :=
  match type with
  | 1 => n ≤ 1024
  | 2 => n ≤ 64
  | 3 => n = 0
  | 4 => n = 4
  | 5 => 4 ≤ n && n ≤ 132 && n % 4 = 0
  | 6 => n = 268
  | 7 => 4 ≤ n && n ≤ 1024
  | _ => n = 4

/-- The endpoints a type takes. -/
def endpointValid (type : Nat) (p : Pennant) : Bool :=
  if type = 1 || type = 2 || (type = 3 && p.receipt) then p.endpoint ≠ 0 else p.endpoint = 0

/-- A header of a defined type without a header error (R434). -/
def headerValid (type : Nat) (p : Pennant) : Bool :=
  p.zeroHi = 0 && p.zeroLen = 0 && (p.ackv || p.ack = 0) && (!p.uspace || type = 3 || type = 4) &&
    (!p.receipt || (type = 3 && p.uspace)) && lengthValid type p.length.toNat && p.length.toNat = p.payload.length &&
    endpointValid type p && (type < 5 || type = 7 || p.sequence = 0)

/-! ## Received faults (Table 10.8) -/

/-- The time from an URGENT's ED to its answer's SD, in nanoseconds: a free value within Table 10.5 (Table 10.20). -/
def Blade.noteUack (b : Blade) (l : Nat) : Blade :=
  let d := b.draw 1351
  let a := rPORT l + 0x18
  d.2.setReg a (w32 (max (d.2.reg a).toNat (450 + d.1)))

/-- A pennant with a code-group error, a bad CRC or an inner SD: it counts as an error, and is answered while the link
carries DATA (R443, R460, R464). -/
def Blade.badPennant (b : Blade) (l type : Nat) (p : Pennant) : Blade :=
  let b := (b.portCount l (if p.codeGroupError then cgERR else crcERR)).linkError l
  if !(b.port l).full then b
  else if type = 2 && p.length.toNat ≤ 64 && p.length.toNat = p.payload.length then (b.nakUrgent l 1).noteUack l
  else b.nakData l 1

/-- A header error. -/
def Blade.badHeader (b : Blade) (l type : Nat) : Blade :=
  if !(b.port l).full then b
  else if type = 2 then (b.nakUrgent l 6).noteUack l else b.nakData l 6

/-- The port's receiver is on: errors count and FILLs are taken (Table 10.9). -/
def LanePort.receiving (p : LanePort) : Bool := p.hoisting || p.state.toNat = linkTRAIN

/-- The blade's receiver of the lane is on, and its port card's mux selects the blade (R21). -/
def Blade.hears (b : Blade) (l : Nat) : Bool := (b.port l).receiving && b.onLane l

/-! ## Acknowledgements from the pod (R450, R451) -/

/-- Downstream pennants up to a sequence are acknowledged, where it names a sent one. -/
def Blade.podAck (b : Blade) (l : Nat) (s : BitVec 16) : Blade :=
  let p := b.port l
  if p.tx.any fun t => t.sent && t.sequence = s then
    let done := fun t : TxPennant => t.sent && (s - t.sequence).toNat < 32768
    let q := (p.tx.filter done).foldl (fun q t =>
      let k := q.credit t.endpoint.toNat
      q.setCredit t.endpoint.toNat { k with acked := k.acked + BitVec.ofNat 16 (blocksOf t.payload) }) p
    b.setPort l { q with tx := p.tx.filter (fun t => !done t), txAcked := s, lastProgress := b.frame }
  else b

/-- Sent pennants from a sequence on are due again. -/
def Blade.resendFrom (b : Blade) (l : Nat) (s : BitVec 16) : Blade :=
  b.modPort l fun p => { p with tx := p.tx.map fun t =>
    if t.sent && (t.sequence - s).toNat < 32768 then { t with resend := true } else t }

/-- The common part of reception: the CRC, the header, what a valid pennant's ack field says; then its type's own. -/
def Blade.receivePennant (b : Blade) (l type : Nat) (p : Pennant) (own : Blade → Blade) : Blade :=
  if !b.hears l then b
  else
    let hurt := b.armed (srcPort l 0) 1
    let b := if hurt then b.useInjection (srcPort l 0) else b
    if p.codeGroupError || p.innerStart || hurt || p.crc ≠ crc32 (pennantBody type p) then b.badPennant l type p
    else if !headerValid type p then b.badHeader l type
    else
      let b := b.modPort l fun q => { q with lastValid := b.frame }
      let b := if p.ackv && (b.port l).full then b.podAck l p.ack else b
      own b

/-! ## DATA, MGMT and URGENT (R440 to R443, R448) -/

/-- An accepted pennant goes to the partner as an INBOUND block (Table 13.6). -/
def Blade.sendInbound (b : Blade) (i : InboundItem) : Blade := if b.mirrors && b.active then b.sendOver (.inbound i) else b

/-- A pennant as it is stored; an armed injection damages it (Table 12.8). -/
def Blade.storedPennant (b : Blade) (l : Nat) (urgent : Bool) (p : Pennant) : RxPennant × Blade :=
  let weak := b.armed (srcPktCorr l) 1
  let lost := b.armed (srcPktUncorr l) 1
  let b := if weak then b.useInjection (srcPktCorr l) else if lost then b.useInjection (srcPktUncorr l) else b
  ({ urgent := urgent, endpoint := p.endpoint, sequence := p.sequence, payload := p.payload, weak := b2n weak,
     lost := !weak && lost }, b)

/-- A lane's number. -/
def laneOf (l : Nat) : LaneId := ⟨l % 128, Nat.mod_lt _ (by decide)⟩

/-- A valid DATA or MGMT pennant, which its type tells. -/
def Blade.takeData (b : Blade) (l : Nat) (type : BitVec 4) (p : Pennant) : Blade :=
  let q := b.port l
  let e := p.endpoint.toNat
  let cost := blocksOf p.payload
  if !q.full then b
  else if p.sequence = q.rxExpected then
    if cost ≤ (q.grant e).outstanding then
      let r := b.storedPennant l false p
      let g := q.grant e
      (r.2.setPort l { q.setGrant e { g with consumed := g.consumed + BitVec.ofNat 16 cost } with
        rx := q.rx ++ [r.1], rxExpected := q.rxExpected + 1 }).sendInbound (.pennant (laneOf l) type p)
    else (b.portCount l creditVIOL).nakData l 3
  else if (q.rxExpected - p.sequence).toNat < 32768 then
    (b.portCount l dupDROPPED).modPort l fun q => { q with ackAlone := true, ackDue := some (q.ackDue.getD b.now) }
  else b.nakData l 2

/-- A valid URGENT pennant. -/
def Blade.takeUrgent (b : Blade) (l : Nat) (p : Pennant) : Blade :=
  let q := b.port l
  if q.state.toNat = linkSYNC then b.nakUrgent l 4
  else if !q.full then b
  else if p.sequence = q.uExpected then
    if b.urgentInUse l < b.urgentSlots l then
      let r := b.storedPennant l true p
      ((r.2.setPort l { q with rx := q.rx ++ [r.1], uExpected := q.uExpected + 1,
                               urgent := { q.urgent with consumed := q.urgent.consumed + 1 } }).sendInbound
        (.pennant (laneOf l) 2 p) |>.sendReceipt l p.endpoint.toNat p.sequence.toNat).noteUack l
    else ((b.portCount l urgentREFUSED).nakUrgent l 4).noteUack l
  else if (q.uExpected - p.sequence).toNat < 32768 then
    (b.sendReceipt l p.endpoint.toNat p.sequence.toNat).noteUack l
  else (b.nakUrgent l 2).noteUack l

/-! ## ACK, NAK, CREDIT, AUDIT and FILL -/

/-- A pod's ACK of the DATA stream; the hub sends no URGENT, so one of the URGENT space says nothing. -/
def Blade.takeAck (b : Blade) (l : Nat) (p : Pennant) : Blade :=
  if (b.port l).full && !p.uspace then b.podAck l p.sequence else b

/-- A pod's NAK (R450, R451). -/
def Blade.takeNak (b : Blade) (l : Nat) (p : Pennant) : Blade :=
  let b := b.portCount l nakRCVD
  if !(b.port l).full then b
  else
    if !p.uspace && (b.port l).tx.any fun t => t.sent && t.sequence = p.sequence then b.resendFrom l p.sequence else b

/-- SYNC ends when two consecutive hoists have been echoed and a CREDIT has come (Table 10.11). -/
def Blade.syncDone (b : Blade) (l : Nat) : Blade :=
  let p := b.port l
  if p.state.toNat = linkSYNC && p.echoed && p.podCredit then b.setLink l linkUP else b

/-- The entries of a CREDIT (Table 10.6), those marked urgent left out. -/
def creditEntries : List Byte → List (Nat × BitVec 16)
  | a :: _ :: c :: d :: r =>
    let rest := creditEntries r
    if bitOf a.toNat 5 then rest else (bits a.toNat 0 5, BitVec.ofNat 16 (leNat [c, d])) :: rest
  | _ => []

/-- A pod's CREDIT (R454). -/
def Blade.takeCredit (b : Blade) (l : Nat) (p : Pennant) : Blade :=
  if !(b.port l).hoisting then b
  else
    let es := creditEntries p.payload
    let b := b.modPort l fun q =>
      es.foldl (fun q e => q.setCredit e.1 { q.credit e.1 with limit := e.2 }) { q with podCredit := true }
    (b.latch l evCREDIT).syncDone l

/-- A mismatch of an AUDIT (R457). -/
def Blade.auditMismatch (b : Blade) (l : Nat) : Blade :=
  let p := b.port l
  if p.auditPending then
    let b := b.setPort l { p with auditPending := false, audits := [] }
    ((b.portCount l Machine.auditMISMATCH).raisePort l 1).setLink l linkFAULT
  else
    (b.setPort l { p with auditPending := true, auditAgain := true, ackAlone := true, ackDue := some (p.ackDue.getD b.now),
                          uackDue := some (p.uackDue.getD b.now) }).dueCredit l (List.range 33)

/-- A pod's reply to an AUDIT (R456, R457). -/
def Blade.takeAudit (b : Blade) (l : Nat) (p : Pennant) : Blade :=
  let q := b.port l
  if !q.full then b
  else
    match q.audits.find? (fun a => a.payload.take 2 = p.payload.take 2) with
    | none => b
    | some a =>
      let q := { q with audits := dropFirst (· = a) q.audits }
      if a.payload = p.payload then b.setPort l { q with auditPending := false } else (b.setPort l q).auditMismatch l

/-- A pod's FILL (Tables 10.4 and 10.11). -/
def Blade.takeFill (b : Blade) (l : Nat) (p : Pennant) : Blade :=
  let f := BitVec.ofNat 16 (fieldAt p.payload 0 2)
  let b := b.modPort l fun q => { q with podFrame := f, podState := BitVec.ofNat 3 (fieldAt p.payload 2 1) }
  let q := b.port l
  if q.state.toNat = linkTRAIN then
    if q.lock && q.lockSince + 1000 ≤ b.now then
      let b := b.setPort l { q with fills := q.fills + 1 }
      if 2 ≤ q.fills + 1 then b.setLink l linkSYNC else b
    else b
  else if q.state.toNat = linkSYNC then
    let since := (f - BitVec.ofNat 16 q.syncFrame.toNat).toNat
    if 1 ≤ since ∧ since ≤ (b.frame - q.syncFrame).toNat then
      (b.setPort l { q with lastEcho := some f, echoed := q.echoed || q.lastEcho = some (f - 1) }).syncDone l
    else b
  else b

def execDataPennant (l : LaneId) (p : Pennant) (s : State) : Result :=
  s.afterBlade (s.blade.receivePennant l.val 1 p fun b => b.takeData l.val 1 p)

def execMgmtPennant (l : LaneId) (p : Pennant) (s : State) : Result :=
  s.afterBlade (s.blade.receivePennant l.val 7 p fun b => b.takeData l.val 7 p)

def execUrgentPennant (l : LaneId) (p : Pennant) (s : State) : Result :=
  s.afterBlade (s.blade.receivePennant l.val 2 p fun b => b.takeUrgent l.val p)

def execAckPennant (l : LaneId) (p : Pennant) (s : State) : Result :=
  s.afterBlade (s.blade.receivePennant l.val 3 p fun b => b.takeAck l.val p)

def execNakPennant (l : LaneId) (p : Pennant) (s : State) : Result :=
  s.afterBlade (s.blade.receivePennant l.val 4 p fun b => b.takeNak l.val p)

def execCreditPennant (l : LaneId) (p : Pennant) (s : State) : Result :=
  s.afterBlade (s.blade.receivePennant l.val 5 p fun b => b.takeCredit l.val p)

def execAuditReply (l : LaneId) (p : Pennant) (s : State) : Result :=
  s.afterBlade (s.blade.receivePennant l.val 6 p fun b => b.takeAudit l.val p)

def execFillPennant (l : LaneId) (p : Pennant) (s : State) : Result :=
  s.afterBlade (s.blade.receivePennant l.val 8 p fun b => b.takeFill l.val p)

/-- PENNANT_ABORT: the pennant is discarded, and nothing counts (Table 10.8). -/
def execPennantAbort (_l : LaneId) (s : State) : Result := s.afterBlade s.blade

/-- A pennant of an undefined type (Table 10.8); one of a defined type is no such event. -/
def Blade.takeUndefined (b : Blade) (l : Nat) (type : BitVec 4) (p : Pennant) : Blade :=
  if !b.hears l || (1 ≤ type.toNat && type.toNat ≤ 8) then b
  else if p.codeGroupError || p.innerStart || p.crc ≠ crc32 (pennantBody type.toNat p) then b.badPennant l type.toNat p
  else
    let b := b.portCount l badTYPE
    if (b.port l).full then b.nakData l 5 else b

def execUndefinedPennant (l : LaneId) (type : BitVec 4) (p : Pennant) (s : State) : Result :=
  s.afterBlade (s.blade.takeUndefined l.val type p)

/-- A code-group error outside a pennant (R426, R460, Table 10.8). -/
def execCodeGroupError (l : LaneId) (s : State) : Result :=
  s.afterBlade (if s.blade.hears l.val then (s.blade.portCount l.val cgERR).linkError l.val else s.blade)

/-! ## What the port sends, and its link's events -/

def execPennantBoundary (l : LaneId) (s : State) : Result := s.afterBlade (s.blade.pennantBoundary l.val)

/-- DOWNSTREAM_RETRANSMIT (R450): the oldest unacknowledged pennant has waited retx_frames whole frames without progress. -/
def Blade.retransmitDue (b : Blade) (l : Nat) : Blade :=
  let p := b.port l
  match p.tx.find? (·.sent) with
  | some t =>
    let waited := min (b.frame - t.sentFrame).toNat (b.frame - p.lastProgress).toNat
    if p.full && b.retxFrames l < waited then b.resendFrom l t.sequence else b
  | none => b

def execDownstreamRetransmit (l : LaneId) (s : State) : Result := s.afterBlade (s.blade.retransmitDue l.val)

/-- AUDIT: the one that is due is sent (R456), where the card hears this blade (R21). -/
def execAudit (l : LaneId) (s : State) : Result :=
  let p := s.blade.port l.val
  s.afterBlade (if p.full && p.auditDue.isSome && s.blade.onLane l.val then s.blade.sendAudit l.val else s.blade)

/-- AUDIT_TIMEOUT (R456, R457): a reply is missing after 4 frames. -/
def Blade.auditTimeout (b : Blade) (l : Nat) : Blade :=
  let p := b.port l
  match p.audits.find? (fun a => 4 ≤ (b.frame - a.frame).toNat) with
  | some a => if p.full then (b.setPort l { p with audits := dropFirst (· = a) p.audits }).auditMismatch l else b
  | none => b

def execAuditTimeout (l : LaneId) (s : State) : Result := s.afterBlade (s.blade.auditTimeout l.val)

def execTrainFill (l : LaneId) (s : State) : Result :=
  s.afterBlade (if (s.blade.port l.val).state.toNat = linkTRAIN && s.blade.onLane l.val then s.blade.sendFill l.val else s.blade)

def execSignalEnergy (l : LaneId) (s : State) : Result :=
  s.afterBlade ((s.blade.modPort l.val fun p => { p with energy := true }).enableLink l.val)

def execSignalLoss (l : LaneId) (s : State) : Result :=
  s.afterBlade ((s.blade.modPort l.val fun p => { p with energy := false, lock := false }).setLink l.val linkDOWN)

/-- CODE_GROUP_LOCK: the receiver gains lock (R462). -/
def execCodeGroupLock (l : LaneId) (s : State) : Result :=
  s.afterBlade (s.blade.modPort l.val fun p =>
    if p.energy && !p.lock then { p with lock := true, lockSince := s.blade.now, fills := 0 } else p)

/-- LOCK_LOST: code-group lock has been lost for 100 µs (Table 10.11). -/
def execLockLost (l : LaneId) (s : State) : Result :=
  let b := s.blade.modPort l.val fun p => { p with lock := false, fills := 0 }
  s.afterBlade (if (b.port l.val).hoisting then b.setLink l.val linkFAULT else b)

/-- PENNANT_SILENCE: no valid pennant for 8 frames (Table 10.11). -/
def execPennantSilence (l : LaneId) (s : State) : Result :=
  let b := s.blade
  let p := b.port l.val
  s.afterBlade (if p.hoisting && 8 ≤ (b.frame - p.lastValid).toNat then b.setLink l.val linkFAULT else b)

def execFaultRetrain (l : LaneId) (s : State) : Result :=
  let b := s.blade
  s.afterBlade (if (b.port l.val).state.toNat = linkFAULT then b.setLink l.val linkTRAIN else b)

/-- ERROR_WINDOW: a window of 64 frames ends (R460, Table 10.11). -/
def Blade.endWindow (b : Blade) (l : Nat) : Blade :=
  let p := b.port l
  if b.frame.toNat % 64 = 0 && p.windowFrame ≠ b.frame then
    let good := if p.windowErrors ≤ b.degradeThr l then p.goodWindows + 1 else 0
    let q := { p with windowErrors := 0, windowFrame := b.frame }
    if p.state.toNat = linkDEGRADED then
      if 4 ≤ good then (b.setPort l { q with goodWindows := 0 }).setLink l linkUP
      else b.setPort l { q with goodWindows := good }
    else b.setPort l q
  else b

def execErrorWindow (l : LaneId) (s : State) : Result := s.afterBlade (s.blade.endWindow l.val)

end Sys2Proof.Machine
end

