-- ==== Sys2Proof/Machine/Channels.lean ====
section
/-! DEFINITION. Host channels (R506 to R517, R663), the cell grants that producers wait for (R374), and the uplinks' own
traffic (R519 to R523). -/

namespace Sys2Proof.Machine

def chanIn (h : Nat) : Nat := 8256 + h
def chanOut (h : Nat) : Nat := 8288 + h

def kindJOURNAL : Nat := 1
def kindTUNNEL : Nat := 2
def kindNOTICE : Nat := 3

def Blade.modChannel (b : Blade) (h : Nat) (f : Channel → Channel) : Blade := b.setChannel h (f (b.channel h))

/-- The uplink that carries a channel (Table 11.9). -/
def Blade.channelUplink (b : Blade) (c : Channel) : Nat := if c.via then 2 else b.serviceUplink

/-- The hub may send on a channel: it is open on the active blade, its slot holds a key (R663) and its uplink has link. -/
def Blade.channelReady (b : Blade) (h : Nat) : Bool :=
  let c := b.channel h
  c.isOpen && b.active && (b.key c.slot.val).present && b.uplinkOn (b.channelUplink c) &&
    b.flag (rUPLINK (b.channelUplink c) + 4) 0

/-! ## Datagrams (Table 11.7) -/

/-- A datagram's 20 header bytes and payload. -/
def datagramBytes (type h flags : Nat) (sequence ack : Word32) (payload : List Byte) : List Byte :=
  leBytes 4 0x48434C50 ++ leBytes 1 1 ++ leBytes 1 type ++ leBytes 1 h ++ leBytes 1 flags ++ leBytes 4 sequence.toNat ++
    leBytes 4 ack.toNat ++ leBytes 2 payload.length ++ leBytes 2 0 ++ payload

/-- Sends a datagram of a channel, which carries the released acknowledgement (R511). -/
def Blade.sendDatagram (b : Blade) (h type flags : Nat) (sequence : Word32) (payload : List Byte) : Blade :=
  let c := b.channel h
  let body := datagramBytes type h (flags + 4 * b2n c.rxAcked.isSome) sequence (c.rxAcked.getD 0) payload
  (b.setChannel h { c with ackDue := false, duplicateAck := false }).uplinkSend (b.channelUplink c)
    (.segment ⟨h % 32, Nat.mod_lt _ (by decide)⟩ c.peer (BitVec.ofNat 16 (bits (b.reg rCMD).toNat 16 16)) c.peerPort (body ++ authTag (b.key c.slot.val).key body))

/-- A received datagram's bytes under the tag. -/
def datagramBody (d : Datagram) : List Byte :=
  leBytes 4 d.magic.toNat ++ [d.version, d.type, d.channel, d.flags] ++ leBytes 4 d.sequence.toNat ++
    leBytes 4 d.ack.toNat ++ leBytes 2 d.length.toNat ++ leBytes 2 d.zero.toNat ++ d.payload

/-- What R507 and R663 require of a datagram. -/
def Blade.datagramGood (b : Blade) (d : Datagram) : Bool :=
  let c := b.channel d.channel.toNat
  d.magic = 0x48434C50 && d.version = 1 && (d.type = 1 || d.type = 2) && d.channel.toNat < 32 && c.isOpen && bits d.flags.toNat 4 4 = 0 && d.zero = 0 &&
    d.payload.length = d.length.toNat && d.length.toNat ≤ (if d.type = 1 then 1024 else 0) &&
    (d.type = 1 || d.sequence = 0) && d.source = c.peer && d.sourcePort = c.peerPort && (b.key c.slot.val).present &&
    d.tag = authTag (b.key c.slot.val).key (datagramBody d)

/-! ## Outbound packets (R369, R378, R512) -/

/-- The bytes of a packet. -/
def Packet.bytes (p : Packet) : List Byte := (bytesOf (p.reached.map (·.value))).take p.length

/-- The bytes of a channel's packet or, on a JOURNAL channel, of a staged record. -/
def Blade.channelBytes (b : Blade) (h i : Nat) : List Byte :=
  if (b.channel h).kind.toNat = kindJOURNAL then
    ((b.hw.journal.find? (·.id = i)).map (·.bytes)).getD []
  else (b.packet i).bytes

/-- Segments of a packet of n bytes (R508). -/
def segmentCount (n : Nat) : Nat := max 1 ((n + 1023) / 1024)

/-- The oldest staged record that a JOURNAL channel has not begun to send. -/
def Blade.nextJournal (b : Blade) (c : Channel) : Option Nat :=
  (b.hw.journal.find? fun r => !r.acknowledged && c.sent.all fun x => x.first < r.id).map (·.id)

/-- A channel's next packet and segment to send, if it has one. -/
def Blade.nextSegment (b : Blade) (h : Nat) : Option (Nat × Nat) × Blade :=
  let c := b.channel h
  match c.sending with
  | some x => (some x, b)
  | none =>
    if c.kind.toNat = kindJOURNAL then ((b.nextJournal c).map fun i => (i, 0), b)
    else
      let t := b.takePacket (chanOut h)
      (t.1.map fun i => (i, 0), t.2)

/-- Sends one segment of a packet. -/
def Blade.sendPart (b : Blade) (h i k : Nat) (sequence : Word32) (again : Bool) : Blade :=
  let bytes := b.channelBytes h i
  let last := k + 1 = segmentCount bytes.length
  b.sendDatagram h 1 (b2n (k = 0) + 2 * b2n last + 8 * b2n again) sequence ((bytes.drop (1024 * k)).take 1024)

/-- Sends the oldest segment that is to be sent again (R513, R514). -/
def Blade.resendOne (b : Blade) (h : Nat) : Blade :=
  let c := b.channel h
  match c.resend with
  | [] => b
  | x :: rest =>
    (b.setChannel h { c with resend := rest, retx := satInc c.retx }).sendPart h x.first x.index x.sequence true

/-- Sends a new segment within the window (R512). -/
def Blade.sendNew (b : Blade) (h : Nat) : Blade :=
  if 64 ≤ (b.channel h).sent.length then b
  else
    let n := b.nextSegment h
    let b := n.2
    match n.1 with
    | none => b
    | some (i, k) =>
      let c := b.channel h
      let last := k + 1 = segmentCount (b.channelBytes h i).length
      let x : SentSegment := { sequence := c.txNext, first := i, index := k, last := last }
      let c := { c with sent := c.sent ++ [x], sending := if last then none else some (i, k + 1), txNext := c.txNext + 1,
                        base := if c.sent.isEmpty then b.frame else c.base,
                        progress := if c.sent.isEmpty then b.frame else c.progress }
      (b.setChannel h c).sendPart h i k x.sequence false

/-- CHANNEL_SEGMENT_SEND: one segment. -/
def Blade.channelSend (b : Blade) (h : Nat) : Blade :=
  if !b.channelReady h then b else if (b.channel h).resend.isEmpty then b.sendNew h else b.resendOne h

/-- CHANNEL_RETRANSMIT (R513): every unacknowledged segment, the oldest first. -/
def Blade.channelRetransmit (b : Blade) (h : Nat) : Blade :=
  let c := b.channel h
  if !b.channelReady h || c.sent.isEmpty || (b.frame - c.base).toNat < 4 * c.retxMs then b
  else times c.sent.length (fun b => b.resendOne h) (b.setChannel h { c with resend := c.sent, base := b.frame })

/-- CHANNEL_STALLED (R513): 2 s without progress of what is outstanding, or of a channel whose slot holds no key (R663). -/
def Blade.channelStall (b : Blade) (h : Nat) : Blade :=
  let c := b.channel h
  if !c.isOpen || c.stalled || (c.sent.isEmpty && (b.key c.slot.val).present) || (b.frame - c.progress).toNat < 8000 then b
  else (b.setChannel h { c with stalled := true }).notify 12 (leBytes 1 h ++ leBytes 1 2)

/-- CHANNEL_ACK_DUE (R511). -/
def Blade.channelAck (b : Blade) (h : Nat) : Blade :=
  let c := b.channel h
  if b.channelReady h && c.rxAcked.isSome && (c.ackDue || c.duplicateAck) then b.sendDatagram h 2 0 0 [] else b

/-! ## Journal staging (R585) -/

/-- A JOURNAL channel is open. -/
def Blade.journalOpen (b : Blade) : Bool := b.eng.channels.any fun e => e.2.isOpen && e.2.kind.toNat = kindJOURNAL

/-- Records leave staging once they are written and no open JOURNAL channel still has to send them. -/
def Blade.pruneJournal (b : Blade) : Blade :=
  let wanted := b.journalOpen
  { b with hw.journal := b.hw.journal.filter fun r => !(r.written && (r.acknowledged || !wanted)) }

/-! ## Acknowledgements received (R512, R513) -/

/-- A packet that the peer has acknowledged to its last segment. -/
def Blade.segmentDone (b : Blade) (h : Nat) (x : SentSegment) : Blade :=
  if !x.last then b
  else if (b.channel h).kind.toNat = kindJOURNAL then
    { b with hw.journal := b.hw.journal.map fun r => if r.id = x.first then { r with acknowledged := true } else r }
  else b.freePacket x.first

/-- The peer's cumulative acknowledgement. -/
def Blade.takeChannelAck (b : Blade) (h : Nat) (a : Word32) : Blade :=
  let c := b.channel h
  if c.sent.any (·.sequence = a) then
    let n := (c.sent.takeWhile (·.sequence ≠ a)).length + 1
    let gone := c.sent.take n
    let b := b.setChannel h { c with
      sent := c.sent.drop n, txAcked := some a, stalled := false, base := b.frame, progress := b.frame,
      resend := c.resend.filter fun x => !gone.contains x }
    (gone.foldl (fun b x => b.segmentDone h x) b).pruneJournal
  else b

/-! ## Inbound segments (R277, R509, R510) -/

/-- The engine stores nothing further for a channel: a segment of it waits, or a notice of its packet is held. -/
def Blade.channelHeld (b : Blade) (h : Nat) : Bool :=
  let c := b.channel h
  !c.waitingWords.isEmpty || c.waitingSeal.isSome || b.net.port44.any fun i => i.notice.any fun n => n.1.toNat = chanIn h

/-- Segments stored beyond the released acknowledgement. -/
def Channel.beyond (c : Channel) : Nat :=
  match c.rxAcked with
  | some a => (c.rxExpected - a - 1).toNat
  | none => c.rxExpected.toNat

/-- A segment may be acknowledged, with all before it, at the commit of the present frame. -/
def Blade.noteAckable (b : Blade) (h : Nat) (s : Word32) : Blade :=
  b.modChannel h fun c => { c with ackables := c.ackables ++ [(s, b.frame)] }

/-- Appends a channel's waiting words as far as cells are granted, then seals. -/
def Blade.storeWaiting (h : Nat) : Nat → Blade → Blade
  | 0, b => b
  | n + 1, b =>
    let c := b.channel h
    match c.waitingWords with
    | w :: ws =>
      match b.append (.requester .command) (chanIn h) w.value w.bad with
      | some b => Blade.storeWaiting h n (b.modChannel h fun c => { c with waitingWords := ws })
      | none => b
    | [] =>
      match c.waitingSeal with
      | some pad =>
        match b.sealPacket (.requester .command) (chanIn h) (w32 pad) with
        | some b =>
          ({ (b.modChannel h fun c => { c with waitingSeal := none }) with net.progressed := true } : Blade).noteAckable h (c.rxExpected - 1)
        | none => b
      | none => b

/-- More than the words of any packet and its seal. -/
def channelFuel : Nat := 1100

/-- The open packet of a run that breaks R508 turns bad. -/
def Blade.badRun (b : Blade) (h : Nat) : Blade :=
  match b.openPacket (.requester .command) (chanIn h) with
  | some i => if (b.packet i).bad then b else b.spoil i
  | none => (b.openNew (.requester .command) (chanIn h) none).2.count (rQPOOL + 0x38)

/-- A segment breaks its run (R508, R510). -/
def Channel.breaks (c : Channel) (first last : Bool) (n : Nat) : Bool :=
  c.badRun || (first ≠ (c.runSegments = 0)) || 4 ≤ c.runSegments || (!last && n ≠ 1024) ||
    (last && n = 0 && 0 < c.runSegments)

/-- A segment of a run, stored as the next one expected. -/
def Blade.storeSegment (b : Blade) (h : Nat) (d : Datagram) : Blade :=
  let c := b.channel h
  let first := d.flags.getLsbD 0
  let last := d.flags.getLsbD 1
  let n := d.payload.length
  if c.breaks first last n then
    let b := if c.badRun then b else b.badRun h
    let b := (b.modChannel h fun c => { c with badRun := !last, runSegments := if last then 0 else c.runSegments + 1 }).noteAckable
      h d.sequence
    if last then
      match b.openPacket (.requester .command) (chanIn h) with
      | some i => b.dropPacket i
      | none => b
    else b
  else
    let b := b.modChannel h fun c => { c with
      runSegments := if last then 0 else c.runSegments + 1, waitingWords := (wordsOf d.payload).map fun w => { value := w, bad := false },
      waitingSeal := if last then some ((4 - n % 4) % 4) else none }
    Blade.storeWaiting h channelFuel b

/-- A good DATA segment (R509). -/
def Blade.takeSegment (b : Blade) (h : Nat) (d : Datagram) : Blade :=
  let c := b.channel h
  if d.sequence ≠ c.rxExpected || 64 ≤ c.beyond || b.channelHeld h then
    let old := (c.rxExpected - d.sequence).toNat
    b.setChannel h { c with dropped := satInc c.dropped, duplicateAck := c.duplicateAck || (0 < old && old < 2 ^ 31) }
  else
    let b := (b.setChannel h { c with rxExpected := c.rxExpected + 1 }).sendInbound (.segment d)
    if c.kind.toNat = kindJOURNAL || c.kind.toNat = kindNOTICE then b.noteAckable h d.sequence else b.storeSegment h d

/-- A datagram arrives at the channel port, whichever uplink brings it; one that is discarded counts at the uplink too (R506,
R507, Table 11.22). A blade that is not active has no open channel. -/
def Blade.takeDatagram (b : Blade) (d : Datagram) : Blade :=
  let u := d.uplink.val
  let x := b.frameIn u d.vlan d.fragment
  let b := x.2
  if !x.1 || !b.owns u d.dest || d.destPort.toNat ≠ bits (b.reg rCMD).toNat 16 16 then b
  else if !b.active || !b.datagramGood d then (b.count (rCMD + 0x44)).count (rUPLINK u + 0x70)
  else
    let h := d.channel.toNat
    let b := if d.flags.getLsbD 2 then b.takeChannelAck h d.ack else b
    if d.type = 1 then b.takeSegment h d else b

/-- The commit of frames up to n releases the acknowledgements of their segments (R511). -/
def Blade.chanCommit (b : Blade) (n : Word32) : Blade :=
  (mkeys (fun _ (c : Channel) => c.isOpen && !c.ackables.isEmpty) b.eng.channels).foldl (fun b h =>
    b.modChannel h fun c =>
      let now := c.ackables.takeWhile fun a => frameLe a.2 n
      match now.getLast? with
      | some a => { c with rxAcked := some a.1, ackDue := true, ackables := c.ackables.drop now.length }
      | none => c) b

/-! ## Cells granted (R374, R375) -/

/-- A write of a producer to a queue would need a cell (R374): a packet is not open, or its cells are full. -/
def Blade.needsCell (b : Blade) (who : Requester) (q : Nat) : Bool :=
  match b.openPacket (.requester who) q with
  | some i => !(b.packet i).bad && (b.packet i).words.length = 15 * (b.packet i).cells.length
  | none => true

/-- CELL_GRANT: the write of a producer that waits for a queue completes if a cell is granted, or if it needs none. -/
def Blade.cellGrant (b : Blade) (m : Memory) (who : Requester) (q : Nat) : Blade :=
  match who with
  | .tile t => b.grantTile m t q
  | .halyard c h =>
    let l := laneNo c h
    if (b.halyard l).waitsFor.map (·.toNat) = some q && (b.cellFree q || !b.needsCell who q) && !b.struck (fnQueue q) then
      b.modHalyard l fun y => { y with waitsFor := none }
    else b
  | .command => (if 8256 ≤ q ∧ q < 8288 then Blade.storeWaiting (q - 8256) channelFuel b else b).serveQueue q

/-- HOIST of a queue completes the writes that waited for it (R374, R375). -/
def Blade.grantAll (b : Blade) (m : Memory) (q : Nat) : Blade :=
  let waits := mkeys (fun _ (y : Halyard) => y.waitsFor.map (·.toNat) = some q) b.lan.halyards
  let b := waits.foldl (fun b l => b.modHalyard l fun y => { y with waitsFor := none }) b
  ((List.finRange 34).foldl (fun b t => b.grantTile m t q) b).cellGrant m .command q

/-! ## CHANNEL_OPEN, CHANNEL_CLOSE and CHANNEL_STATUS (R515, R517) -/

/-- Every field of a CHANNEL_OPEN lies in its range (Table 11.9, R517). -/
def channelFields (r : Request) : Bool :=
  let kind := rqField r 1 1
  kind ≤ 3 && rqField r 2 1 ≤ 3 && rqField r 3 1 ≤ 1 && rqField r 4 2 ≠ 0 && rqField r 6 2 ≤ 1000 &&
    (kind ≠ kindTUNNEL || (rqField r 8 2 ≤ 127 && 1 ≤ rqField r 0xA 1 && rqField r 0xA 1 ≤ 31)) && rqField r 0xB 1 = 0 &&
    (kind = 0 || kind = kindTUNNEL || rqField r 8 2 = 0) && (kind = kindTUNNEL || rqField r 0xA 1 = 0) &&
    (kind = 0 || rqField r 0xC 4 = 0)

/-- A second channel of a kind that only one may have. -/
def Blade.kindTaken (b : Blade) (kind : Nat) : Bool :=
  (kind = kindJOURNAL || kind = kindNOTICE) && b.eng.channels.any fun e => e.2.isOpen && e.2.kind.toNat = kind

/-- The endpoint a TUNNEL names is enabled with personality 1, PASS. -/
def Blade.passEndpoint (b : Blade) (l e : Nat) : Bool := b.flag (rEP l e) 6 && b.field (rEP l e) 0 6 = 1

/-- The status of a CHANNEL_OPEN. -/
def Blade.openStatus (b : Blade) (r : Request) : Nat :=
  let h := rqField r 0 1
  let kind := rqField r 1 1
  if 31 < h then stNO_SUCH
  else if (b.channel h).isOpen then stBUSY
  else if !channelFields r then stNO_SUCH
  else if !(b.key (rqField r 2 1)).present || b.kindTaken kind then stDENIED
  else if kind = kindTUNNEL && !b.passEndpoint (rqField r 8 2) (rqField r 0xA 1) then stFAILED
  else stOK

/-- The channel that a CHANNEL_OPEN opens. -/
def openedChannel (frame : Word32) (r : Request) : Channel :=
  { Channel.init with
    isOpen := true, kind := BitVec.ofNat 2 (rqField r 1 1), slot := ⟨rqField r 2 1 % 4, Nat.mod_lt _ (by decide)⟩,
    via := rqField r 3 1 = 1, peer := BitVec.ofNat 128 (rqField r 0x10 16), peerPort := BitVec.ofNat 16 (rqField r 4 2),
    retxMs := if rqField r 6 2 = 0 then 20 else rqField r 6 2, target := BitVec.ofNat 16 (rqField r 8 2),
    endpoint := BitVec.ofNat 5 (rqField r 0xA 1), node := BitVec.ofNat 20 (rqField r 0xC 4), base := frame,
    progress := frame }

def execChannelOpen (r : Request) (s : State) : Result :=
  s.after (s.blade.bladeCommand s.mem { Opcode.plain 0x70 false with commit := true } r (r.length = 32) fun b d =>
    let st := b.openStatus r
    let b := if st = stOK then b.setChannel (rqField r 0 1) (openedChannel b.frame r) else b
    b.answerAtCommit d st)

/-- CHANNEL_CLOSE of an open channel; a packet in a cursor of another requester stays there (R517, R357). -/
def Blade.closeChannel (b : Blade) (h : Nat) : Blade :=
  let c := b.channel h
  let mine := if c.kind.toNat = kindJOURNAL then [] else
    (b.queue (chanOut h)).order.filter fun i => (b.packet i).state = .reading && !b.pool.cursors.any (·.packet = i)
  let b := mine.foldl (fun b i => b.setPacket i { b.packet i with state := .visible }) b
  let b := match b.openPacket (.requester .command) (chanIn h) with
    | some i =>
      let counted := if (b.packet i).bad then b else b.count (rQPOOL + 0x38)
      (counted.giveCells (counted.packet i).cells).dropPacket i
    | none => b
  (b.setChannel h Channel.init).pruneJournal

def execChannelClose (r : Request) (s : State) : Result :=
  s.after (s.blade.bladeCommand s.mem { Opcode.plain 0x71 false with commit := true } r (r.length = 4) fun b d =>
    let h := rqField r 0 1
    if 31 < h then b.answerAtCommit d stNO_SUCH
    else if !(b.channel h).isOpen then b.answerAtCommit d stFAILED
    else (b.closeChannel h).answerAtCommit d stOK)

/-- An acknowledgement as CHANNEL_STATUS shows it; free before there is one. -/
def Blade.ackOr (b : Blade) (a : Option Word32) : Word32 × Blade :=
  match a with
  | some v => (v, b)
  | none => b.drawWord

/-- CHANNEL_STATUS's reply data (Table 11.10). -/
def Blade.channelData (b : Blade) (h : Nat) : List Byte × Blade :=
  let c := b.channel h
  let t := b.ackOr c.txAcked
  let r := t.2.ackOr c.rxAcked
  (leBytes 1 c.code ++ leBytes 1 c.kind.toNat ++ leBytes 1 c.slot.val ++ leBytes 1 0 ++ leBytes 4 c.txNext.toNat ++
    leBytes 4 t.1.toNat ++ leBytes 4 c.rxExpected.toNat ++ leBytes 4 r.1.toNat ++ leBytes 4 c.retx.toNat ++
    leBytes 4 c.dropped.toNat ++ leBytes 4 0, r.2)

def execChannelStatus (r : Request) (s : State) : Result :=
  s.after (s.blade.bladeCommand s.mem (.plain 0x72 true) r (r.length = 4) fun b d =>
    let h := rqField r 0 1
    if 31 < h then b.answer d stNO_SUCH
    else
      let x := b.channelData h
      x.2.answer d stOK x.1)

/-! ## Rows of the channels -/

/-- A datagram of a row: one of the other defined type is no event of this row, and changes nothing (DESIGN CHOICE, log 50). -/
def Blade.datagramRow (b : Blade) (other : Byte) (d : Datagram) : Blade := if d.type = other then b else b.takeDatagram d

def execChannelData (d : Datagram) (s : State) : Result := s.afterBlade (s.blade.datagramRow 2 d)
def execChannelAck (d : Datagram) (s : State) : Result := s.afterBlade (s.blade.datagramRow 1 d)
def execChannelSegmentSend (ch : ChannelId) (s : State) : Result := s.afterBlade (s.blade.channelSend ch.val)
def execChannelAckDue (ch : ChannelId) (s : State) : Result := s.afterBlade (s.blade.channelAck ch.val)
def execChannelRetransmit (ch : ChannelId) (s : State) : Result := s.afterBlade (s.blade.channelRetransmit ch.val)
def execChannelStalled (ch : ChannelId) (s : State) : Result := s.afterBlade (s.blade.channelStall ch.val)
def execCellGrant (who : Requester) (q : QueueId) (s : State) : Result :=
  s.afterBlade (s.blade.cellGrant s.mem who q.toNat)

/-! ## The uplinks' own traffic (R519 to R521) -/

/-- What an uplink does with a frame of its own protocols that it takes. -/
def Blade.uplinkFrame (b : Blade) (u : Nat) (vlan : Option (BitVec 12)) (use : Blade → Blade) : Blade :=
  let x := b.frameIn u vlan false
  if x.1 then use x.2 else x.2

def execArp (u : UplinkId) (target : BitVec 32) (vlan : Option (BitVec 12)) (s : State) : Result :=
  s.afterBlade (s.blade.uplinkFrame u.val vlan fun b =>
    if b.owns4 u.val target then b.uplinkSend u.val (.arp u (mapped4 target) false) else b)

def execNeighbourSolicitation (u : UplinkId) (target : BitVec 128) (vlan : Option (BitVec 12)) (s : State) : Result :=
  s.afterBlade (s.blade.uplinkFrame u.val vlan fun b =>
    if b.owns6 u.val target then b.uplinkSend u.val (.arp u target false) else b)

def execEchoRequest (u : UplinkId) (target : BitVec 128) (vlan : Option (BitVec 12)) (payload : List Byte) (s : State) : Result :=
  s.afterBlade (s.blade.uplinkFrame u.val vlan fun b =>
    if b.owns u.val target then b.uplinkSend u.val (.echo u payload) else b)

/-- The announcements of the service address on one uplink (R521). -/
def Blade.announceOn (b : Blade) (u : UplinkId) : Blade :=
  if b.uplinkOn u.val && b.flag (rUPLINK u.val + 4) 0 then
    let v4 := b.reg (rUPLINK 0 + 0x18)
    let v6 := b.address6 (rUPLINK 0 + 0x40)
    let b := if v4 = 0 then b else b.uplinkSend u.val (.arp u (mapped4 v4) true)
    if v6 = 0 then b else b.uplinkSend u.val (.arp u v6 true)
  else b

/-- Announcements on uplinks 0 and 1. -/
def Blade.announce (b : Blade) : Blade := (b.announceOn 0).announceOn 1

/-- ANNOUNCEMENT_REPEAT: the second or third announcement after the active role was taken. -/
def Blade.announceAgain (b : Blade) : Blade :=
  if 0 < b.eng.announcements && b.active then
    { b with eng.announcements := b.eng.announcements - 1 }.announce
  else b

def execAnnouncementRepeat (s : State) : Result := s.afterBlade s.blade.announceAgain

/-- UPLINK_DOWN: an enabled uplink without link (Table 12.3). -/
def Blade.uplinkCause (b : Blade) (u : Nat) : Blade :=
  b.setCause (srcWide 7 u) (b.flag (rUPLINK u) 0 && !b.flag (rUPLINK u + 4) 0)

/-- An uplink's link comes up or goes down. -/
def Blade.setUplink (b : Blade) (u : Nat) (up : Bool) : Blade :=
  ((if up then b else b.ptpDrop u).setField (rUPLINK u + 4) 0 1 (b2n up)).uplinkCause u

def execUplinkLinkChange (u : UplinkId) (up : Bool) (s : State) : Result := s.afterBlade (s.blade.setUplink u.val up)

/-! ## PTP (R523) -/

/-- PTP_MESSAGE: the slave clock of an uplink takes its new state, its offset and, when followed, the time; whether a delay
request is due is a free value (IEEE 1588). -/
def Blade.takePtp (b : Blade) (u : UplinkId) (x : PtpMessage) : Blade :=
  let heard := b.frameIn u.val x.vlan false
  let b := heard.2
  if !heard.1 || !b.flag (rUPLINK u.val) 14 || x.domain.toNat ≠ b.field (rUPLINK u.val) 16 8 || 4 < x.state.toNat then b
  else
    let b := (b.setField (rUPLINK u.val + 4) 2 3 x.state.toNat).setReg (rUPLINK u.val + 0x50) x.offset
    let b := if b.slaveUplink = some u then { b with eng.ptpOffset := x.offset, eng.ptpTime := x.time } else b
    if x.state.toNat = 2 || x.state.toNat = 3 then
      let d := b.draw 2
      if d.1 = 1 then d.2.uplinkSend u.val (.delayRequest u) else d.2
    else b

def execPtpMessage (u : UplinkId) (m : PtpMessage) (s : State) : Result := s.afterBlade (s.blade.takePtp u m)

end Sys2Proof.Machine
end

