-- ==== Sys2Proof/Machine/Commit.lean ====
section
/-! DEFINITION. The commit of a frame (R39 to R42): what it releases, and the journal that it feeds (R26, R27, R583, R585). -/

namespace Sys2Proof.Machine

/-! ## The journal (R583, R585) -/

/-- Bytes of the journal staging region, 512 MB, that records not yet written occupy. -/
def Blade.journalBytes (b : Blade) : Nat := ((b.hw.journal.filter (!·.written)).map fun r => r.bytes.length).sum

def journalRoom : Nat := 0x20000000

/-- Bytes of the journal packets that a frame's commit makes visible. -/
def Blade.journalPending (b : Blade) (n : Word32) : Nat :=
  ((b.queue 8192).order.map fun i =>
    let p := b.packet i
    if p.state = .visible || (p.state = .pending && frameLe p.frame n) then p.length else 0).sum

/-- A block that none has written moves down in the sequence of blocks. -/
def JournalBlock.renumber (k : Nat) (x : JournalBlock) : JournalBlock :=
  let seq := x.seq - BitVec.ofNat 64 k
  { x with seq := seq, bytes := x.bytes.take 8 ++ leBytes 8 seq.toNat ++ x.bytes.drop 16 }

/-- The oldest record that waits and that an open JOURNAL channel has acknowledged is dropped (R585). Blocks that no carrier has
begun and that hold no later record go with it, and those after them take their numbers, since block_seq counts blocks written. -/
def Blade.skipRecord (b : Blade) : Blade :=
  match b.hw.journal.find? fun r => r.acknowledged && !r.written with
  | some r =>
    let gone := fun x : JournalBlock => x.seq.toNat < r.block.toNat && x.done = 0
    let k := (b.hw.blocks.filter gone).length
    let later := fun n : Word64 => if r.block.toNat ≤ n.toNat then n - BitVec.ofNat 64 k else n
    let journal : List StagedRecord := (dropFirst (fun x : StagedRecord => x.id = r.id) b.hw.journal).map fun y =>
      { y with block := later y.block }
    let blocks : List JournalBlock := (b.hw.blocks.filter fun x => !gone x).map fun x =>
      if r.block.toNat ≤ x.seq.toNat then x.renumber k else x
    { b with hw.journal := journal, hw.blocks := blocks, hw.blockSeq := b.hw.blockSeq - BitVec.ofNat 64 k }.count (rJRNL + 0x30)
  | none => b

/-- Acknowledged records are dropped while a frame's records do not fit. -/
def Blade.makeRoom (n : Word32) : Nat → Blade → Blade
  | 0, b => b
  | k + 1, b =>
    if b.journalBytes + b.journalPending n ≤ journalRoom || !b.journalOpen then b else Blade.makeRoom n k b.skipRecord

/-- Staging has room for a frame's records. -/
def Blade.journalFits (b : Blade) (n : Word32) : Bool := b.journalBytes + b.journalPending n ≤ journalRoom

/-- The journal engine takes one packet of queue 8,192, with the stamp of its frame. -/
def Blade.stageOne (stamp : Word64) (b : Blade) : Blade :=
  let t := b.takePacket 8192
  match t.1 with
  | none => t.2
  | some i =>
    let b := t.2
    let p := b.packet i
    let r : StagedRecord := { frame := p.frame, stamp := stamp, id := b.hw.nextRecord, bytes := p.bytes, block := 0,
                              written := false, acknowledged := false }
    { b.freePacket i with hw.journal := b.hw.journal ++ [r], hw.nextRecord := b.hw.nextRecord + 1 }

/-- A record as it stands in the journal: its length word, then its bytes. -/
def StagedRecord.framed (r : StagedRecord) : List Byte := leBytes 4 r.bytes.length ++ r.bytes

/-- Where each of some records begins and ends in their stream, from an offset on. -/
def recordSpans : Nat → List StagedRecord → List (Nat × Nat × StagedRecord)
  | _, [] => []
  | o, r :: rest => (o, o + r.framed.length, r) :: recordSpans (o + r.framed.length) rest

/-- One journal block over 4,064 bytes of the stream from an offset (Table 13.11). -/
def journalBlock (spans : List (Nat × Nat × StagedRecord)) (stream : List Byte) (seq o : Nat) : JournalBlock :=
  let used := (stream.drop o).take 4064
  let payload := sliceBytes stream o 4064
  let inside := spans.filter fun x => x.1 < o + 4064 && o < x.2.1
  let first := match spans.find? fun x => o ≤ x.1 && x.1 < o + 4064 with
    | some x => x.1 - o
    | none => 0xFFFF
  let from' := (inside.head?.map fun x => x.2.2.frame).getD 0
  let last := (inside.getLast?.map fun x => x.2.2.frame).getD 0
  { seq := BitVec.ofNat 64 seq, frame := last,
    bytes := leBytes 4 0x4C4E524A ++ leBytes 2 1 ++ leBytes 2 first ++ leBytes 8 seq ++ leBytes 4 from'.toNat ++
      leBytes 4 last.toNat ++ leBytes 4 used.length ++ leBytes 4 (crc32 payload).toNat ++ payload,
    done := 0 }

/-- The records staged since an identifier form blocks of their own, numbered on. -/
def Blade.formBlocks (b : Blade) (since : Nat) : Blade :=
  let new := b.hw.journal.filter fun r => since ≤ r.id
  if new.isEmpty then b
  else
    let stream := new.flatMap StagedRecord.framed
    let spans := recordSpans 0 new
    let seq := b.hw.blockSeq.toNat
    let n := (stream.length + 4063) / 4064
    let blocks := (List.range n).map fun k => journalBlock spans stream (seq + k) (4064 * k)
    let ends := spans.map fun x => (x.2.2.id, seq + (x.2.1 - 1) / 4064)
    { b with hw.blocks := b.hw.blocks ++ blocks, hw.blockSeq := BitVec.ofNat 64 (seq + n),
             hw.journal := b.hw.journal.map fun r =>
               match ends.find? (·.1 = r.id) with
               | some e => { r with block := BitVec.ofNat 64 e.2 }
               | none => r }

/-- At a commit the packets of queue 8,192 that it shows go to journal staging. -/
def Blade.journalCommit (b : Blade) (stamp : Word64) : Blade :=
  let since := b.hw.nextRecord
  (times ((b.queue 8192).order.filter fun i => (b.packet i).state = .visible).length (Blade.stageOne stamp) b).formBlocks since

/-- A carrier is out of service for R27; one that is being resilvered takes every write (R586). -/
def Blade.carrierOut (b : Blade) (k : Nat) : Bool := !b.carrierTakes k

/-- A block counts as written (R27). -/
def Blade.blockWritten (b : Blade) (x : JournalBlock) : Bool :=
  (x.done.getLsbD 0 && x.done.getLsbD 1) || (x.done.getLsbD 0 && b.carrierOut 1) || (x.done.getLsbD 1 && b.carrierOut 0)

/-- The bytes of the transaction region (Table 13.10). -/
def journalRing : Nat := 200000000000

/-- The last frame of whose records none waits, among those of the staged records. -/
def Hardware.lastWritten (h : Hardware) : Option Word32 :=
  let waits := h.journal.filter (!·.written)
  ((h.journal.filter fun r => r.written && !waits.any (·.frame = r.frame)).getLast?).map (·.frame)

/-- A block has been written: the registers of Tables 13.23 and 13.24. -/
def Blade.noteBlock (b : Blade) (x : JournalBlock) : Blade :=
  let head := b.pair64 (rJRNL + 0x10) + 4096
  let b := (b.count64 (rJRNL + 0x28)).setPair64 (rJRNL + 0x10) (head % journalRing)
  let b := if journalRing ≤ head then b.count (rJRNL + 0x3C) else b
  let b : Blade := { b with hw.journal := b.hw.journal.map fun r => if r.block = x.seq then { r with written := true } else r }
  match b.hw.lastWritten with
  | some f => b.setReg (rJRNL + 0x18) f
  | none => b

/-- The oldest blocks that count as written leave the engine. -/
def Blade.retireBlocks : Nat → Blade → Blade
  | 0, b => b
  | n + 1, b =>
    match b.hw.blocks with
    | [] => b
    | x :: rest => if b.blockWritten x then Blade.retireBlocks n ({ b with hw.blocks := rest }.noteBlock x) else b

def Blade.journalSettle (b : Blade) : Blade := (Blade.retireBlocks b.hw.blocks.length b).pruneJournal

/-- A carrier completes the write of a block, at the block's place in the ring. -/
def Blade.blockOut (b : Blade) (k : Fin 2) (x : JournalBlock) : Blade :=
  (b.setCarrier k.val { b.carrier k.val with written := (b.carrier k.val).written + 1 }).out
    (.carrierWrite k (4096 * x.seq.toNat % journalRing) x.bytes)

/-- JOURNAL_WRITE_COMPLETE: a carrier has completed its oldest outstanding block (R27, R586). -/
def Blade.carrierWrote (b : Blade) (k : Fin 2) : Blade :=
  if !b.active || b.flt.fenced || !b.flag rJRNL 0 || b.struck fnJournal || !b.carrierTakes k.val then b
  else
    match b.hw.blocks.find? fun x => !x.done.getLsbD k.val with
    | none => b
    | some x =>
      let b := b.blockOut k x
      let blocks := modFirst (fun y => y.seq = x.seq)
        (fun y => { y with done := y.done ||| BitVec.ofNat 2 (2 ^ k.val) }) b.hw.blocks
      { b with hw.blocks := blocks }.journalSettle

/-! ## Releases (R39 to R42, R570) -/

/-- Everything that the commit of frames up to n releases. -/
def Blade.commitFrame (b : Blade) (n : Word32) (stamp : Word64) : Blade :=
  let b := (((b.poolCommit n).ledgerCommit n).parkCommit n).laneCommit n
  ((((b.chanCommit n).replyCommit n).journalCommit stamp).setReg (rTOGGLE + 8) n)

/-- A trail record of frames up to n is not yet in its queue, so that their commit waits (R658). -/
def Blade.trailOwes (b : Blade) (n : Word32) : Bool := b.led.trail.any fun r => frameLe r.frame n

/-- Frames up to n leave the hub in frame order, as far as their trail records are queued and journal staging has room for
their records (R42, R585, R658). -/
def Blade.releaseUpTo (n : Word32) : Nat → Blade → Blade
  | 0, b => b
  | k + 1, b =>
    match b.pair.unreleased with
    | [] => b
    | (f, stamp) :: rest =>
      let b := Blade.makeRoom f b.hw.journal.length b
      if frameLe f n && !b.trailOwes f && b.journalFits f then
        let b := { b with pair.unreleased := rest, pair.commitsSent := b.pair.commitsSent - 1 }
        Blade.releaseUpTo n k (b.commitFrame f stamp)
      else b

/-- The active blade commits on its own (R41). -/
def Blade.commitsAlone (b : Blade) : Bool := b.active && !b.joined && !b.flt.fatal

/-- Every ended frame is released where commits are local. -/
def Blade.releaseAll (b : Blade) : Blade :=
  match b.pair.unreleased.getLast? with
  | some n => if b.commitsAlone then Blade.releaseUpTo n.1 b.pair.unreleased.length b else b
  | none => b

/-- A hand-over of the active role that no standby is left for is refused (R576). -/
def Blade.refuseHandOver (b : Blade) : Blade :=
  match b.pair.handingOver with
  | some d => { b with pair.handingOver := none }.answerDone d.dest stDENIED
  | none => b

/-- The active blade becomes SOLO and releases its held frames (R570). -/
def Blade.becomeSolo (b : Blade) : Blade :=
  let pair := { b.pair with duplex := .solo, copyDone := false, commitsSent := 0, doubtFrames := 0, unsent := [] }
  { b with pair := pair }.releaseAll.refuseHandOver

/-- A frame's COMMIT leaves for the standby, after its LOG (R564). -/
def Blade.sendCommit (b : Blade) (f : Word32) : Blade :=
  { b with pair.commitsSent := b.pair.commitsSent + 1 }.sendBlock 3 f

/-- COMMITs go to the standby: joined, or joining once the copy is done (R564, Table 13.2). -/
def Blade.commitsGo (b : Blade) : Bool := b.joined || (b.pair.duplex = .joining && b.pair.copyDone)

/-- The COMMITs that have not been sent go in frame order, each once its trail records are queued (R564, R538, R658). -/
def Blade.sendCommits : Nat → Blade → Blade
  | 0, b => b
  | n + 1, b =>
    match b.pair.unreleased[b.pair.commitsSent]? with
    | some (f, _) => if b.active && b.commitsGo && !b.flt.fatal && !b.trailOwes f then Blade.sendCommits n (b.sendCommit f) else b
    | none => b

/-- What a queue for trail records allows: COMMITs go to the standby, and frames leave where commits are local. -/
def Blade.commitTurn (b : Blade) : Blade := (Blade.sendCommits b.pair.unreleased.length b).releaseAll

/-- TRAIL_BUFFER_DRAIN (R658). -/
def execTrailBufferDrain (s : State) : Result := s.afterBlade (s.blade.drainTrail.trailTurn s.mem).commitTurn


end Sys2Proof.Machine
end

