-- ==== Sys2Proof/Machine/Functions.lean ====
section
/-! DEFINITION. Changing settings by strike and hoist (R490 to R496), and the images: loading, verifying and activating
them (R485, R589 to R591, Table 9.13). -/

namespace Sys2Proof.Machine

/-! ## Functions (R490) -/

/-- The identifiers of Table 11.6. -/
def fnKnown (fn : Nat) : Bool :=
  fn < 0x22 || (0x40 ≤ fn && fn < 0x48) || (0x100 ≤ fn && fn < 0x180) || (0x200 ≤ fn && fn < 0x240) ||
    (0x300 ≤ fn && fn < 0x304) || fn = 0x310 || (0x320 ≤ fn && fn < 0x323) || fn = 0x330 || fn = 0x340 ||
    (0x1000 ≤ fn && fn < 0x5000)

/-- The port-card slot that a cluster or a lane port belongs to. -/
def fnSlot (fn : Nat) : Option Nat :=
  if 0x40 ≤ fn ∧ fn < 0x48 then some (fn - 0x40)
  else if 0x100 ≤ fn ∧ fn < 0x180 then some ((fn - 0x100) / 16)
  else none

def Blade.fru (b : Blade) (n : Nat) : FruState := mget FruState.absent n b.hw.frus

def Blade.setFru (b : Blade) (n : Nat) (v : FruState) : Blade := { b with hw.frus := mput FruState.absent n v b.hw.frus }

/-- A slot's card has been brought into service, and is still there. -/
def Blade.cardServed (b : Blade) (slot : Nat) : Bool :=
  b.hw.cards.getLsbD slot && (b.fru (2 + slot) = .inService || b.fru (2 + slot) = .prepared)

/-- STRIKE and HOIST take a function (R490). -/
def Blade.fnExists (b : Blade) (fn : Nat) : Bool :=
  fnKnown fn && (match fnSlot fn with
    | some slot => b.cardServed slot
    | none => true)

/-- The switchable power domain that a function is in (Table 14.7). -/
def fnDomain (fn : Nat) : Option Nat :=
  if fn < 0x22 then some (8 + fn / 2)
  else if 0x200 ≤ fn ∧ fn < 0x240 then some (25 + (fn - 0x200) / 16)
  else fnSlot fn

def Blade.domainOff (b : Blade) (fn : Nat) : Bool :=
  match fnDomain fn with
  | some d => !b.hw.domainsOn.getLsbD d
  | none => false

/-- Functions whose STRIKE and HOIST are never mirrored (Table 13.5). -/
def fnUnmirrored (fn : Nat) : Bool :=
  fn < 0x22 || (0x200 ≤ fn && fn < 0x240) || (0x320 ≤ fn && fn < 0x323) || fn = 0x340

/-- A STRIKE or HOIST goes to the partner (R560). -/
def Blade.mirrorFn (b : Blade) (fn : Nat) (c : ConfigItem) : Blade :=
  if b.mirrors && b.active && !fnUnmirrored fn then b.sendOver (.mirror c) else b

/-! ## STRIKE -/

/-- A spare or retired tile. -/
def Blade.spareOrRetired (b : Blade) (fn : Nat) : Bool :=
  (fn = 32 && b.net.spareValid.getLsbD 0) || (fn = 33 && b.net.spareValid.getLsbD 1) ||
    (fn < 34 && b.net.retiredTiles.getLsbD fn)

/-- The status with which a STRIKE is refused, or OK (R490, R492, R317). -/
def Blade.strikeStatus (b : Blade) (fn : Nat) : Nat :=
  if !b.fnExists fn then stNO_SUCH
  else if b.spareOrRetired fn then stDENIED
  else if 0x200 ≤ fn && fn < 0x204 && b.pair.role ≠ .starting then stDENIED
  else stOK

/-- A firing that holds its flow's head and no reservation reserves of the 544 entries as the release unit is struck (R298). -/
def Blade.reserveHead (b : Blade) (f : Firing) : Blade :=
  match f.heldSequence with
  | some (fl, s) =>
    if (b.flow fl.toNat).head = s && !(b.flow fl.toNat).booked.any (·.1 = s) then (b.reserve fl.toNat s true).getD b
    else b
  | none => b

/-- STRIKE of the release unit: each firing under way that holds its flow's head reserves of the 544 entries, those that a
retirement has cut short included; then a prefetched head entry is selected again (R298). -/
def Blade.strikeRelease (b : Blade) (m : Memory) : Blade :=
  let b := (b.net.tiles.flatMap fun e => e.2.firing.toList ++ e.2.reruns).foldl Blade.reserveHead b
  (List.range 34).foldl (fun b t =>
    let x := b.tile t
    match x.prefetched.bind (fun a => x.ready.find? (·.age = a)) with
    | some e =>
      if b.needs m e = some true then (b.modTile t fun x => { x with prefetched := none }).prefetch m t else b
    | none => b) b

/-- The function enters its strike: it takes staged writes from now on (R491). -/
def Blade.enterStrike (b : Blade) (m : Memory) (fn : Nat) : Blade :=
  let b := b.setStruck fn true
  let b := { b with csr.striking := b.csr.striking.filter (· ≠ fn) ++ [fn] }
  if fn = fnRelease then b.strikeRelease m else b

/-- The function has reached its struck state: a tile once it executes no firing (R296), a bank once no live repair is under
way in it (R318), any other at once. -/
def Blade.strikeReached (b : Blade) (fn : Nat) : Bool :=
  if fn < 0x22 then (b.tile fn).firing.isNone
  else if 0x200 ≤ fn && fn < 0x240 then !(b.bank.repair.any fun r => r.bank.val = fn - 0x200)
  else true

/-- The uplink that a request came by is the function (R496). -/
def strikesOwnUplink (fn : Nat) (t : Transport) : Bool :=
  match uplinkOf t with
  | some u => fn = fnUplink u
  | none => false

def execStrike (r : Request) (s : State) : Result :=
  s.after (s.blade.bladeCommand s.mem { Opcode.plain 0x30 false with deferred := true } r (r.length = 4) fun b d =>
    let fn := rqField r 0 2
    let st := b.strikeStatus fn
    if st ≠ stOK then b.answer d st
    else if b.struck fn && !b.csr.striking.contains fn then b.answer d stOK
    else if strikesOwnUplink fn r.transport then (b.answer d stOK).setStruck fn true
    else ((b.enterStrike s.mem fn).mirrorFn fn (.strike (BitVec.ofNat 16 fn))).defer d fn)

/-- A STRIKE completes and is answered. -/
def Blade.strikeComplete (b : Blade) (fn : Nat) : Blade :=
  if b.csr.striking.contains fn && b.strikeReached fn then
    let b := { b with csr.striking := b.csr.striking.filter (· ≠ fn) }
    match b.deferredOf 0x30 with
    | some d => if d.operand = fn then b.finishDeferred 0x30 stOK else b
    | none => b
  else b

def execStrikeComplete (fn : BitVec 16) (s : State) : Result := s.afterBlade (s.blade.strikeComplete fn.toNat)

/-! ## HOIST (R493) -/

/-- The function that stages a word, by the key it is kept at. -/
def Blade.stagedFn (b : Blade) (key : Nat) : Nat :=
  if 2 ^ 32 ≤ key then fnQueue ((key - 2 ^ 32) / 16) else (b.fieldsOf .command key).fn

/-- A staged word takes effect. -/
def Blade.takeStaged (b : Blade) (e : Nat × Word32) : Blade :=
  if 2 ^ 32 ≤ e.1 then
    let q := (e.1 - 2 ^ 32) / 16
    b.setQueue q ((b.queue q).setWord ((e.1 - 2 ^ 32) % 16 / 4) e.2)
  else b.setReg e.1 (merge (w32 (b.fieldsOf .command e.1).rws) (b.reg e.1) e.2)

/-- A staged MEM_REPAIR word that is ignored: a valid entry on a bad spare row, or one of two that name one row
(Table 7.20). -/
def Blade.repairRefused (b : Blade) (a : Nat) : Bool :=
  match arr a (rMEM + 0x400) 4 256 with
  | some i =>
    let n := b.nextReg a
    bitOf n 9 && (b.flag a 10 || (List.range 4).any fun s =>
      let o := rREPAIR (i / 4) s
      o ≠ a && bitOf (b.nextReg o) 9 && bits (b.nextReg o) 0 9 = bits n 0 9)
  | none => false

/-- Every staged word of a function takes effect, but for refused repairs. -/
def Blade.applyStaged (b : Blade) (fn : Nat) : Blade :=
  let mine := b.csr.staged.filter fun e => b.stagedFn e.1 = fn
  let rest := b.csr.staged.filter fun e => b.stagedFn e.1 ≠ fn
  let good := mine.filter fun e => !b.repairRefused e.1
  let b := if good.length = mine.length then b else b.setField (rMARCH + 8) 8 1 1
  good.foldl Blade.takeStaged { b with csr.staged := rest }

/-- The descriptor that a queue's HOIST would leave. -/
def Blade.nextQueue (b : Blade) (q : Nat) : Queue :=
  (List.range 4).foldl (fun v k => v.setWord k (b.stagedOr (queueKey q k) ((b.queue q).word k))) (b.queue q)

/-- The checks of a lane port (R412, R467). -/
def Blade.portCheck (b : Blade) (l : Nat) : Bool :=
  let n := b.nextReg (rPORT l)
  let known := (b.cluster (l / 16)).directory
  bits n 4 4 ≤ 8 && 2 ≤ bits n 8 4 && bits n 16 8 < bits n 24 8 &&
    (List.range 32).all fun e =>
      let w := b.nextReg (rEP l e)
      !bitOf w 6 || known.any fun p => p.number.toNat = bits w 0 6

/-- An address and its gateway agree in a prefix of a width; zero addresses are not used (R520, R522). -/
def prefixAgrees (width len a g : Nat) : Bool :=
  a = 0 || g = 0 || a / 2 ^ (width - min len width) = g / 2 ^ (width - min len width)

/-- The check of an uplink (R522). -/
def Blade.uplinkCheck (b : Blade) (u : Nat) : Bool :=
  let at' := fun o : Nat => b.nextReg (rUPLINK u + o)
  let six := fun o : Nat => ((List.range 4).map fun k => at' (o + 4 * k) * 2 ^ (32 * k)).sum
  let net := at' 0x1C
  let p4 := bits net 0 6
  let p6 := bits net 8 8
  let svc := u = 0
  prefixAgrees 32 p4 (at' 0x10) (at' 0x14) && (!svc || prefixAgrees 32 p4 (at' 0x18) (at' 0x14)) &&
    prefixAgrees 128 p6 (six 0x20) (six 0x30) && (!svc || prefixAgrees 128 p6 (six 0x40) (six 0x30))

/-- The check of the toggle link (R592). -/
def Blade.toggleCheck (b : Blade) : Bool :=
  let n := b.nextReg rTOGGLE
  2 ≤ bits n 8 8 && bits n 8 8 + 2 ≤ bits n 16 8 && 10 ≤ bits n 24 8

/-- The function's own checks (R493); a retired tile is never hoisted again (R580). -/
def Blade.hoistCheck (b : Blade) (fn : Nat) : Bool :=
  if b.domainOff fn then false
  else if fn < 0x22 then !b.net.retiredTiles.getLsbD fn
  else if 0x40 ≤ fn && fn < 0x48 then !(b.cluster (fn - 0x40)).faultStruck
  else if 0x100 ≤ fn && fn < 0x180 then b.portCheck (fn - 0x100)
  else if 0x320 ≤ fn && fn < 0x323 then b.uplinkCheck (fn - 0x320)
  else if fn = fnToggle then b.toggleCheck
  else if 0x1000 ≤ fn then b.queueCheck (fn - 0x1000) (b.nextQueue (fn - 0x1000))
  else true

/-- The bank that keeps a byte, in a row of its own or a spare one. -/
def bankOfPlace (k : Nat) : Option Nat :=
  if k < sramSize then some (bankOf k) else if 2 ^ 48 ≤ k then some ((k - 2 ^ 48) / 2048) else none

/-- A bank's contents become zero with valid check bits (R320). -/
def Memory.zeroBank (m : Memory) (bank : Nat) : Memory :=
  { cells := m.cells.filter fun e => bankOfPlace e.1 ≠ some bank
    marks := m.marks.filter fun e => bankOfPlace (8 * e.1) ≠ some bank }

/-- What a hoisted function does as it resumes: a march of the bank ends there, since it runs on a struck bank only (R323, R320, R297, R298, R377, R459). -/
def Blade.resume (b : Blade) (m : Memory) (fn : Nat) : Memory × Blade :=
  if 0x200 ≤ fn && fn < 0x240 then
    let k := fn - 0x200
    let b := if b.marches k then b.stopMarch else b
    if b.bank.zeroed.getLsbD k then
      (m.zeroBank k, { b with bank.zeroed := b.bank.zeroed &&& ~~~BitVec.ofNat 64 (2 ^ k) })
    else (m, b)
  else if 0x300 ≤ fn && fn < 0x304 then (m, b.delayMature m (fn - 0x300))
  else if fn = fnRelease then (m, b.hoistRelease m)
  else if 0x100 ≤ fn && fn < 0x180 then (m, b.enableLink (fn - 0x100))
  else if 0x320 ≤ fn && fn < 0x323 then (m, (b.ptpDrop (fn - 0x320)).uplinkCause (fn - 0x320))
  else if 0x1000 ≤ fn then
    let q := fn - 0x1000
    let now := (b.queue q).heldNotices
    (m, (now.foldl Blade.giveNotice (b.setQueue q { b.queue q with heldNotices := [] })).grantAll m q)
  else (m, b)

/-- A function is hoisted: its staged words take effect in one cycle, and it resumes. -/
def Blade.hoistFn (b : Blade) (m : Memory) (fn : Nat) : Memory × Blade :=
  ((b.applyStaged fn).setStruck fn false).resume m fn

/-- Posted writes to the function's staged fields take effect first (R493). -/
def Blade.flushFn (b : Blade) (fn : Nat) : Blade :=
  if 0x100 ≤ fn && fn < 0x180 then b.flushPosted (rPORT (fn - 0x100)) else b

/-- A HOIST's status, and what it leaves. -/
def Blade.tryHoist (b : Blade) (m : Memory) (fn : Nat) : Nat × Memory × Blade :=
  if !b.fnExists fn then (stNO_SUCH, m, b)
  else if b.csr.striking.contains fn then (stBUSY, m, b)
  else if !b.struck fn then (stOK, m, b)
  else
    let b := b.flushFn fn
    if b.hoistCheck fn then
      let r := b.hoistFn m fn
      (stOK, r.1, r.2.mirrorFn fn (.hoist (BitVec.ofNat 16 fn)))
    else (stFAILED, m, b)

def execHoist (r : Request) (s : State) : Result :=
  s.after (s.blade.command s.mem (.plain 0x31 false) r (r.length = 4) fun b d =>
    let t := b.tryHoist s.mem (rqField r 0 2)
    (t.2.1, t.2.2.answer d t.1))

/-! ## Staging an image (R485) -/

/-- The rules an image is held to as its last fragment is loaded: those of R65, R66 and R72, the signature's among them, or
those of R411 and R415. -/
def Blade.imageLoads (b : Blade) (kind : Nat) (img : List Byte) : Bool :=
  if kind = 2 then b.hw.boot.imageValid 2 img
  else if kind = 3 then microFormed img
  else true

/-- Staging is in use: its image is being verified or activated. -/
def Blade.stagingBusy (b : Blade) : Bool :=
  b.eng.staging.verifying || b.eng.activation.isSome || b.led.slotChange.isSome

/-- A fragment of an image is written; one of another kind or size begins a new image. -/
def Blade.stage (b : Blade) (m : Memory) (kind off total : Nat) (data : List Byte) : Memory × Blade :=
  let old := b.eng.staging
  let ranges := if old.kind.toNat = kind ∧ old.total = total then old.ranges else []
  { b with eng.staging := { kind := BitVec.ofNat 8 kind, total := total, ranges := ranges ++ [(off, data.length)],
                            verified := false, verifying := false } }.fillDram m (imageStagingBase + off) data

def execLoadImage (r : Request) (s : State) : Result :=
  s.after (s.blade.command s.mem (.plain 0x20 true) r (16 ≤ r.length.toNat && r.length.toNat ≤ 1036) fun b d =>
    let kind := rqField r 0 1
    let off := rqField r 4 4
    let total := rqField r 8 4
    let data := r.params.drop 12
    if b.stagingBusy then (s.mem, b.answer d stBUSY)
    else if kind = 0 ∨ 3 < kind ∨ 0x10000000 < total ∨ total < off + data.length then (s.mem, b.answer d stFAILED)
    else
      let w := b.stage s.mem kind off total data
      if w.2.eng.staging.complete then
        let r := w.2.readStaged w.1
        (r.mem, r.blade.answer d (if !r.lost && b.imageLoads kind r.bytes then stOK else stFAILED))
      else (w.1, w.2.answer d stOK))

def execVerifyImage (r : Request) (s : State) : Result :=
  s.after (s.blade.bladeCommand s.mem { Opcode.plain 0x21 true with deferred := true } r (r.length = 4) fun b d =>
    let kind := rqField r 0 1
    if b.eng.staging.kind.toNat = kind && b.eng.staging.complete then
      { b with eng.staging.verifying := true, eng.staging.verified := false }.defer d kind
    else b.answer d stFAILED)

/-- A joined standby is sent a verified image, or told to activate it (R589 to R591). -/
def Blade.tellStandby (b : Blade) (c : ConfigItem) : Blade :=
  if b.joined && b.active then b.sendOver (.mirror c) else b

/-- IMAGE_VERIFY_COMPLETE: the checks of the staged image have ended (R65, R72, R415, R600). -/
def Blade.verifyDone (b : Blade) (m : Memory) (kind : Nat) : Memory × Blade :=
  let x := b.eng.staging
  if x.verifying && x.kind.toNat = kind then
    let r := b.readStaged m
    let good := !r.lost && b.hw.boot.imageValid kind r.bytes
    let b := { r.blade with eng.staging := { x with verified := good, verifying := false } }
    let b := if good then b.tellStandby (.image (BitVec.ofNat 8 kind) r.bytes) else b
    (r.mem, if good then b.finishDeferred 0x21 stOK (leBytes 4 (fieldAt r.bytes 8 4)) else b.finishDeferred 0x21 stFAILED)
  else (m, b)

def execImageVerifyComplete (kind : BitVec 8) (s : State) : Result := s.after (s.blade.verifyDone s.mem kind.toNat)

/-! ## Activating an image -/

/-- The staged image of a kind has been verified. -/
def Blade.stagedGood (b : Blade) (kind : Nat) : Bool := b.eng.staging.verified && b.eng.staging.kind.toNat = kind

/-- The carriers keep the last image of each kind that was activated (Table 13.10). -/
def Blade.storeImage (b : Blade) (kind : Nat) (img : List Byte) : Blade :=
  if b.anyCarrier then ({ b with hw.imageStore := mput [] kind img b.hw.imageStore } : Blade).storeRegion regionImages img else b

/-- A context above 255 that is not FREE is bound to a slot (R590). -/
def Blade.slotInUse (b : Blade) (slotB : Bool) : Bool :=
  b.led.contexts.any fun e => 256 ≤ e.1 && e.2.state ≠ .free && e.2.slotB = slotB

/-- ACTIVATE_IMAGE of the staged graph image: it is written now, and its slot becomes active at the next tick (R590). -/
def Blade.activateGraph (b : Blade) (m : Memory) (img : List Byte) (r : Request) (d : ReplyTo) : Memory × Blade :=
  let slotB := rqField r 1 1 = 1
  if 1 < rqField r 1 1 ∨ slotB = b.led.activeSlotB ∨ b.slotInUse slotB then (m, b.answer d stFAILED)
  else
    let w := b.loadGraph m slotB img
    let b := (w.2.storeImage 2 img).tellStandby (.activate 2 slotB 0)
    (w.1, { b with led.slotChange := some (slotB, b.frame) }.defer d 2)

/-- The exception node of a permanent context (R654). -/
def permanentNode (c : Nat) : Nat := if c = 0 then 0x10 else if c ≤ 128 then 0x100 + (c - 1) else 0x180 + (c - 129)

/-- A permanent context takes the budget of its exception node in the active slot (R654). DESIGN CHOICE (log 87): of a descriptor
that cannot be read, the budget is a free value. -/
def Blade.permanentBudget (x : Memory × Blade) (c : Nat) : Memory × Blade :=
  let slotB := x.2.led.activeSlotB
  let n := permanentNode c
  let r := x.2.readDesc x.1 slotB n
  if r.2.descLost r.1 slotB n then
    let d := (r.2.noteLost slotB (BitVec.ofNat 20 n)).draw 8
    (r.1, d.2.modCtx c fun y => { y with budget := BitVec.ofNat 3 d.1 })
  else (r.1, r.2.modCtx c fun y => { y with budget := BitVec.ofNat 3 (r.1.desc slotB n).budget })

/-- All of them do. -/
def Blade.permanentBudgets (b : Blade) (m : Memory) : Memory × Blade := (List.range 256).foldl Blade.permanentBudget (m, b)

/-- ACTIVE_SLOT_CHANGE: the tick after a graph activation (R590). DESIGN CHOICE (log 81): the records of contexts 0 to 255 keep
the image-slot bit they have. -/
def Blade.changeSlot (b : Blade) (m : Memory) : Memory × Blade :=
  match b.led.slotChange with
  | some (slotB, f) =>
    if f = b.frame then (m, b)
    else
      let r := { b with led.slotChange := none, led.activeSlotB := slotB }.permanentBudgets m
      (r.1, r.2.finishDeferred 0x22 stOK)
  | none => (m, b)

def execActiveSlotChange (s : State) : Result := s.after (s.blade.changeSlot s.mem)

/-- The inactive firmware slot takes an image, to boot next on trial (R591, R601). -/
def Blade.keepFirmware (b : Blade) (img : List Byte) : Blade :=
  let slotB := !b.hw.boot.confirmedB
  let b := b.setReg (rPWR + 0xC + 4 * b2n slotB) (w32 (fieldAt img 8 4))
  { b with hw.nor := mput [] (b2n slotB) img b.hw.nor, hw.boot.preferredB := slotB, hw.boot.trialCount := 1 }

/-- Firmware is activated: the image store takes it too (R591). -/
def Blade.storeFirmware (b : Blade) (img : List Byte) : Blade := (b.storeImage 1 img).keepFirmware img

/-! ## Activating a microcode image (Table 9.13) -/

/-- The activation ends and is answered. -/
def Blade.endActivation (b : Blade) (st : Nat) : Blade := { b with eng.activation := none }.finishDeferred 0x22 st

/-- Steps 4 to 6: the words are checked again, the cluster is loaded, hoisted, and no longer quiescing. -/
def Blade.loadNow (b : Blade) (m : Memory) (c : ClusterId) : Bool × Memory × Blade :=
  let r := b.readStaged m
  let b := r.blade.modCluster c.val fun x => { x with quiescing := false }
  if !r.lost && microWordsValid r.bytes then
    let b := b.loadCluster c.val (microImage r.bytes)
    (true, r.mem, { b.setStruck (fnCluster c.val) false with csr.striking := b.csr.striking.filter (· ≠ fnCluster c.val) })
  else (false, r.mem, b)

/-- The next clusters of an activation: those struck by a fault are loaded at once (R422), the first other begins to quiesce;
after the last one the activation ends (R417, R418, R589). -/
def Blade.nextClusters : List ClusterId → ReplyTo → Memory × Blade → Memory × Blade
  | [], _, (m, b) =>
    let img := b.stagedImage m
    (m, ({ b with eng.microcode := some (microImage img) }.storeImage 3 img).endActivation stOK)
  | c :: rest, d, (m, b) =>
    if b.domainOff (fnCluster c.val) then (m, b.endActivation stFAILED)
    else if (b.cluster c.val).faultStruck then
      let b := (List.finRange 16).foldl (fun b h => b.clearHalyard c h) b
      let r := b.loadNow m c
      if r.1 then Blade.nextClusters rest d r.2 else (r.2.1, r.2.2.endActivation stFAILED)
    else (m, { b.modCluster c.val fun x => { x with quiescing := true } with
                 eng.activation := some { clusters := c :: rest, dest := d } })

/-- ACTIVATE_IMAGE of the staged microcode image; whether a joined standby's own verification fails is a free value
(R589). -/
def Blade.activateMicrocode (b : Blade) (m : Memory) (r : Request) (d : ReplyTo) : Memory × Blade :=
  let refused := if b.joined then b.draw 2 else (0, b)
  if refused.1 = 1 then (m, refused.2.answer d stFAILED)
  else
    let cs := (List.finRange 8).filter fun c => bitOf (rqField r 2 1) c.val
    let b := refused.2.tellStandby (.activate 3 false (BitVec.ofNat 8 (rqField r 2 1)))
    Blade.nextClusters cs d (m, b.defer d 3)

/-- ACTIVATE_IMAGE: the kind that the request names, staged and verified, and still readable. -/
def Blade.activateImage (b : Blade) (m : Memory) (r : Request) (d : ReplyTo) : Memory × Blade :=
  let kind := rqField r 0 1
  if !b.stagedGood kind then (m, b.answer d stFAILED)
  else
    let x := b.readStaged m
    if x.lost then (x.mem, x.blade.answer d stFAILED)
    else if kind = 1 then (x.mem, ((x.blade.storeFirmware x.bytes).tellStandby (.activate 1 false 0)).answer d stOK)
    else if kind = 2 then x.blade.activateGraph x.mem x.bytes r d
    else x.blade.activateMicrocode x.mem r d

def opActivate : Opcode := { Opcode.plain 0x22 false with deferred := true }

def execActivateImageGraph (r : Request) (s : State) : Result :=
  s.after (s.blade.command s.mem opActivate r (r.length = 4) fun b d => b.activateImage s.mem r d)

def execActivateImageMicrocode (r : Request) (s : State) : Result :=
  s.after (s.blade.command s.mem opActivate r (r.length = 4) fun b d => b.activateImage s.mem r d)

def execActivateImageFirmware (r : Request) (s : State) : Result :=
  s.after (s.blade.command s.mem opActivate r (r.length = 4) fun b d => b.activateImage s.mem r d)

/-- A halyard is quiet (Table 9.13 step 2). -/
def Blade.halyardQuiet (b : Blade) (c : ClusterId) (h : HalyardId) : Bool :=
  let y := b.halyard (laneNo c h)
  let who : Requester := .halyard c h
  y.yielded && y.rxOpen.isNone && y.txOpen.isNone && b.openCount (.requester who) = 0 &&
    !b.pool.cursors.any fun x => x.who = who

/-- CLUSTER_QUIET: every halyard of the cluster that an activation waits for is quiet. -/
def Blade.clusterQuiet (b : Blade) (m : Memory) (c : ClusterId) : Memory × Blade :=
  match b.eng.activation with
  | some a =>
    if a.clusters.head? = some c && (List.finRange 16).all (b.halyardQuiet c) then
      let r := b.loadNow m c
      if r.1 then Blade.nextClusters a.clusters.tail a.dest (r.2.1, { r.2.2 with eng.activation := none })
      else (r.2.1, r.2.2.endActivation stFAILED)
    else (m, b)
  | none => (m, b)

def execClusterQuiet (c : ClusterId) (s : State) : Result := s.after (s.blade.clusterQuiet s.mem c)

/-- QUIESCE_TIMEOUT: 250 µs have passed (R418). -/
def Blade.quiesceTimeout (b : Blade) (c : ClusterId) : Blade :=
  match b.eng.activation with
  | some a =>
    if a.clusters.head? = some c then (b.modCluster c.val fun x => { x with quiescing := false }).endActivation stFAILED
    else b
  | none => b

def execQuiesceTimeout (c : ClusterId) (s : State) : Result := s.afterBlade (s.blade.quiesceTimeout c)

end Sys2Proof.Machine
end

