-- ==== Sys2Proof/Machine/Sweep.lean ====
section
/-! DEFINITION. The sweep (R321 to R333): marches, borrows and live repairs of the shared SRAM; and the scrub of DRAM
(R316). -/

namespace Sys2Proof.Machine

/-! ## Destructive marches (R324) -/

/-- MARCH_END: a destructive march ends (R324, R329). -/
def Blade.marchEnd (b : Blade) (ws : List MarchWord) : Blade :=
  match b.bank.march with
  | some r =>
    if !bitOf r.word.toNat 6 then b
    else
      let fails := marchFails (bits r.word.toNat 7 2) (marchBackgrounds r.word) ws
      let x := ({ b with bank.march := none } : Blade).marchResult r.bank.val fails (bitOf r.word.toNat 13)
      if r.dest.isSome then x.2.finishDeferred 0x33 (if x.1 then stFAILED else stOK) else x.2
  | none => b

def execMarchEnd (words : List MarchWord) (s : State) : Result := s.afterBlade (s.blade.marchEnd words)

/-! ## The MARCH command (R328, R329) -/

/-- The requested march on a bank is aborted; the command of a destructive one has failed. -/
def Blade.marchAbort (b : Blade) (bank : Nat) (d : ReplyTo) : Blade :=
  if b.bank.march.any fun r => r.bank.val = bank then b.stopMarch.answer d stOK else b.answer d stALREADY_COMPLETE

/-- A march is requested: a preserving pass is answered as it starts, a destructive march when it ends. DESIGN CHOICE (log 87): BUSY
(R483) comes before the other statuses. -/
def Blade.marchStart (b : Blade) (w : Word32) (d : ReplyTo) : Blade :=
  let st := b.marchCheck w
  if b.deferBusy 0x33 then b.answer d stBUSY
  else if st ≠ stOK then b.answer d st
  else if bitOf w.toNat 6 then (b.startMarch w (some d)).defer d (bits w.toNat 0 6)
  else (b.startMarch w none).answer d stOK

def Blade.marchCommand (b : Blade) (r : Request) (d : ReplyTo) : Blade :=
  let w := w32 (rqField r 0 4)
  if bitOf w.toNat 31 then b.marchAbort (bits w.toNat 0 6) d else b.marchStart w d

def execMarch (r : Request) (s : State) : Result :=
  s.after (s.blade.bladeCommand s.mem (.plain 0x33 true) r (r.length = 4) fun b d => b.marchCommand r d)

def execMarchAbort (r : Request) (s : State) : Result :=
  s.after (s.blade.bladeCommand s.mem (.plain 0x33 true) r (r.length = 4) fun b d => b.marchCommand r d)

/-! ## Borrows (R325 to R327) -/

/-- The borrows of a pass of a bank: 16 for each data row and for each unmapped spare row. -/
def Blade.borrows (b : Blade) (bank : Nat) : Nat := 8192 + 16 * (4 - b.sparesUsed bank)

/-- The row that a borrow of a bank tests: a data row, or the unmapped spare row that follows. DESIGN CHOICE (log 87): rows in
ascending order, 16 half lines each. -/
def Blade.borrowRow (b : Blade) (bank i : Nat) : Nat :=
  if i < 8192 then
    match b.spareOf bank (i / 16) with
    | some s => 512 + s
    | none => i / 16
  else
    512 + (((List.range 4).filter fun s => !b.flag (rREPAIR bank s) 9).getD ((i - 8192) / 16) 0)

/-- Where a row's byte is kept. -/
def rowByte (bank row off : Nat) : Nat := if row < 512 then sramAddr bank row off else spareBase bank (row - 512) + off

/-- The line a byte's correction is reported at. -/
def sweepAddr (bank i : Nat) : Nat := sramAddr bank (i / 16 % 512) (i % 16 * 32)

/-- A borrow restores the four words of a half line, a single-bit error corrected (R326). -/
def Blade.restoreHalf (b : Blade) (m : Memory) (bank row i : Nat) : Memory × Blade :=
  (List.range 4).foldl (fun (x : Memory × Blade) w =>
    let k := rowByte bank row (i % 16 * 32 + 8 * w)
    if x.1.mark k = .single then (x.1.setMark k .sound, x.2.noteCorrected (sweepAddr bank i + 8 * w)) else x) (m, b)

/-- A failing row of a preserving pass is repaired live (R330, R332): a failing spare row is bad, and the row it is mapped
for is repaired again. -/
def Blade.beginRepair (b : Blade) (bank row : Nat) : Blade :=
  let b := if 512 ≤ row then b.spareBad bank (row - 512) else b
  let mapped : Option Nat := if row < 512 then some row
    else if b.flag (rREPAIR bank (row - 512)) 9 then some (b.field (rREPAIR bank (row - 512)) 0 9) else none
  match mapped with
  | none => b
  | some r =>
    match b.freeSpare bank with
    | some s =>
      { b with bank.repair := some { bank := ⟨bank % 64, Nat.mod_lt _ (by decide)⟩, row := ⟨r % 512, Nat.mod_lt _ (by decide)⟩,
                                     spare := ⟨s % 4, Nat.mod_lt _ (by decide)⟩, copied := 0 } }
    | none => b.noSpare bank

/-- What the read of a complement returns of its 72 bits: it fails where they differ from the complement written (R322, R326).
`x` is the word as read, `wrong` the bits that do not come back as written. -/
def complementFails (x wrong : BitVec 72) : Bool := (~~~x ^^^ wrong) ≠ ~~~x

/-- The words of a half line that fail the test. The check bits of a stored word are no part of the model; the test does not
depend on them. -/
def failingWords (m : Memory) (bank row i : Nat) (wrong : List (BitVec 72)) : List Nat :=
  (List.range 4).filter fun w =>
    complementFails (BitVec.ofNat 72 (m.nat (rowByte bank row (i % 16 * 32 + 8 * w)) 8)) (wrong.getD w 0)

/-- One borrow of a bank: each of its four words is read, written complemented, read and restored (R326). -/
def Blade.borrow (b : Blade) (m : Memory) (bank i : Nat) (wrong : List (BitVec 72)) : Memory × Blade :=
  let row := b.borrowRow bank i
  let bad := failingWords m bank row i wrong
  let r := b.restoreHalf m bank row i
  if bad.isEmpty then r
  else
    let b := bad.foldl (fun b w =>
      b.logFail bank { row := ⟨row % 516, Nat.mod_lt _ (by decide)⟩, line := BitVec.ofNat 3 (i % 16 / 2),
                       word := BitVec.ofNat 3 (i % 2 * 4 + w) } false false) r.2
    (r.1, if b.flag rMARCH 1 then b.beginRepair bank row else b)

/-- The place of the background pass moves on (Table 7.24); past the last hoisted bank a pass is complete. -/
def Blade.nextBorrow (b : Blade) (bank i : Nat) : Blade :=
  if i + 1 < b.borrows bank then b.setReg (rMARCH + 0xC) (pack [(0, 6, bank), (6, 14, i + 1)])
  else
    let k := (b.sweepBank ((bank + 1) % 64)).getD bank
    let b := b.setReg (rMARCH + 0xC) (pack [(0, 6, k)])
    if k ≤ bank then b.count (rMARCH + 0x10) else b

/-! ## Live repair (R330, R331) -/

/-- One word of a row is copied to the spare row, with correction. -/
def Blade.copyWord (bank row spare : Nat) (x : Memory × Blade) (w : Nat) : Memory × Blade :=
  let a := sramAddr bank row (8 * w)
  let r := x.2.loadWord x.1 a
  let k := spareBase bank spare + 8 * w
  ((r.mem.write k (leBytes 8 r.value.toNat)).setMark k (if r.poison then .poison else .sound), r.blade)

/-- A borrow of a live repair copies its next line (R330). -/
def Blade.copyLine (b : Blade) (m : Memory) (r : LiveRepair) : Memory × Blade :=
  let x := (List.range 8).foldl (fun x w => Blade.copyWord r.bank.val r.row.val r.spare.val x (8 * r.copied + w)) (m, b)
  (x.1, { x.2 with bank.repair := some { r with copied := r.copied + 1 } })

/-- The lines that are left, in order. -/
def Blade.copyLines : Nat → Memory × Blade → Memory × Blade
  | 0, x => x
  | n + 1, x =>
    match x.2.bank.repair with
    | some r => if r.copied < 8 then Blade.copyLines n (x.2.copyLine x.1 r) else x
    | none => x

/-- LIVE_REPAIR_COMPLETE: line 7 is copied and the mapping recorded. -/
def Blade.repairDone (b : Blade) (m : Memory) : Memory × Blade :=
  match b.bank.repair with
  | some r =>
    let k := r.bank.val
    let x := Blade.copyLines 8 (m, b)
    let b := { x.2 with bank.repair := none }
    (x.1, (b.mapRow k r.row.val r.spare.val).logRepaired k r.row.val)
  | none => (m, b)

def execLiveRepairComplete (s : State) : Result := s.after (s.blade.repairDone s.mem)

/-- SWEEP_BORROW: the next borrow of a live repair, but for its last; or of the requested preserving pass; or of the background
pass (R327, R328, R330). -/
def Blade.sweepBorrow (b : Blade) (m : Memory) (wrong : List (BitVec 72)) : Memory × Blade :=
  if b.flt.fenced then (m, b)
  else
    match b.bank.repair with
    | some r => if r.copied < 7 then b.copyLine m r else (m, b)
    | none =>
      match b.bank.march with
      | some r =>
        if bitOf r.word.toNat 6 then (m, b)
        else
          let k := r.bank.val
          let march := if r.borrow + 1 < b.borrows k then some { r with borrow := r.borrow + 1 } else none
          { b with bank.march := march }.borrow m k r.borrow wrong
      | none =>
        if b.backgroundRuns then
          let k := b.sweepPlace.1
          let b' := if k < b.field (rMARCH + 0xC) 0 6 then b.count (rMARCH + 0x10) else b
          (b'.nextBorrow k b.sweepPlace.2).borrow m k b.sweepPlace.2 wrong
        else (m, b)

def execSweepBorrow (r : BorrowReads) (s : State) : Result := s.after (s.blade.sweepBorrow s.mem [r.w0, r.w1, r.w2, r.w3])

/-! ## The DRAM scrub (R316, Table 7.15) -/

/-- DRAM_SCRUB: the next word of DRAM is read and written back corrected. -/
def Blade.dramScrub (b : Blade) (m : Memory) : Memory × Blade :=
  if b.flag (rMEM + 4) 8 && !b.flt.fenced then
    let i := b.field (rMEM + 8) 0 30
    let r := b.loadWord m (dramBase + 8 * i)
    (r.mem, r.blade.setReg (rMEM + 8) (w32 ((i + 1) % 2 ^ 30)))
  else (m, b)

def execDramScrub (s : State) : Result := s.after (s.blade.dramScrub s.mem)

end Sys2Proof.Machine
end

