-- ==== Sys2Proof/Machine/Mirror.lean ====
section
/-! DEFINITION. The mirror engine: what the active blade logs of its units and memories (R563), and what a write of its log
leaves at a standby (R566, R581). -/

namespace Sys2Proof.Machine

/-! ## Firing records (R365, R578) -/

/-- Entries of two ready queues in the order of their ages. -/
def byAge : List ReadyEntry → List ReadyEntry → List ReadyEntry
  | xs, [] => xs
  | xs, y :: ys => byAge (insertAge y xs) ys
where
  insertAge (y : ReadyEntry) : List ReadyEntry → List ReadyEntry
    | [] => [y]
    | x :: xs => if x.age ≤ y.age then x :: insertAge y xs else y :: x :: xs

/-- The executing firing's record: it goes back to its entry state, its packets rewound, its claims and contexts given back
(R365, R578, R299). Its run is charged with the one that follows it (R269). -/
def Blade.firingRecord (b : Blade) (m : Memory) (t : TileId) (f : Firing) : Firing × Blade :=
  let who := Requester.tile t
  let b := ((b.rewindAll (.requester who) false).unclaim who).undoOpens f
  let b := (b.disarm (.tile t)).modTile t.val fun x => { x with firing := none }
  let d := b.draw (2 ^ 32)
  ({ d.2.newFiring m { tokens := f.inputs, age := 0, unreadable := false } with spent := f.spent + d.1 },
    d.2.count64 (rSCHED + 0x400 + 8 * t.val) d.1)

/-! ## Tiles by logical number (R559, R581) -/

/-- An array whose index counts tiles in its higher part, with other tiles in their place. -/
def byTile {α : Type} (f : Nat → Nat) (width : Nat) (l : SMap α) : SMap α :=
  l.foldl (fun s e => minsert (f (e.1 / width) * width + e.1 % width) e.2 s) []

/-- This blade's tile of a logical number (R559). -/
def Blade.physicalTile (b : Blade) (k : Nat) : Nat := b.pair.logical.getD (k % 34) (k % 34)

/-- The logical number of this blade's tile. -/
def Blade.logicalTile (b : Blade) (t : Nat) : Nat := b.pair.logical.idxOf t

/-- A tile's number, as a LOG block carries it. -/
def tileNo (k : Nat) : TileId := ⟨k % 34, Nat.mod_lt _ (by decide)⟩

/-- What one tile and its slice hold passes to another: the ready queues in the order of their ages, the sets joined, tokens that
wait before those of the target (R155, R578, Table 3.6). -/
def Net.mergeInto (n : Net) (k target : Nat) : Net :=
  let x := mget Tile.init k n.tiles
  let y := mget Tile.init target n.tiles
  let mine := n.sets.filter fun e => e.1 / 512 = k
  let locks := mine.flatMap fun e => match e.2.lock with
    | some (.search t) => [t]
    | _ => []
  let tile := { y with ready := byAge y.ready x.ready, reruns := y.reruns ++ x.reruns, waiting := locks ++ x.waiting ++ y.waiting }
  let sets := mine.foldl (fun s e =>
    let i := setKey target (e.1 % 512)
    mput MatchSet.init i (e.2.join (mget MatchSet.init i s)) s) (n.sets.filter fun e => e.1 / 512 ≠ k)
  { n with
    tiles := mput Tile.init target tile (mput Tile.init k Tile.init n.tiles), sets := sets,
    home := mput [] target (mget [] target n.home ++ mget [] k n.home) (mput [] k [] n.home) }

/-- The same by logical numbers: the tiling follows, and the higher numbers move down by one (R581). -/
def Net.mergeLogical (n : Net) (k target : Nat) : Net :=
  let down := fun i => if k < i then i - 1 else i
  let n := n.mergeInto k target
  let tiling := (List.range 256).foldl (fun l i =>
    let x := mget 0 i n.tiling
    mput 0 i (down (if x = k then target else x)) l) []
  { n with tiling := tiling, tiles := byTile down 1 n.tiles, home := byTile down 1 n.home, sets := byTile down 512 n.sets }

/-- A standby merges its own tile of one logical number into that of another, as the active blade has done (R581). -/
def Blade.mergeTile (b : Blade) (k target : Nat) : Blade :=
  let p := b.physicalTile k
  { b.setStruck (fnTile p) true with
    net.activeTiles := b.net.activeTiles &&& ~~~BitVec.ofNat 34 (2 ^ p), pair.logical := b.pair.logical.eraseIdx k,
    pair.held := { b.pair.held with net := b.pair.held.net.mergeLogical k target } }

/-! ## What a LOG block's write leaves in a standby's copy -/

/-- What a write of a unit's state leaves in a standby's copy (Table 13.4). -/
def Held.apply (h : Held) : LogWrite → Held
  | .context c v => { h with led.contexts := mput Ctx.init c.toNat v h.led.contexts }
  | .freeContexts v => { h with led.free := v }
  | .trail v => { h with led.trail := v }
  | .graphSlot v => { h with led.activeSlotB := v }
  | .parked c v => { h with led.parked := mput ParkImage.init c.toNat v h.led.parked }
  | .parking v r => { h with led.parking := v, led.parkRequests := r }
  | .tile k v => { h with net.tiles := mput Tile.init k.val v h.net.tiles }
  | .arriving k v => { h with net.home := mput [] k.val v h.net.home }
  | .matchSet k s v => { h with net.sets := mput MatchSet.init (setKey k.val s.val) v h.net.sets }
  | .release v => { h with net.release := v }
  | .delayInput v => { h with net.delayIn := v }
  | .flow f v => { h with ord.flows := mput Flow.init f.toNat v h.ord.flows }
  | .freeFlows v k n => { h with ord.free := v, ord.booked := k, ord.headBooked := n }
  | .delayList n v => { h with ord.delays := mput DelayList.init n.val v h.ord.delays }
  | .semaphore n v => { h with semaphores := mput Semaphore.init n.val v h.semaphores }
  | .packet i v => { h with pool.packets := mput Packet.none i v h.pool.packets }
  | .queueState q v => { h with pool.queues := mput (queueInit q.toNat) q.toNat v h.pool.queues }
  | .freeCells v n => { h with pool.free := v, pool.next := n }
  | .cursors v => { h with pool.cursors := v }
  | .waitingStores v => { h with pool.waiting := v }
  | .port44 v => { h with net.port44 := v }
  | .halyard l v => { h with lan.halyards := mput Halyard.init l.val v h.lan.halyards }
  | .lanePort l v => { h with lan.ports := mput LanePort.init l.val v h.lan.ports }
  | .injector c n =>
    { h with lan.clusters := mput Cluster.init c.val { mget Cluster.init c.val h.lan.clusters with injectNext := n } h.lan.clusters }
  | .channel k v => { h with channels := mput Channel.init k.val v h.channels }
  | .journal r =>
    { h with journal := if h.journal.any (·.id = r.id) then h.journal.map fun x => if x.id = r.id then r else x else h.journal ++ [r] }
  | .journalWritten n => { h with journal := h.journal.filter (·.id ≠ n) }
  | .stamp _ => h
  | .memory _ _ => h
  | .poison _ => h
  | .register _ _ => h
  | .mergeTile _ _ => h

/-! ## What the active blade logs -/

/-- The indices at which two arrays differ, with what the second holds there. -/
def changed {α : Type} [DecidableEq α] (d : α) (old new : SMap α) : List (Nat × α) :=
  let ks := mkeys (fun _ _ => true) new ++ (mkeys (fun _ _ => true) old).filter fun k => mget d k new = d
  (ks.map fun k => (k, mget d k new)).filter fun e => mget d e.1 old ≠ e.2

/-- The queues at which two arrays differ. -/
def changedQueues (old new : SMap Queue) : List (Nat × Queue) :=
  let ks := mkeys (fun _ _ => true) new ++ (mkeys (fun _ _ => true) old).filter fun k => mget (queueInit k) k new = queueInit k
  (ks.map fun k => (k, mget (queueInit k) k new)).filter fun e => mget (queueInit e.1) e.1 old ≠ e.2

/-- A write, where something has changed. -/
def logIf (differs : Bool) (w : LogWrite) : List LogWrite := if differs then [w] else []

/-- The writes that turn the token network, the tiles and the slices into others. -/
def Net.changes (old new : Net) : List LogWrite :=
  ((changed Tile.init old.tiles new.tiles).map fun e => .tile (tileNo e.1) e.2) ++
  ((changed [] old.home new.home).map fun e => .arriving (tileNo e.1) e.2) ++
  ((changed MatchSet.init old.sets new.sets).map fun e =>
    .matchSet (tileNo (e.1 / 512)) ⟨e.1 % 512, Nat.mod_lt _ (by decide)⟩ e.2) ++
  logIf (old.release ≠ new.release) (.release new.release) ++ logIf (old.delayIn ≠ new.delayIn) (.delayInput new.delayIn) ++
  logIf (old.port44 ≠ new.port44) (.port44 new.port44)

/-- The writes that turn the contexts and the ledger into others. -/
def Ledger.changes (old new : Ledger) : List LogWrite :=
  ((changed Ctx.init old.contexts new.contexts).map fun e => .context (BitVec.ofNat 16 e.1) e.2) ++
  logIf (old.free ≠ new.free) (.freeContexts new.free) ++ logIf (old.trail ≠ new.trail) (.trail new.trail) ++
  logIf (old.activeSlotB ≠ new.activeSlotB) (.graphSlot new.activeSlotB) ++
  ((changed ParkImage.init old.parked new.parked).map fun e => .parked (BitVec.ofNat 16 e.1) e.2) ++
  logIf (old.parking ≠ new.parking || old.parkRequests ≠ new.parkRequests) (.parking new.parking new.parkRequests)

/-- The writes that turn flows, reorder buffer and delay lists into others. -/
def Order.changes (old new : Order) : List LogWrite :=
  ((changed Flow.init old.flows new.flows).map fun e => .flow (BitVec.ofNat 12 e.1) e.2) ++
  logIf (old.free ≠ new.free || old.booked ≠ new.booked || old.headBooked ≠ new.headBooked)
    (.freeFlows new.free new.booked new.headBooked) ++
  ((changed DelayList.init old.delays new.delays).map fun e => .delayList ⟨e.1 % 4, Nat.mod_lt _ (by decide)⟩ e.2)

/-- The writes that turn the queue pool into another. -/
def Pool.changes (old new : Pool) : List LogWrite :=
  ((changed Packet.none old.packets new.packets).map fun e => .packet e.1 e.2) ++
  ((changedQueues old.queues new.queues).map fun e => .queueState (BitVec.ofNat 14 e.1) e.2) ++
  logIf (old.free ≠ new.free || old.next ≠ new.next) (.freeCells new.free new.next) ++
  logIf (old.cursors ≠ new.cursors) (.cursors new.cursors) ++ logIf (old.waiting ≠ new.waiting) (.waitingStores new.waiting)

/-- The writes that turn the halyards, the lane ports and the injectors into others. -/
def Lanes.changes (old new : Lanes) : List LogWrite :=
  ((changed Halyard.init old.halyards new.halyards).map fun e => .halyard ⟨e.1 % 128, Nat.mod_lt _ (by decide)⟩ e.2) ++
  ((changed LanePort.init old.ports new.ports).map fun e => .lanePort ⟨e.1 % 128, Nat.mod_lt _ (by decide)⟩ e.2) ++
  (List.finRange 8).flatMap fun c =>
    let n := (mget Cluster.init c.val new.clusters).injectNext
    logIf ((mget Cluster.init c.val old.clusters).injectNext ≠ n) (.injector c n)

/-- The writes that turn the journal staging into another. -/
def journalChanges (old new : List StagedRecord) : List LogWrite :=
  ((old.filter fun r : StagedRecord => !new.any fun x => x.id = r.id).map fun r : StagedRecord => .journalWritten r.id) ++
  (new.filter fun r => !old.contains r).map .journal

/-- The writes that turn one copy of the units into another. -/
def Held.changes (old new : Held) : List LogWrite :=
  old.net.changes new.net ++ old.led.changes new.led ++ old.ord.changes new.ord ++
  ((changed Semaphore.init old.semaphores new.semaphores).map fun e => .semaphore ⟨e.1 % 1024, Nat.mod_lt _ (by decide)⟩ e.2) ++
  old.pool.changes new.pool ++ old.lan.changes new.lan ++
  ((changed Channel.init old.channels new.channels).map fun e => .channel ⟨e.1 % 32, Nat.mod_lt _ (by decide)⟩ e.2) ++
  journalChanges old.journal new.journal

/-- An address of the regions that a standby holds: the SRAM, and the DRAM but for the firmware working region and image staging
(Table 13.4). -/
def mirroredAddress (a : Nat) : Bool :=
  a < sramSize || (dramBase + 0x10000000 ≤ a && a < dramEnd && !(imageStagingBase ≤ a && a < dramBase + 0x80000000))

/-- The address whose byte a place keeps, if it keeps one that the standby holds. -/
def Blade.addressOf (b : Blade) (k : Nat) : Option Nat :=
  let rows := if k < sramSize then [k]
    else if k < 2 ^ 48 then [k]
    else
      let i := (k - 2 ^ 48) / 512
      let off := (k - 2 ^ 48) % 512
      let row := b.field (rREPAIR (i / 4) (i % 4)) 0 9
      sramAddr (i / 4) row off :: (b.bank.repair.toList.map fun r => sramAddr r.bank.val r.row.val off)
  rows.find? fun a => b.place a = k && mirroredAddress a

/-- The writes that turn one memory into another; a word that has been poisoned is marked after its bytes. -/
def Blade.memoryChanges (b : Blade) (old new : Memory) : List LogWrite :=
  let poison := fun m : Memory => m.marks.filter fun e => e.2 = .poison
  let bytes : List (Nat × Byte) := changed 0 old.cells new.cells
  let marks : List Nat := (changed WordMark.sound (poison old) (poison new)).map (·.1)
  let touched := (bytes.map (fun e : Nat × Byte => e.1 / 8) ++ marks).filter fun w => new.mark (8 * w) = WordMark.poison
  let at' := fun (k : Nat) (w : BitVec 48 → LogWrite) => ((b.addressOf k).map fun a => w (BitVec.ofNat 48 a)).toList
  (bytes.flatMap fun e => at' e.1 (.memory · e.2)) ++
  (marks.flatMap fun w => at' (8 * w) (.memory · (new.byte (8 * w)))) ++
  (touched.flatMap fun w => at' (8 * w) .poison)

/-- The blade with every firing that has not reached END back at its entry state (R38, R563). -/
def Blade.atRest (b : Blade) (m : Memory) : Blade :=
  (List.finRange 34).foldl (fun b t => match (b.tile t.val).firing with
    | some f =>
      let r := b.firingRecord m t f
      r.2.modTile t.val fun x => { x with reruns := r.1 :: x.reruns }
    | none => b) b

/-- The token network as a standby sees it: what a retirement in progress still has to move is with its target, and the tiles go
by their logical numbers. -/
def Blade.logicalNet (b : Blade) : Net :=
  let n : Net := match b.net.migration with
    | some g =>
      let n := b.net.mergeInto g.source.val g.target.val
      { n with home := mput [] g.target.val (mget [] g.target.val n.home ++ b.net.barrierHeld.map (·.2)) n.home }
    | none => b.net
  let mine := fun t : Nat => b.pair.logical.contains t
  { b.pair.held.net with
    tiles := byTile b.logicalTile 1 (n.tiles.filter fun e => mine e.1),
    home := byTile b.logicalTile 1 (n.home.filter fun e => mine e.1),
    sets := byTile b.logicalTile 512 (n.sets.filter fun e => mine (e.1 / 512)),
    release := n.release, delayIn := n.delayIn, port44 := n.port44 }

/-- The units of the active blade as a standby would hold them (Table 13.4). -/
def Blade.heldNow (b : Blade) : Held :=
  { net := b.logicalNet, led := b.led, ord := b.ord, semaphores := b.bank.semaphores, pool := b.pool, lan := b.lan,
    channels := b.eng.channels, journal := b.hw.journal }

/-- The LOG of a frame leaves for the standby at its tick (R563): what has changed since the last one. How many bytes its blocks
have is a free value. -/
def Blade.logFrame (b : Blade) (m : Memory) (f : Word32) : Blade :=
  if b.active && b.mirrors then
    let now := (b.atRest m).heldNow
    let writes := b.pair.held.changes now ++ b.memoryChanges b.pair.logged m ++ [.stamp b.eng.stamp]
    let d := b.draw (2 ^ 32)
    { d.2.count64 (rTOGGLE + 0x38) d.1 with pair.held := now, pair.logged := m }.sendOver (.log f writes)
  else b

/-- A retirement under R155 on the active blade changes the logical tiling, and its standby's with it (R581). -/
def Blade.logMerge (b : Blade) (t target : Nat) : Blade :=
  if b.active && b.mirrors then
    let k := b.logicalTile t
    let j := b.logicalTile target
    { b with pair.logical := b.pair.logical.filter (· ≠ t),
             pair.held := { b.pair.held with net := b.pair.held.net.mergeLogical k j } }.sendOver
      (.log b.frame [.mergeTile (tileNo k) (tileNo j)])
  else b

end Sys2Proof.Machine
end

