-- ==== Sys2Proof/Machine/Retire.lean ====
section
/-! DEFINITION. Tile retirement (R153 to R156, R577 to R581). -/

namespace Sys2Proof.Machine

/-! ## The target (R155, R577) -/

def Blade.activeTile (b : Blade) (t : Nat) : Bool := b.net.activeTiles.getLsbD t

/-- How often the tiling names a tile. -/
def Blade.named (b : Blade) (t : Nat) : Nat := ((List.range 256).filter fun i => b.tiling i = t).length

/-- The rarer named of two tiles, the first among equals. -/
def Blade.rarer (b : Blade) (s t : Nat) : Nat := if b.named t < b.named s then t else s

/-- The active tile that the tiling names most rarely, the retiring one aside. -/
def Blade.rarest (b : Blade) (t : Nat) : Option Nat :=
  match (List.range 34).filter fun x => x ≠ t && b.activeTile x with
  | [] => none
  | x :: r => some (r.foldl b.rarer x)

def Blade.spareTile (b : Blade) : Option Nat :=
  if b.net.spareValid.getLsbD 0 then some 32 else if b.net.spareValid.getLsbD 1 then some 33 else none

def Blade.retireTarget (b : Blade) (t : Nat) : Option Nat :=
  match b.spareTile with
  | some x => some x
  | none => b.rarest t

/-- The pair of a retirement's target is switched on first; a spare that then fails its self-test is no target any more
(R616, R617). -/
def Blade.wakeTarget (b : Blade) (t : Nat) : Blade :=
  match b.retireTarget t with
  | some x => b.domainRequest (8 + x / 2) true
  | none => b

/-! ## What moves (Table 3.6, R578, R579) -/

/-- The firing records of a tile, those that cannot be read lost with their sequences (R579). -/
def Blade.takeRecords (b : Blade) (m : Memory) (t : TileId) (lost : Bool) : List Firing × Blade :=
  let x := b.tile t.val
  let b := b.modTile t.val fun x => { x with reruns := [] }
  let r : List Firing × Blade := match x.firing with
    | some f =>
      let r := b.firingRecord m t f
      (r.1 :: x.reruns, r.2)
    | none => (x.reruns, b)
  if lost then
    ([], r.1.foldl (fun b f =>
      let b := f.inputs.foldl (fun b i => b.discard m { i with ordered := false } discardLOST_STORAGE) b
      match f.heldSequence with
      | some (fl, s) => b.retireSequence fl s
      | none => b) r.2)
  else r

/-! ## Retirement -/

/-- A standby gives up its state (Table 13.1), and says so to its partner. What the partner showed of itself counts no longer
(R559). -/
def Blade.becomeUnjoined (b : Blade) : Blade :=
  if b.pair.role = .standby then
    let b := if b.joined then b.refuseHandOver else b
    { b with pair.duplex := .unjoined, pair.inbound := [], pair.log := [], pair.applying := [], pair.joinRetry := false,
             pair.detected := false, pair.unsent := [] }.sendRole .unjoined
  else b

/-- A retirement begins: its ready queue and firing records move to the target (R578), and the redirect barrier stands until
nothing is on its way to the tile; then its sets follow, one by one (Table 3.6). `failed` says that its logic has failed, so
that what is read over its test path may be lost. DESIGN CHOICE (log 87): two queues merge by age however long they become. -/
def Blade.retire (b : Blade) (m : Memory) (t : TileId) (target : Nat) (failed : Bool) : Blade :=
  let spare := !b.activeTile target
  let d := if failed then b.draw 4 else (0, b)
  let bit := fun n : Nat => BitVec.ofNat 34 (2 ^ n)
  let b := d.2.setStruck (fnTile t.val) true
  let b := if spare then b.setStruck (fnTile target) false else b
  let b := { b with net.spareValid := if spare then b.net.spareValid &&& ~~~BitVec.ofNat 2 (2 ^ (target - 32)) else b.net.spareValid,
                    net.activeTiles := (b.net.activeTiles &&& ~~~bit t.val) ||| bit target,
                    net.retiredTiles := b.net.retiredTiles ||| bit t.val }
  let r := b.takeRecords m t (bitOf d.1 0)
  let b := r.2
  let x := b.tile t.val
  let b := b.modTile t.val fun x => { x with ready := [], prefetched := none, icache := [] }
  let b := b.modTile target fun y => { y with ready := byAge y.ready x.ready, reruns := y.reruns ++ r.1 }
  let b := (b.setField rTNET 2 6 t.val).setField rTNET 8 6 target
  let g : Migration := { source := t, target := ⟨target % 34, Nat.mod_lt _ (by decide)⟩, rerun := r.1.length, barrier := true,
                         moved := [], unreadable := bitOf d.1 1 }
  let b := { b with net.migration := some g }.endBarrier
  if spare then { b with pair.logical := b.pair.logical.map fun k => if k = t.val then target else k }
  else (b.logMerge t.val target).becomeUnjoined

/-- A tile retires, now or after the retirement in progress; the last active tile has no target and only stops. -/
def Blade.retireTile (b : Blade) (m : Memory) (t : TileId) (failed : Bool) : Blade :=
  if b.net.migration.isSome then
    { b.setStruck (fnTile t.val) true with net.retireQueue := b.net.retireQueue.filter (· ≠ t) ++ [t] }
  else
    let b := b.wakeTarget t.val
    match b.retireTarget t.val with
    | some target => b.retire m t target failed
    | none => b.setStruck (fnTile t.val) true

/-- The detail of a tile's source: its firing's codelet address, its node and that node's debug_tag (Table 12.11). -/
def Blade.tileDetail (b : Blade) (m : Memory) (t : Nat) : Word32 × Word32 × Word32 :=
  match (b.tile t).firing with
  | some f =>
    let d := m.desc f.slotB f.node.toNat
    (w32 d.codelet, w32 f.node.toNat, w32 d.debugTag)
  | none => (0, 0, 0)

/-- The logic of an active tile has failed: it retires (R577). A forced failure counts as one (R543, Table 12.7). -/
def Blade.tileFails (b : Blade) (m : Memory) (t : TileId) (forced : Bool) : Blade :=
  if b.activeTile t.val && !b.flt.fenced then
    (b.raiseWith { Assertion.plain (srcTile t.val 5) with
      forced := forced, context := (b.tile t.val).firing.map (·.context), detail := b.tileDetail m t.val }).retireTile m t true
  else b

/-- The tile whose TILE_LOGIC a source is. -/
def logicTile (s : Nat) : Option TileId :=
  let t := 4 * (s / 32 - 11) + s % 32 / 8
  if h : t < 34 then (if 11 ≤ s / 32 && s / 32 < 20 && s % 8 = 5 then some ⟨t, h⟩ else none) else none

/-- FORCED_ASSERTION: an injection in mode FORCE asserts its source at a tick, as though its condition had been found: a tile whose
logic has so failed retires (R543, R577). DESIGN CHOICE (log 87): of any other source only the assertion is made. -/
def Blade.forceAssert (b : Blade) (m : Memory) (s : Nat) : Blade :=
  if b.armed s 3 then
    let b := b.useInjection s
    match logicTile s with
    | some t => if b.activeTile t.val && !b.flt.fenced then b.tileFails m t true else b.raiseWith { Assertion.plain s with forced := true }
    | none => b.raiseWith { Assertion.plain s with forced := true }
  else b

def execForcedAssertion (source : BitVec 11) (s : State) : Result := s.afterBlade (s.blade.forceAssert s.mem source.toNat)

/-- TILE_RETIREMENT: the logic of an active tile has failed (R577). -/
def execTileRetirement (t : TileId) (s : State) : Result := s.afterBlade (s.blade.tileFails s.mem t false)

def execRetireTile (r : Request) (s : State) : Result :=
  s.after (s.blade.bladeCommand s.mem { Opcode.plain 0x32 false with deferred := true } r (r.length = 4) fun b d =>
    let n := rqField r 0 1
    if h : n < 34 then
      let t : TileId := ⟨n, h⟩
      if !b.activeTile n then b.answer d stDENIED
      else if b.net.migration.isSome then b.answer d stBUSY
      else
        let b := b.wakeTarget n
        if (b.retireTarget n).isNone then b.answer d stDENIED else (b.retireTile s.mem t false).defer d n
    else b.answer d stNO_SUCH)

/-- The sets that are left move in ascending order (Table 3.6 step 5). -/
def Blade.moveSets (b : Blade) (m : Memory) : Blade :=
  (List.range 512).foldl (fun b k => match b.net.migration with
    | some g => b.moveSet m g k 0
    | none => b) b

/-- Every set is migrated (Table 3.6 step 7). -/
def Migration.done (g : Migration) : Bool := !g.barrier && 512 ≤ g.moved.length

/-- MIGRATION_COMPLETE: the sets that are left have moved; the retirement is reported, and the next one begins (R577, R579,
R580). While one cannot move, the migration goes on. -/
def Blade.migrationDone (b : Blade) (m : Memory) : Blade :=
  let b := b.moveSets m
  match b.net.migration with
  | some g =>
    if !g.done then b else
    let b := { b with net.migration := none }
    let b := b.modTile g.source.val fun x => { x with waiting := [], spillOps := 0 }
    let b := b.record { RecordFields.plain recRETIRE g.target.val g.rerun 0 with unit := g.source.val }
    let b := b.notify 8 (leBytes 1 g.source.val ++ leBytes 1 g.target.val ++ leBytes 2 0 ++ leBytes 4 g.rerun)
    let b := match b.deferredOf 0x32 with
      | some x => if x.operand = g.source.val then b.finishDeferred 0x32 stOK (leBytes 4 g.target.val) else b
      | none => b
    let b := b.retryWaiting m g.target.val
    match b.net.retireQueue with
    | t :: rest => { b with net.retireQueue := rest }.retireTile m t true
    | [] => b
  | none => b

def execMigrationComplete (s : State) : Result := s.afterBlade (s.blade.migrationDone s.mem)

end Sys2Proof.Machine
end

