-- ==== Sys2Proof/Machine/Ticks.lean ====
section
/-! DEFINITION. What time brings about: the tick that ends a frame, the fine ticks within it, and the fault collector's
timers, watchdog, fence and ALIVE outputs. -/

namespace Sys2Proof.Machine

/-! ## The fine tick (R285, R399) -/

/-- The tick generator runs, from step 4 of start-up on (Table 14.1). -/
def Blade.ticking (b : Blade) : Bool := 4 ≤ b.hw.startStep.toNat && !b.flt.fenced

/-- List 0 and the halyards' timers advance. -/
def Blade.fineStep (b : Blade) (m : Memory) : Blade := (b.delayTick m 0).timersTick

/-- FINE_TICK: one of the 249 of a frame that follow the one at its hoist. -/
def Blade.fineTick (b : Blade) (m : Memory) : Blade :=
  if !b.ticking || 249 ≤ b.fineTicks then b
  else
    let b := { b with fineTicks := b.fineTicks + 1 }
    if b.active then b.fineStep m else b

def execFineTick (s : State) : Result := s.afterBlade (s.blade.fineTick s.mem)

/-! ## The tick (R34) -/

/-- The fine ticks that the ended frame lacks, what the monitor finds of it (R161, R167), and the FILLs it lacks (R436). -/
def Blade.endFrame (b : Blade) (m : Memory) : Blade :=
  (times (249 - b.fineTicks) (fun b => b.fineStep m) b).countStall.findStalled.lanesFill

/-- The tick itself: the counts of the ended frame begin anew (R114, R269), the counter, the reaction timers before anything
asserts (R534), and the fine tick at the hoist. -/
def Blade.beginFrame (b : Blade) (m : Memory) : Blade :=
  let b := b.newCounts
  { b with frame := b.frame + 1, fineTicks := 0, net.stallTokens := 0 }.tickDeadlines.fineStep m

/-- A frame of the watchdog's span: with a kick, or without (R541). -/
def Blade.kickTick (b : Blade) (kicked : Bool) : Blade :=
  { b with flt.kickFrames := if kicked then 0 else b.flt.kickFrames + 1 }

/-- What the monitors and auditors do at a tick, and the control tokens and hoists of the frame that begins (Table 1.2,
R106, R114, R161, R380, R431, R535). -/
def Blade.auditFrame (b : Blade) (m : Memory) (ended : List (Nat × Nat × Nat)) : Blade :=
  let b := ((b.delayTick m 1).delayTick m 2).delayTick m 3
  let b := (b.tickWindow.checkContexts m).ledgerAudit.poolAudit
  let b := (b.frameTokens m ended).lanesTick
  let b := b.setReg (rTNET + 0x10) (w32 (min b.inflight 0xFFFF))
  { b with net.budgetTokens := 0 }

/-- The blade's clock runs on, whatever its role (R523). -/
def Blade.advanceClock (b : Blade) : Blade := { b with eng.ptpTime := b.eng.ptpTime + 250000 }

/-- The stamp of the frame that begins: its hoist's time, and never less than 250 µs after the one before (R524). -/
def Blade.nextStamp (b : Blade) : Blade :=
  let least := b.eng.stamp + 250000
  { b with eng.stamp := if least.toNat < b.eng.ptpTime.toNat then b.eng.ptpTime else least }

/-- The clock and the stamp of the frame that begins. -/
def Blade.advanceStamp (b : Blade) : Blade := b.advanceClock.nextStamp

/-- A blade in DOUBT counts its frames. -/
def Blade.doubtTick (b : Blade) : Blade :=
  if b.pair.duplex = .doubt then { b with pair.doubtFrames := b.pair.doubtFrames + 1 } else b

/-- A struck toggle link ends the pair at the tick, both blades told (R571). -/
def Blade.struckLink (b : Blade) : Blade :=
  if b.mirrors && b.struck fnToggle then (b.sendRole .unjoined).becomeSolo else b

/-- The ended frame joins those that wait for their commit; its LOG is sent, and its commit is local, or is sent too (R39, R41,
R563). -/
def Blade.closeFrame (b : Blade) (m : Memory) (ended : Word32) : Blade :=
  let b := { b with pair.unreleased := b.pair.unreleased ++ [(ended, b.eng.stamp)] }
  (b.struckLink.doubtTick.logFrame m ended).commitTurn

/-- The module ALIVE transistor turns on, and toggles from now on, at the first hoist as active (R632). -/
def Blade.moduleStarts (b : Blade) : Blade :=
  if b.flt.moduleRuns then b else { b with flt.moduleRuns := true, flt.moduleLevel := true }.out (.alive true true)

/-- TICK on an active blade; the start-up sequencer kicks the watchdog until step 10 (R608). -/
def Blade.activeTick (b : Blade) (m : Memory) : Blade :=
  let ended := b.frame
  let b := b.endFrame m
  let b := b.collect
  let b := (((b.beginFrame m).auditFrame m b.discardsOf).kickTick (b.hw.startStep.toNat < 10)).closeFrame m ended
  b.advanceStamp.moduleStarts

/-- One state write of a LOG block (R566): the standby's own memories, its registers, its copy of the units. -/
def applyLog (x : Memory × Blade) (w : LogWrite) : Memory × Blade :=
  match w with
  | .memory a v => ((x.1.setByte (x.2.place a.toNat) v).setMark (x.2.place a.toNat) .sound, x.2)
  | .poison a => (x.1.setMark (x.2.place a.toNat) .poison, x.2)
  | .register a v => (x.1, x.2.setReg a.toNat v)
  | .mergeTile k target => (x.1, x.2.mergeTile k.val target.val)
  | .stamp v => (x.1, { x.2 with eng.stamp := v })
  | _ => (x.1, { x.2 with pair.held := x.2.pair.held.apply w })

/-- A standby applies what it has acknowledged (R566). -/
def Blade.applyFrames (b : Blade) (m : Memory) : Memory × Blade :=
  let r := (b.pair.applying.flatMap id).foldl applyLog (m, b)
  let b := r.2
  (r.1, if b.pair.applying.isEmpty then b
        else { b with pair.applying := [] }.setReg (rTOGGLE + 0xC) (b.reg (rTOGGLE + 8)))

/-- The blade's frame counter takes its step. -/
def Blade.nextFrame (b : Blade) : Blade := { b with frame := b.frame + 1, fineTicks := 0 }

/-- TICK on a standby, or on a blade that has taken the role and not begun to execute (R574): its counter follows the active blade's, and it applies acknowledged frames, each a kick (R608). -/
def Blade.standbyTick (b : Blade) (m : Memory) : Memory × Blade :=
  let b := b.nextFrame.advanceClock.tickDeadlines.tickWindow
  let kicked := b.pair.duplex ≠ .joined || !b.pair.applying.isEmpty
  let r := b.applyFrames m
  (r.1, (r.2.kickTick kicked).doubtTick)

/-- TICK. -/
def Blade.tick (b : Blade) (m : Memory) : Memory × Blade :=
  if !b.ticking then (m, b)
  else
    match b.pair.role with
    | .active => if b.pair.detected then b.standbyTick m else (m, b.activeTick m)
    | .standby => b.standbyTick m
    | .starting => (m, b.nextFrame.advanceClock.tickDeadlines.tickWindow.kickTick true)

def execTick (s : State) : Result := s.after (s.blade.tick s.mem)

/-! ## The collector's timers and the watchdog (R308, R535, R541) -/

def execTimerEsc (source : BitVec 11) (s : State) : Result := s.afterBlade (s.blade.timerEscalate source.toNat)

def execCorrectedWindow (s : State) : Result := s.afterBlade s.blade.newWindow

/-- WATCHDOG: the span of FAULT_WDOG has passed without a kick. -/
def Blade.watchdog (b : Blade) : Blade :=
  if b.ticking && b.flag (rFAULT + 0x3028) 8 && b.field (rFAULT + 0x3028) 0 8 < b.flt.kickFrames then b.raise (srcWide 9 2)
  else b

def execWatchdog (s : State) : Result := s.afterBlade s.blade.watchdog

/-! ## The fence and ALIVE (R22, R538 to R540, R31) -/

/-- The blade fences itself: the FENCE record goes even into a frozen ring, and the blade gives up its claim and its role
(Table 12.5 steps 3 and 4, R554). -/
def Blade.enterFence (b : Blade) : Blade :=
  let b := (b.writeRecord (.plain recFENCE 0 0 0)).2
  { b with flt.fenced := true, flt.fencing := false, flt.moduleLevel := false, flt.moduleRuns := false,
           pair.claim := false, pair.role := .starting,
           pair.duplex := .solo, pair.detected := false, hw.inService := false }.driveFans

/-- FENCE: step 3 of Table 12.5 has come. -/
def Blade.fence (b : Blade) : Blade := if b.flt.fencing then b.enterFence else b

def execFence (s : State) : Result := s.afterBlade s.blade.fence

/-- ALIVE_TOGGLE: the midplane line toggles, and the active blade's module transistor with it (R31, R540). -/
def Blade.aliveEdge (b : Blade) : Blade :=
  if b.aliveRuns then
    let b := { b with flt.aliveLevel := !b.flt.aliveLevel }.out (.alive false (!b.flt.aliveLevel))
    if b.active && b.flt.moduleRuns then { b with flt.moduleLevel := !b.flt.moduleLevel }.out (.alive true (!b.flt.moduleLevel)) else b
  else b

def execAliveToggle (s : State) : Result := s.afterBlade s.blade.aliveEdge

end Sys2Proof.Machine
end

