-- ==== Sys2Proof/Machine/Startup.lean ====
section
/-! DEFINITION. Resets and the start-up sequence (Tables 14.1 and 14.6, R594 to R613). -/

namespace Sys2Proof.Machine

/-! ## What a reset keeps (Table 14.6) -/

/-- The value of the SYS_ID register (R1). -/
def sysId : Word32 := 0x8128F001

/-- A carrier whose feed is off. -/
def Carrier.unpowered (c : Carrier) : Carrier := { c with state := if c.present then .off else .absent, link := false }

/-- The identity EEPROM and what start-up makes of it: keys and floors stay, each slot's last sequence is its floor (R612). -/
def Blade.reloadKeys (old b : Blade) : Blade :=
  (List.range 4).foldl (fun b s =>
    b.setKeySlot s { old.key s with last := (old.key s).floor, request := [], reply := [] }) b

/-- The muxes that are powered still keep their selection (R24): those of port cards and carriers while their feeds are on, and
that of the service ports. -/
def Blade.keepMuxes (old b : Blade) : Blade :=
  let on := fun n : Nat => n = 10 || (b.feed (n + 2)).on
  { b with pair.muxB := old.pair.muxB.filter on, pair.muxChosen := old.pair.muxChosen.filter on }

/-- The UPLINK registers take the settings that CONFIG_SAVE has left in the EEPROM (Table 11.22). -/
def Blade.reloadUplinks (b : Blade) : Blade := b.eng.savedUplinks.foldl (fun b x => b.setReg x.1 x.2) b

/-- Sources whose cause lies outside the blade, and so outlives its resets: PARTNER_LOST, those of the supplies, fans and
sensors, SUPERCAP_LOW, and MIDPLANE_LINK. -/
def outsideCause (s : Nat) : Bool :=
  s = srcWide 6 1 || s / 32 = 8 || s = srcWide 9 4 || (List.range 8).any fun c => s = srcCluster c 10

/-- What a reset leaves of the sources: the causes that hold on (R527). -/
def Faults.keptCauses (f : Faults) : SMap Source :=
  (f.sources.filter fun e => e.2.cause && outsideCause e.1).map fun e => (e.1, { Source.init with cause := true })

/-- What a reset leaves of the clusters: the midplane links that have no lock. -/
def Lanes.keptLinks (x : Lanes) : SMap Cluster :=
  (x.clusters.filter fun e => e.2.linkLost).map fun e => (e.1, { Cluster.init with linkLost := true })

/-- What lies outside the blade, its NOR, its fuses and the model's own records, from before a reset. -/
def Blade.resetBase (old : Blade) : Blade :=
  let z := Blade.reset
  let own := b2n old.bladeB
  let eng := { z.eng with savedUplinks := old.eng.savedUplinks }
  let flt := { z.flt with saved := old.flt.saved, saveFailed := old.flt.saveFailed, dumpDue := old.flt.dumpDue,
                          sources := old.flt.keptCauses }
  let pair := { z.pair with partnerPresent := old.pair.partnerPresent, partnerClaim := old.pair.partnerClaim,
                            partnerAlive := old.pair.partnerAlive, partnerSysId := old.pair.partnerSysId }
  let boot := { old.hw.boot with trial := false, fallback := false, factory := false }
  let hw := { z.hw with
    nextRecord := old.hw.nextRecord, blockSeq := old.hw.blockSeq - BitVec.ofNat 64 old.hw.blocks.length,
    imageStore := old.hw.imageStore, nor := old.hw.nor, cards := old.hw.cards, boot := boot,
    frus := old.hw.frus.map fun e => (e.1, if e.2 = .absent then .absent else .present),
    feeds := old.hw.feeds.map fun e => (e.1, { e.2 with command := e.1 = own }) }
  let b := { z with draws := old.draws, bladeB := old.bladeB, outputs := old.outputs, eng := eng, flt := flt,
                    lan := { z.lan with clusters := old.lan.keptLinks }, pair := pair, hw := hw }
  let b := Blade.reloadKeys old (old.keepMuxes b)
  ((b.setCarrier 0 (old.carrier 0).unpowered).setCarrier 1 (old.carrier 1).unpowered).reloadUplinks

/-- A power-on reset: the ring is lost, its NOR copy kept; no mux has selected yet. -/
def Blade.coldBase (old : Blade) : Blade :=
  let b := old.resetBase
  { b with pair.muxB := [], pair.muxChosen := [] }

/-- The count of resets, and why the last one came (Table 14.13). -/
def Blade.noteReset (b old : Blade) (type cause : Nat) : Blade :=
  ({ b with hw.resetType := BitVec.ofNat 2 type, hw.resetCause := BitVec.ofNat 3 cause }.setReg (rPWR + 4)
    (old.reg (rPWR + 4))).count (rPWR + 4)

/-- A blade reset: the ring, its state and its numbering are kept (R551). -/
def Blade.warmBase (old : Blade) (cause : Nat) : Blade :=
  let b := old.resetBase
  let flt := { b.flt with ring := old.flt.ring, ringHurt := old.flt.ringHurt, head := old.flt.head, number := old.flt.number,
                          firstNumber := old.flt.firstNumber, frozen := old.flt.frozen,
                          cause := old.flt.cause, freezeFrame := old.flt.freezeFrame, lost := old.flt.lost }
  { b with flt := flt }.noteReset old 1 cause

/-! ## What the tests find -/

/-- A firmware slot's bytes. -/
def Blade.norImage (b : Blade) (slot : Nat) : List Byte :=
  let v := mget [] slot b.hw.nor
  if v.isEmpty then Config.firmwareSlot slot else v

/-- The last image of a kind that the carriers keep (Table 13.10). -/
def Blade.storedKind (b : Blade) (kind : Nat) : List Byte :=
  let v := mget [] kind b.hw.imageStore
  if v.isEmpty then Config.storedImage kind else v

/-- A firmware slot verifies under R600 and serves this SYS_ID (R601). -/
def Blade.slotGood (b : Blade) (slot : Nat) : Bool :=
  firmwareValid b.hw.boot.makerKey (b.norImage slot) && fieldAt (b.norImage slot) 0xC 4 = sysId.toNat

/-- What a reset that brings no operand of its own finds: the results of its tests, the readiness of its carriers, the progress
of its partner and, where that has written the journal, its blocks are free values; the rest stands in the state. -/
def Blade.drawFacts (b : Blade) : StartFacts × Blade :=
  let d1 := b.draw 4
  let d2 := d1.2.draw (2 ^ 34)
  let d3 := d2.2.draw (64 * 516 * 64 + 1)
  let d4 := drawWords d3.1 d3.2
  let d5 := d4.2.draw 8
  let d6 := d5.2.drawWord
  let f0 := d6.2.drawWord
  let f1 := f0.2.drawWord
  let f2 := f1.2.drawWord
  let f3 := f2.2.drawWord
  let j := f3.2.draw 2
  let written := b.reg (rJRNL + 0x18)
  let ready := fun k : Nat => bitOf d5.1 k && (b.carrier k).present
  ({ bladeB := b.bladeB, dramFirmwareOk := bitOf d1.1 0, dramRestOk := bitOf d1.1 1,
     tilePasses := BitVec.ofNat 34 d2.1,
     marchWords := d4.1, cards := b.hw.cards,
     carriersPresent := BitVec.ofNat 2 (flagBits [(b.carrier 0).present, (b.carrier 1).present]),
     carriersReady := BitVec.ofNat 2 (flagBits [ready 0, ready 1]),
     fans := BitVec.ofNat 4 (flagBits ((List.range 4).map fun k => b.fru (14 + k) ≠ .absent)),
     partnerPresent := b.pair.partnerPresent, partnerSysId := b.pair.partnerSysId,
     partnerActive := b.partnerClaims, partnerAlive := b.pair.partnerAlive, partnerComplete := bitOf d5.1 2,
     lastJournalFrame :=
       if b.pair.role = .standby || b.partnerClaims then (if j.1 = 0 then none else some d6.1)
       else if b.hw.blockSeq = BitVec.ofNat 64 b.hw.blocks.length then none
       else some (if written = 0 then d6.1 else written),
     firmwareFixes := { ch0 := f0.1, ch1 := f1.1 }, restFixes := { ch0 := f2.1, ch1 := f3.1 } },
   j.2)

/-! ## Steps 1 to 8 -/

/-- Start-up stops in a step and the blade fences itself (R597); no fatal assertion began it, so no restart follows. -/
def Blade.failStart (b : Blade) (cause : Nat) : Blade :=
  { b with hw.startFailed := true, hw.startCause := BitVec.ofNat 5 cause }.enterFence

def Blade.atStep (b : Blade) (n : Nat) : Blade := { b with hw.startStep := BitVec.ofNat 4 n }

/-- An FRU is there or is not, and its feed with it. -/
def Blade.seeFru (b : Blade) (n feed : Nat) (present on : Bool) : Blade :=
  let b := b.setFeed feed { b.feed feed with present := present, command := on && present }
  b.setFru n (if present then .present else .absent)

/-- Step 2: the domains are powered, the PLLs lock, and the blade commands on the feeds of what is present (R618); a partner past
its own step 2 commands them too. -/
def Blade.powerUp (b : Blade) (e : StartFacts) : Blade :=
  let pair := { b.pair with partnerPresent := e.partnerPresent, partnerAlive := e.partnerAlive,
                            partnerClaim := e.partnerActive, partnerSysId := e.partnerSysId }
  let b := { b.atStep 2 with bladeB := e.bladeB, hw.cards := e.cards, hw.pllLocks := 0x1F,
                             hw.domainsOn := BitVec.allOnes 33, pair := pair }
  let own := b2n e.bladeB
  let b := (b.seeFru own own true true).seeFru (1 - own) (1 - own) e.partnerPresent false
  let b := (List.range 2).foldl (fun b k =>
    let c := b.carrier k
    let there := e.carriersPresent.getLsbD k || e.carriersReady.getLsbD k
    let c := { c with present := there, state := if there then .starting else .absent }
    (b.seeFru (10 + k) (10 + k) there true).setCarrier k c) b
  let b := (List.range 8).foldl (fun b k => b.seeFru (2 + k) (2 + k) (e.cards.getLsbD k) true) b
  let b := (List.range 4).foldl (fun b k =>
    let b := b.seeFru (14 + k) (12 + k) (e.fans.getLsbD k) true
    if e.fans.getLsbD k then b.setFru (14 + k) .inService else b) b
  (b.partnerFeeds (1 - own) (2 - own) true).partnerFeeds 2 16 (e.partnerPresent && (e.partnerActive || e.partnerComplete))

/-- The ring is saved to NOR; whether the save succeeds is a free value (R550). -/
def Blade.saveToNor (b : Blade) : Blade :=
  let d := b.draw 2
  if d.1 = 0 then { d.2 with flt.saved := some d.2.ownDump, flt.dumpDue := true } else { d.2 with flt.saveFailed := true }

/-- A start-up that finds the ring frozen saves it, unless it is saved already, clears it and releases it (R551). -/
def Blade.saveRing (b : Blade) : Blade :=
  if b.flt.frozen then
    let b := if b.flt.dumpDue && b.flt.cause = 4 then b else b.saveToNor
    { b with flt.ring := [], flt.ringHurt := [], flt.firstNumber := b.flt.number, flt.frozen := false, flt.cause := 0 }
  else b

/-- L sources whose cause still holds after a reset assert anew (R527). -/
def Blade.reassert (b : Blade) : Blade :=
  (mkeys (fun _ (x : Source) => x.cause && !x.sticky) b.flt.sources).foldl Blade.raise b

/-- The recorder at a start-up: a frozen ring is saved and released; the first records after a reset, the release of the ring
among them; REC_SAVE_FAILED for a save that failed before it (Table 12.10, R550, R551). -/
def Blade.firstRecords (b : Blade) : Blade :=
  let failed := b.flt.saveFailed
  let released := b.flt.frozen
  let b := { b with flt.saveFailed := false }.saveRing
  let b := if b.hw.resetType = 0 then b else b.record (.plain recRESET b.hw.resetType.toNat 0 0)
  let b := if released then b.record (.plain recFREEZE 0 0 0) else b
  (if failed then b.raise (srcWide 9 1) else b).reassert

/-- The words that a step of the DRAM test corrected are counted (R603). -/
def Blade.countFixes (b : Blade) (f : DramFixes) : Blade :=
  (b.count (rMEM + 0x10) f.ch0.toNat).count (rMEM + 0x14) f.ch1.toNat

/-- The boot ROM chooses the slot to boot, a trial used up; the flag says that one verifies (R601). -/
def Blade.boot (b : Blade) : Bool × Blade :=
  let x := b.hw.boot
  let onTrial := 0 < x.trialCount
  let first := if onTrial then x.preferredB else x.confirmedB
  let good := fun s : Bool => b.slotGood (b2n s)
  let id := fun k : Nat => if b.slotGood k then w32 (fieldAt (b.norImage k) 8 4) else 0
  let b := (b.setReg (rPWR + 0xC) (id 0)).setReg (rPWR + 0x10) (id 1)
  let x := { x with trialCount := x.trialCount - 1 }
  if good first then
    (true, { b with hw.boot := { x with bootedB := first, trial := onTrial,
                                        fallback := !onTrial && x.preferredB ≠ x.confirmedB } })
  else if good (!first) then (true, { b with hw.boot := { x with bootedB := !first, trial := false, fallback := true } })
  else (false, { b with hw.boot := x })

/-- Step 5: the active tiles are chosen and the tiling is set (R602, R126). -/
def Blade.chooseTiles (b : Blade) (pass : BitVec 34) : Option Blade :=
  let ok := (List.range 34).filter pass.getLsbD
  let s0 := b.net.spareValid.getLsbD 0 && pass.getLsbD 32
  let s1 := b.net.spareValid.getLsbD 1 && pass.getLsbD 33
  let base := ok.filter fun t => !(t = 32 && s0) && !(t = 33 && s1)
  let use0 := s0 && base.length < 32
  let act := if use0 then base ++ [32] else base
  let use1 := s1 && act.length < 32
  let act := (List.range 34).filter fun t => act.contains t || (use1 && t = 33)
  if ok.length < 32 then none
  else
    let tiling := (List.range 256).foldl (fun t i => mput 0 i (act.getD (i % 32) 0) t) []
    some { b with net.activeTiles := BitVec.ofNat 34 (act.map fun t => 2 ^ t).sum,
                  net.spareValid := BitVec.ofNat 2 (flagBits [s0 && !use0, s1 && !use1]),
                  net.failedTiles := ~~~pass &&& ~~~b.net.retiredTiles, net.tiling := tiling }

/-- Step 6: March C− over the solid and checkerboard backgrounds runs on every bank, with repair, and its mappings take effect;
whether M00 to M03 are left with a failing row (R323, R324, R597). -/
def Blade.marchAll (b : Blade) (ws : List (Fin 64 × MarchWord)) : Bool × Blade :=
  (List.range 64).foldl (fun x k =>
    let r := x.2.marchFresh ws k
    (x.1 || (r.1 && k < 4), r.2.applyStaged (fnBank k))) (false, b)

/-- Steps 2 to 7; the flag says that they passed. -/
def Blade.selfTest (b : Blade) (e : StartFacts) : Bool × Blade :=
  let b := ((b.powerUp e).atStep 3).countFixes e.firmwareFixes
  if !e.dramFirmwareOk then (false, b.failStart 1)
  else
    let booted := (b.atStep 4).boot
    let b := booted.2
    if !booted.1 then (false, b.failStart 2)
    else
      let b := b.firstRecords.newWindow.atStep 5
      match b.chooseTiles e.tilePasses with
      | none => (false, b.failStart 3)
      | some b =>
        let r := (b.atStep 6).marchAll e.marchWords
        if r.1 then (false, r.2.failStart 5)
        else
          let b := (r.2.atStep 7).countFixes e.restFixes
          if e.dramRestOk then (true, b) else (false, b.failStart 1)

/-- The role is taken, with its record (Table 12.10). -/
def Blade.takeRole (b : Blade) (r : BladeRole) (d : Duplex) : Blade :=
  let b := { b with pair.role := r, pair.duplex := d, hw.waitingPartner := false }.record (.plain recROLE r.code 0 0)
  b.setFru (b2n b.bladeB) .inService

/-- The uplinks that pass their check are hoisted with the settings they have (Table 14.1 step 10, R522). -/
def Blade.openUplinks (b : Blade) : Blade :=
  ((List.range 3).filter fun u => b.struck (fnUplink u) && b.uplinkCheck u).foldl (fun b u =>
    ((b.applyStaged (fnUplink u)).setStruck (fnUplink u) false).uplinkCause u) b

/-- A standby has no part in the journal: what its carriers hold is the active blade's (R26). -/
def Blade.leaveJournal (b : Blade) : Blade := { b with hw.blocks := [], hw.blockSeq := 0 }

/-- A blade that has completed start-up becomes standby; its join is due (R555). DESIGN CHOICE (log 89): its uplinks are hoisted
then, since hosts reach a standby over its own (R30). -/
def Blade.beStandby (b : Blade) : Blade := (b.takeRole .standby .unjoined).openUplinks.leaveJournal

/-! ## Steps 9 to 11 -/

/-- A carrier that has answered Identify: in service; or, of less than 256 GB, refused, its feed off (R582). Of one not identified
before, the capacity is a free value that suffices, since it is ready. -/
def Blade.bringCarrier (b : Blade) (k : Nat) : Blade :=
  let c := b.carrier k
  if c.capacity ≠ 0 && c.capacity.toNat < 256 then (b.setCarrier k { c with state := .off, link := false }).commandFeed (10 + k) false
  else
    let d := b.draw (65536 - 256)
    let cap := if c.capacity = 0 then BitVec.ofNat 16 (256 + d.1) else c.capacity
    (d.2.setCarrier k { c with state := .inService, link := true, capacity := cap }).setFru (10 + k) .inService

/-- The carriers that are ready are in service; the head of the ring is where their next block goes (R583, R605). -/
def Blade.bringCarriers (b : Blade) (ready : BitVec 2) (blocks : Bool) : Blade :=
  let b := ((List.range 2).filter ready.getLsbD).foldl Blade.bringCarrier b
  let d := if blocks && b.hw.blockSeq = 0 then b.draw (2 ^ 48) else (b.hw.blockSeq.toNat, b)
  let b := { d.2 with hw.blockSeq := BitVec.ofNat 64 d.1 }
  let none' := (b.carrier 0).state ≠ .inService && (b.carrier 1).state ≠ .inService
  (b.setPair64 (rJRNL + 0x10) (4096 * (b.hw.blockSeq.toNat - b.hw.blocks.length) % journalRing)).setCause (srcWide 5 2) none'

/-- F of R606: the last frame of the blocks on the carriers and of the records in staging. -/
def Blade.lastFrame (b : Blade) (onCarriers : Option Word32) : Option Word32 :=
  match onCarriers.toList ++ b.hw.journal.map (·.frame) with
  | [] => none
  | f :: r => some (r.foldl (fun a x => if frameLe a x then x else a) f)

/-- The frame counter at step 9 (R606). -/
def Blade.setCounter (b : Blade) (last : Option Word32) : Blade := { b with frame := (last.map (· + 4000)).getD 0 }

/-- The clusters whose slot holds a card. -/
def Blade.filledSlots (b : Blade) : List Nat := (List.range 8).filter b.hw.cards.getLsbD

/-- The microcode image in force is loaded into the filled slots' clusters (R416, R605). -/
def Blade.loadClusters (b : Blade) (v : MicroImage) : Blade :=
  b.filledSlots.foldl (fun b c => b.loadCluster c v) { b with eng.microcode := some v }

/-- The permanent contexts and their flow slots (R80, R81, R654, R607). -/
def Blade.permanents (b : Blade) (m : Memory) : Memory × Blade :=
  let b := (List.range 256).foldl (fun b c =>
    let flow : Option (BitVec 12) := if 1 ≤ c && c ≤ 128 then some (BitVec.ofNat 12 (c - 1)) else none
    b.setCtx c { Ctx.init with state := .live, flow := flow, excNode := BitVec.ofNat 20 (permanentNode c),
                               openFrame := b.frame, lastActive := b.frame }) b
  let b := (List.range 128).foldl (fun b l => b.setFlow l { Flow.init with owner := BitVec.ofNat 16 (l + 1), owned := true }) b
  b.permanentBudgets m

/-- One queue descriptor of Table 8.22. -/
def Blade.describe (b : Blade) (q quota reserve : Nat) (stall : BitVec 8) : Blade :=
  b.setQueue q { b.queue q with quota := quota, reserve := reserve, stallFrames := stall }

/-- The queue descriptors that start-up writes (R659, R537). -/
def Blade.systemQueues (b : Blade) : Blade :=
  let b := ((b.describe 8192 8192 512 4).describe 8193 1024 68 1).describe 8194 2210 2210 1
  let b := b.setQueue 8195 { b.queue 8195 with quota := 512, reserve := 64, notice := 1, noticeContext := 0, noticeNode := 0x20 }
  (List.range 32).foldl (fun b h => (b.describe (chanIn h) 1200 69 1).describe (chanOut h) 1200 0 1) b

/-- The image of a kind that step 9 takes: the one of the image store, if a carrier is in service and it verifies; else the factory
image, if that verifies under key 0 (R600, R605). The flag says that it is the factory's. -/
def Blade.startImage (b : Blade) (kind : Nat) : Bool × Option (List Byte) :=
  let x := b.hw.boot
  if b.anyCarrier && x.imageValid kind (b.storedKind kind) then (false, some (b.storedKind kind))
  else
    let img := if kind = 2 then Config.factoryGraph else Config.factoryMicrocode
    let good := if kind = 2 then graphValid x.makerKey img else microValid x.makerKey img
    (true, if good then some img else none)

/-- The graph image in slot A, or the one that a fabric reset has kept there; and the microcode image. DESIGN CHOICE (log 90): where
even the factory image of a kind fails, none is loaded. -/
def Blade.bringImages (b : Blade) (m : Memory) (keepGraph : Bool) : Memory × Blade :=
  let graph := b.startImage 2
  let micro := b.startImage 3
  let b := { b with hw.boot.factory := micro.1 || (if keepGraph then b.hw.boot.factory else graph.1) }
  let r := match graph.2 with
    | some img => if keepGraph then (m, b) else b.loadGraph m false img
    | none => (m, b)
  match micro.2 with
  | some img => (r.1, r.2.loadClusters (microImage img))
  | none => r

/-- Step 10: the tiles are hoisted for the system graph, the uplinks with the settings the EEPROM keeps, and the lane
configuration is applied (R66, R607). -/
def Blade.startGraph (b : Blade) (m : Memory) : Memory × Blade :=
  let b := b.atStep 10
  let b := ((List.range 34).filter b.net.activeTiles.getLsbD).foldl (fun b t => b.setStruck (fnTile t) false) b
  let lanes := b.filledSlots.flatMap fun c => (List.range 16).map (16 * c + ·)
  b.openUplinks.attachActive m lanes

/-- A lane port that passes its checks is hoisted. -/
def Blade.hoistPort (b : Blade) (l : Nat) : Blade :=
  if b.portCheck l then (b.setStruck (fnPort l) false).enableLink l else b

/-- Step 11: the clusters, then the ports, of the filled slots are hoisted. -/
def Blade.startLanes (b : Blade) : Blade :=
  let b := b.filledSlots.foldl (fun b c => (b.setStruck (fnCluster c) false).setFru (2 + c) .inService) b
  let b := (b.filledSlots.flatMap fun c => (List.range 16).map (16 * c + ·)).foldl Blade.hoistPort b
  { b.atStep 11 with hw.inService := true, hw.startFacts := none, flt.kickFrames := 0 }

/-- The saved copy of the ring is dumped once the blade is active (R551, R549). -/
def Blade.dumpSaved (b : Blade) (carried : Option Word32) : Blade :=
  match b.flt.saved with
  | some d => if b.flt.dumpDue then { b with flt.dumpDue := false }.writeDump d carried else b
  | none => b

/-- Steps 9, from the carriers on, to 11. -/
def Blade.serve (b : Blade) (m : Memory) (e : StartFacts) (keepGraph : Bool) : Memory × Blade :=
  let last := b.lastFrame e.lastJournalFrame
  let b := (b.bringCarriers e.carriersReady e.lastJournalFrame.isSome).setCounter last
  let i := b.bringImages m keepGraph
  let p := i.2.permanents i.1
  let g := p.2.systemQueues.startGraph p.1
  (g.1, (g.2.startLanes.dumpSaved last).announce)

/-- Step 9 begins: the active role and the claim are taken (R556, R594); the carriers are ready, or 30 s are waited for
them. -/
def Blade.beActive (b : Blade) (m : Memory) (e : StartFacts) (keepGraph : Bool) : Memory × Blade :=
  let b := (b.atStep 9).takeRole .active .solo
  let b := { b with pair.claim := !b.partnerClaims, eng.announcements := 2 }
  if e.carriersReady = 0 then (m, { b with hw.startFacts := some e }) else b.serve m e keepGraph

/-- Step 8: the toggle link trains, the booted slot is confirmed, the pair is checked and the roles are chosen (R555, R601,
R604). -/
def Blade.meetPartner (b : Blade) (m : Memory) (e : StartFacts) (keepGraph : Bool) : Memory × Blade :=
  let b := b.atStep 8
  let boot := { b.hw.boot with confirmedB := b.hw.boot.bootedB, trialCount := 0 }
  let b := { b.setStruck fnToggle false with hw.boot := boot, pair.lock := e.partnerPresent }
  let differs := e.partnerPresent && e.partnerSysId ≠ sysId
  if differs && (e.partnerActive || b.bladeB) then (m, b.failStart 4)
  else
    let b := { b with pair.partnerRefused := differs }
    let counts := e.partnerPresent && !differs
    if counts && e.partnerAlive && e.partnerActive then (m, b.beStandby)
    else if counts && !e.partnerComplete then (m, { b with hw.waitingPartner := true, hw.startFacts := some e })
    else if counts && e.partnerAlive && b.bladeB then (m, b.beStandby)
    else b.beActive m e keepGraph

/-- The start-up sequence from step 2 (Table 14.1). -/
def Blade.startUp (b : Blade) (m : Memory) (e : StartFacts) : Memory × Blade :=
  let t := b.selfTest e
  if t.1 then t.2.meetPartner m e false else (m, t.2)

/-! ## The resets -/

/-- Memory after a power-on or blade reset: marched and tested, then zero (Table 14.6). -/
def Memory.cleared : Memory := { cells := [], marks := [] }

/-- POWER_ON_RESET: the standby rail rises (R594, R29). -/
def Blade.powerOn (b : Blade) (e : StartFacts) : Memory × Blade := b.coldBase.startUp .cleared e

def execPowerOnReset (e : StartFacts) (s : State) : Result := s.after (s.blade.powerOn e)

/-- A blade reset, from step 2 (R609). -/
def Blade.resetBlade (b : Blade) (cause : Nat) : Memory × Blade :=
  let d := b.drawFacts
  (d.2.warmBase cause).startUp .cleared d.1

/-- RESET_PULSE: the partner's low pulse (R613). -/
def execResetPulse (s : State) : Result := s.after (s.blade.resetBlade 2)

/-- SOLO_RESTART: 10 ms after a solo blade has fenced (Table 12.5 step 5). -/
def execSoloRestart (s : State) : Result :=
  let b := s.blade
  s.after (if b.flt.fenced && b.flt.soloFence && b.flag (rFAULT + 0x3000) 0 then b.resetBlade 3 else (s.mem, b))

/-- The places of memory that a fabric reset keeps: the firmware region, the image slots, image and journal staging and the
application region. -/
def keptPlace (k : Nat) : Bool :=
  let o := k - dramBase
  dramBase ≤ k && k < dramEnd && (o < 0x10000000 || (0x50000000 ≤ o && o < 0x80000000) || 0xA0000000 ≤ o)

def Memory.fabricKept (m : Memory) : Memory :=
  { cells := m.cells.filter fun e => keptPlace e.1, marks := m.marks.filter fun e => keptPlace (8 * e.1) }

/-- The register words that a fabric reset keeps: those of the always-on blocks, and MEM_REPAIR. -/
def keptWord (a : Nat) : Bool := a < rTNET || (rMEM + 0x400 ≤ a && a < rMEM + 0x800)

/-- The blade after a fabric reset: the always-on domain, the spare tiles and rows, and the journal records in staging are
kept, every unit of the fabric is reset, sticky bits, deadlines, fence and key arms are cleared (Table 14.6). DESIGN CHOICE (log
87): DELAY_FINE goes on counting. -/
def Blade.fabricBase (old : Blade) (cause : Nat) : Blade :=
  let z := old.resetBase
  let csr := { z.csr with words := old.csr.words.filter fun e => keptWord e.1, recSel := old.csr.recSel,
                          injSel := old.csr.injSel, measSel := old.csr.measSel, measured := old.csr.measured,
                          postDropped := old.csr.postDropped }
  let net := { z.net with spareValid := old.net.spareValid, retiredTiles := old.net.retiredTiles,
                          failedTiles := old.net.failedTiles }
  let eng := { z.eng with keys := old.eng.keys, staging := { old.eng.staging with verifying := false },
                          notices := old.eng.notices, noticesLost := old.eng.noticesLost, ptpTime := old.eng.ptpTime,
                          stamp := old.eng.stamp }
  let armed := old.flt.sources.filterMap fun e => match mget Source.init e.1 z.flt.sources with
    | v =>
      let v := { v with mode := e.2.mode, remaining := e.2.remaining }
      if v = Source.init then none else some (e.1, v)
  let flt := { z.flt with sources := armed, aliveLevel := old.flt.aliveLevel, ring := old.flt.ring, ringHurt := old.flt.ringHurt, head := old.flt.head,
                          number := old.flt.number, firstNumber := old.flt.firstNumber, frozen := old.flt.frozen, cause := old.flt.cause,
                          freezeFrame := old.flt.freezeFrame, lost := old.flt.lost, noSpareRow := old.flt.noSpareRow,
                          partnerDumps := old.flt.partnerDumps }
  let hw := { z.hw with carriers := old.hw.carriers, journal := old.hw.journal, blocks := old.hw.blocks,
                        blockSeq := old.hw.blockSeq, frus := old.hw.frus, boot := old.hw.boot, feeds := old.hw.feeds,
                        domainsOn := old.hw.domainsOn, pllLocks := old.hw.pllLocks }
  let pair := { z.pair with muxB := old.pair.muxB, muxChosen := old.pair.muxChosen }
  { z with frame := old.frame, fineTicks := old.fineTicks, csr := csr, pair := pair, net := net, eng := eng, flt := flt,
           hw := hw }.reloadUplinks.noteReset old 2 cause

/-- The bytes of an image slot, as far as its header says; none where one of them cannot be read. -/
def Memory.slotBytes (m : Memory) (slotB : Bool) : List Byte :=
  let n := m.nat (slotBase slotB + 0x24) 4 + 64
  if m.unreadable (slotBase slotB) n then [] else m.read (slotBase slotB) n

/-- After a fabric reset the graph images that verify in place are kept (R611). -/
def Blade.keepsGraph (b : Blade) (m : Memory) (e : StartFacts) : Bool :=
  let good := fun slotB : Bool => graphValid b.hw.boot.goodKeys (m.slotBytes slotB)
  b.hw.resetType = 2 && e.dramFirmwareOk && good false && good true

/-- FABRIC_RESET (R611): step 5 with retired and failed tiles kept out, zeros in place of step 6, no step 7, and the images
verified in place. A blade that has stopped its start-up, or is fenced, stays so (R597, R610). -/
def Blade.resetFabric (b : Blade) (m : Memory) (cause : Nat) : Memory × Blade :=
  if b.hw.startFailed || b.flt.fenced then (m, b)
  else
    let d := b.drawFacts
    let e := d.1
    let b := ((d.2.fabricBase cause).atStep 5).firstRecords.newWindow
    let slotA := b.readSlot m.fabricKept false
    let slotB := slotA.blade.readSlot slotA.mem true
    let m := slotB.mem
    let b := slotB.blade
    let pass := e.tilePasses &&& ~~~b.net.retiredTiles &&& ~~~b.net.failedTiles
    match b.chooseTiles pass with
    | none => (m, b.failStart 3)
    | some b =>
      let b := { b with net.failedTiles := d.2.net.failedTiles ||| b.net.failedTiles }
      b.meetPartner m e (b.keepsGraph m e)

def execFabricReset (s : State) : Result := s.after (s.blade.resetFabric s.mem 4)

/-! ## Waits of start-up -/

/-- PARTNER_WAIT_TIMEOUT: 10 s have passed; the partner, still starting, leaves the active role to this blade (R555). -/
def Blade.partnerWaited (b : Blade) (m : Memory) : Memory × Blade :=
  match b.hw.startFacts with
  | some e => if b.hw.waitingPartner then b.beActive m e (b.keepsGraph m e) else (m, b)
  | none => (m, b)

def execPartnerWaitTimeout (s : State) : Result := s.after (s.blade.partnerWaited s.mem)

/-- CARRIER_READY_TIMEOUT: no carrier is in service 30 s after its feed came on (R605). -/
def Blade.carriersWaited (b : Blade) (m : Memory) : Memory × Blade :=
  match b.hw.startFacts with
  | some e => if b.active && b.hw.startStep = 9 then b.serve m e (b.keepsGraph m e) else (m, b)
  | none => (m, b)

def execCarrierReadyTimeout (s : State) : Result := s.after (s.blade.carriersWaited s.mem)

/-- The partner has completed start-up while this blade waited for it (R555). -/
def Blade.partnerCompleted (b : Blade) (m : Memory) : Memory × Blade :=
  match b.hw.startFacts with
  | some e =>
    if !b.hw.waitingPartner then (m, b)
    else if b.bladeB then (m, { b with hw.startFacts := none }.beStandby)
    else b.beActive m e (b.keepsGraph m e)
  | none => (m, b)

end Sys2Proof.Machine
end

