-- ==== Sys2Proof/Machine/Copies.lean ====
section
/-! DEFINITION. The join's copy at a standby: the duplex state that an active partner copies to it, as free values, of which
nothing can be proved; what CONFIG brings of settings, images and cards (R560, R588 to R591, Table 13.2). What the active blade
logs changes that copy as Machine/Mirror.lean says. -/

namespace Sys2Proof.Config

/-- The memory that a completed copy brings (Table 13.2, Table 13.4), by the model's counter. -/
opaque copiedMemory : Nat → Machine.Memory

/-- The units as the copy of a join brings them (Table 13.2 step 3), by the model's counter. -/
opaque copiedHeld : Nat → Machine.Held

end Sys2Proof.Config

namespace Sys2Proof.Machine

/-- A sparse array with its entries put in canonical form. -/
def canonize {α : Type} [DecidableEq α] (d : α) (l : SMap α) : SMap α := l.foldl (fun s e => mput d e.1 e.2 s) []

/-- Memory in canonical form. -/
def Memory.canonize (m : Memory) : Memory := { cells := Machine.canonize 0 m.cells, marks := Machine.canonize .sound m.marks }

/-- A place whose bytes the copy leaves as they are: the firmware working region and image staging (Table 13.4), and the image
slots, which CONFIG brings. -/
def ownPlace (k : Nat) : Bool :=
  (dramBase ≤ k && k < dramBase + 0x10000000) || (dramBase + 0x50000000 ≤ k && k < dramBase + 0x80000000)

/-- A memory with what another keeps at this blade's own places. -/
def Memory.under (copy own : Memory) : Memory :=
  { cells := (copy.cells.filter fun e => !ownPlace e.1) ++ own.cells.filter fun e => ownPlace e.1,
    marks := (copy.marks.filter fun e => !ownPlace (8 * e.1)) ++ own.marks.filter fun e => ownPlace (8 * e.1) }

/-- The memory of a standby when its copy completes. -/
def Blade.copyMemory (b : Blade) (m : Memory) : Memory × Blade :=
  let d := b.draw 1
  (((Config.copiedMemory b.draws).under m).canonize, d.2)

/-- The copy of a join brings the units of the active blade (Table 13.2 step 3), its active slot among them; every card whose
cluster is loaded is in service. -/
def Blade.copyUnits (b : Blade) : Blade :=
  let h := Config.copiedHeld b.draws
  let b := { (b.draw 1).2 with pair.held := h, led.activeSlotB := h.led.activeSlotB }
  (b.filledSlots.filter fun c => (b.cluster c).loaded).foldl (fun b c => b.setFru (2 + c) .inService) b

/-! ## Settings (R560, Table 13.5) -/

/-- The fields of a register that a write mirrors. -/
def Blade.mirroredMask (b : Blade) (a : Nat) : Word32 :=
  if neverMirrored a then 0
  else
    let f := b.fieldsOf .command a
    w32 (f.rw + f.rwk + f.rws)

/-- The active blade's mirrored configuration: the registers with a field that is mirrored, and the functions (Table 13.2
step 2). -/
def Blade.configuration (b : Blade) : ConfigItem :=
  .configuration (b.csr.words.filter fun e => b.mirroredMask e.1 ≠ 0) (b.csr.struck.filter fun e => !fnUnmirrored e.1)

/-- The mirrored configuration of the active blade comes into force on a standby as a whole. -/
def Blade.takeConfiguration (b : Blade) (words : SMap Word32) (struck : SMap Bool) : Blade :=
  let mine := (b.csr.words.filter fun e => b.mirroredMask e.1 ≠ 0 && !words.any (·.1 = e.1)).map (·.1)
  let b := mine.foldl (fun b a => b.setReg a (merge (b.mirroredMask a) (b.reg a) (regReset a))) b
  let b := words.foldl (fun b e => b.setReg e.1 (merge (b.mirroredMask e.1) (b.reg e.1) e.2)) b
  let own := b.csr.struck.filter fun e => fnUnmirrored e.1
  { b with csr.struck := (struck.filter fun e => !fnUnmirrored e.1).foldl (fun s e => minsert e.1 e.2 s) own }

/-! ## Images (R589 to R591) -/

/-- A standby takes a verified image into its own staging, and verifies it again. -/
def Blade.takeImage (b : Blade) (m : Memory) (kind : Byte) (img : List Byte) : Memory × Blade :=
  { b with eng.staging := { kind := kind, total := img.length, ranges := [(0, img.length)],
                            verified := b.hw.boot.imageValid kind.toNat img, verifying := false } }.fillDram m imageStagingBase img

/-- A standby activates the image that it has verified, as the active blade does: firmware for its next reset, a graph image into
its slot, which becomes active at the next tick, or microcode into its clusters. -/
def Blade.takeActivation (b : Blade) (m : Memory) (kind : Nat) (slotB : Bool) (clusters : BitVec 8) : Memory × Blade :=
  if !b.stagedGood kind then (m, b)
  else
    let r := b.readStaged m
    if r.lost then (r.mem, r.blade)
    else if kind = 1 then (r.mem, r.blade.keepFirmware r.bytes)
    else if kind = 2 then
      let w := r.blade.loadGraph r.mem slotB r.bytes
      (w.1, { w.2 with led.slotChange := some (slotB, w.2.frame) })
    else
      let v := microImage r.bytes
      let cs := (List.range 8).filter clusters.getLsbD
      (r.mem, { cs.foldl (fun b c => (b.loadCluster c v).setStruck (fnCluster c) false) r.blade with eng.microcode := some v })

/-! ## Port cards (R588) -/

/-- A microcode image in force still passes the checks of R415 on its words and its directory. -/
def MicroImage.sound (v : MicroImage) : Bool :=
  (v.store.all fun e => (uopOf e.2).valid e.1) && numbersDiffer v.directory && v.directory.length ≤ 64 &&
    v.directory.all fun p => p.number.toNat < 64 && p.entry.toNat < 0x1000

/-- The card's cluster is brought into service where it is not, and its ports are hoisted by the attach procedure; whether it has a
control store to load. -/
def Blade.serveCard (b : Blade) (m : Memory) (c : Nat) : Bool × Memory × Blade :=
  if (b.cluster c).loaded && !b.domainOff (fnCluster c) then (true, m, b)
  else
    let b := b.domainRequest c true
    let lanes := (List.range 16).map (16 * c + ·)
    match b.eng.microcode with
    | some v =>
      if v.sound then
        let r := ((b.loadCluster c v).setStruck (fnCluster c) false).attachActive m lanes
        (true, r.1, lanes.foldl Blade.hoistPort r.2)
      else (false, m, b)
    | none => (false, m, b)

/-- The card's ports enter TRAIN as their pods' signal and their enable fields allow (R588, Table 13.12). -/
def Blade.cardPorts (b : Blade) (c : Nat) : Blade :=
  (List.range 16).foldl (fun b h => if b.struck (fnPort (16 * c + h)) then b else b.enableLink (16 * c + h)) b

/-- A standby brings the cluster of a card into service, before the active blade does. -/
def Blade.takeCard (b : Blade) (m : Memory) (c : Nat) : Memory × Blade :=
  let r := b.serveCard m c
  (r.2.1, r.2.2.setFru (2 + c) (if r.1 then .inService else b.fru (2 + c)))

/-! ## The units at takeover -/

/-- At takeover the units stand as of the last applied frame; the tiles are this blade's own, and the cluster's stores and
directories are those loaded here (R559, Table 13.4). -/
def Blade.useUnits (b : Blade) : Blade :=
  let h := b.pair.held
  let own := b.net
  let net := { h.net with
    activeTiles := own.activeTiles, spareValid := own.spareValid, retiredTiles := own.retiredTiles,
    failedTiles := own.failedTiles, migration := none, retireQueue := [],
    tiles := byTile b.physicalTile 1 h.net.tiles, home := byTile b.physicalTile 1 h.net.home,
    sets := byTile b.physicalTile 512 h.net.sets,
    tiling := (List.range 256).foldl (fun l i => mput 0 i (b.physicalTile (mget 0 i h.net.tiling)) l) [] }
  let clusters := (List.range 8).foldl (fun s c =>
    mput Cluster.init c { b.cluster c with injectNext := (mget Cluster.init c h.lan.clusters).injectNext } s) []
  let lan := { h.lan with clusters := clusters }
  let bank := { b.bank with semaphores := h.semaphores }
  let eng := { b.eng with channels := h.channels }
  let hw := { b.hw with journal := h.journal, blocks := [],
                        nextRecord := h.journal.foldl (fun n r => max n (r.id + 1)) b.hw.nextRecord }
  (List.range 34).foldl Blade.markUsed
    { b with net := net, led := h.led, ord := h.ord, bank := bank, pool := h.pool, lan := lan, eng := eng, hw := hw,
             pair.held := .reset }

end Sys2Proof.Machine
end

