-- ==== Sys2Proof/Machine/Duplex.lean ====
section
/-! DEFINITION. The duplex pair: blocks of the toggle link, joining, doubt, failover and takeover (chapter 13). -/

namespace Sys2Proof.Machine

/-! ## The toggle link -/

/-- The toggle link carries blocks: enabled, hoisted, in lock (R571, Tables 13.15 and 13.16). -/
def Blade.linkRuns (b : Blade) : Bool := !b.flt.fenced && b.flag rTOGGLE 0 && !b.struck fnToggle && b.pair.lock

/-- A block is received: it ends DOUBT (R569). -/
def Blade.blockArrives (b : Blade) : Blade :=
  if b.pair.duplex = .doubt then { b with pair.duplex := .joined, pair.doubtFrames := 0 } else b

/-- A received block fails its CRC under an armed injection (mode CHECK): its sender sends it again (R561, Table 12.8). -/
def Blade.badBlock (b : Blade) : Blade := (b.useInjection srcToggleCrc).windowEvent srcToggleCrc

/-- What a received block does; a link that does not run carries none. -/
def Blade.onBlock (b : Blade) (use : Blade → Blade) : Blade :=
  if !b.linkRuns then b else if b.armed srcToggleCrc 1 then b.badBlock else use b.blockArrives

/-- What a received block does that may change the memory. -/
def Blade.onMemoryBlock (b : Blade) (m : Memory) (use : Blade → Memory × Blade) : Memory × Blade :=
  if !b.linkRuns then (m, b) else if b.armed srcToggleCrc 1 then (m, b.badBlock) else use b.blockArrives

def Blade.isStandby (b : Blade) : Bool := b.pair.role = .standby

/-- The standby holds, or is being sent, the duplex state. -/
def Blade.follows (b : Blade) : Bool := b.isStandby && (b.joined || b.pair.duplex = .joining)

def execIdleBlock (s : State) : Result := s.afterBlade (s.blade.onBlock id)

/-- INBOUND (R566). -/
def execInboundBlock (i : InboundItem) (s : State) : Result :=
  s.afterBlade (s.blade.onBlock fun b => if b.follows then { b with pair.inbound := b.pair.inbound ++ [(b.frame, i)] } else b)

/-- LOG (R566). -/
def execLogBlock (ws : List LogWrite) (s : State) : Result :=
  s.afterBlade (s.blade.onBlock fun b => if b.follows then { b with pair.log := b.pair.log ++ [ws] } else b)

/-- The notice FRU (Table 11.12). -/
def FruState.code : FruState → Nat
  | .absent => 0
  | .present => 1
  | .prepared => 2
  | .inService => 3
  | .failed => 4

/-- FRU_PREPARE and FRU_RESUME command a feed, which a joined partner's command follows (R560, R618). -/
def Blade.driveFeed (b : Blade) (k : Nat) (on : Bool) : Blade :=
  let b := b.commandFeed k on
  if b.active && b.mirrors then b.sendOver (.mirror (.write (w32 (rPWR + 0x200 + 4 * k)) (w32 (b2n on)))) else b

/-- An FRU changes its state under FRU_PREPARE or FRU_RESUME, which sends a notice (R587). -/
def Blade.fruChange (b : Blade) (n : Nat) (v : FruState) : Blade :=
  (b.setFru n v).notify 0xB [BitVec.ofNat 8 n, BitVec.ofNat 8 v.code]

/-- The FRU_RESUME of an FRU. -/
def Blade.resuming (b : Blade) (n : Nat) : Option Deferred := b.hw.fruPending.bind fun d => if d.operand = n then some d else none

/-- An FRU's FRU_RESUME ends: in service, or failed with its feed off (R587). -/
def Blade.fruEnd (b : Blade) (n : Nat) (feed : Option Nat) (ok : Bool) : Blade :=
  match b.resuming n with
  | some d =>
    let b := { b with hw.fruPending := none }
    if ok then (b.fruChange n .inService).answerDone d.dest stOK
    else
      let b := match feed with
        | some k => b.driveFeed k false
        | none => b
      (b.fruChange n .failed).answerDone d.dest stFAILED
  | none => b

/-- Both blades become JOINED (Table 13.2 step 5); a saved ring goes to the partner (R551), and the partner is in service. -/
def Blade.becomeJoined (b : Blade) : Blade :=
  let b := { b with pair.duplex := .joined, pair.copyDone := false, pair.joinRetry := false }.count (rTOGGLE + 0x30)
  let b := match b.flt.saved with
    | some d => if b.isStandby && b.flt.dumpDue then { b with flt.dumpDue := false }.sendOver (.dump d) else b
    | none => b
  let other := 1 - b2n b.bladeB
  if b.active then (b.setFru other .inService).fruEnd other none true else b

/-- COMMIT(n) at the standby: when every LOG block is held and checks, the frame is held and acknowledged; the INBOUND
blocks of acknowledged frames are no longer wanted (R564, R566). The CRC-32 that the blocks have is a free value, since
their bytes are. -/
def Blade.takeCommit (b : Blade) (n : Word32) (blocks : Nat) (crc : Word32) : Blade :=
  if !b.follows || (b.pair.duplex = .joining && !b.pair.copyDone) then b
  else
    let d := b.drawWord
    let b := d.2
    if blocks ≠ b.pair.log.length || crc ≠ d.1 then b
    else
      let b := { b with pair.applying := b.pair.applying ++ b.pair.log, pair.log := [],
                        pair.inbound := b.pair.inbound.filter fun e => !frameLe e.1 n, pair.ackedFrame := n }
      let b := (b.setReg (rTOGGLE + 8) n).sendBlock 4 n
      if b.pair.duplex = .joining then b.becomeJoined else b

def execCommitBlock (n : BitVec 32) (blocks : Nat) (crc : BitVec 32) (s : State) : Result :=
  s.afterBlade (s.blade.onBlock fun b => b.takeCommit n blocks crc)

/-! ## Handing over (R576) -/

/-- The active blade gives up its role: HANDOVER, the ROLE record, the freeze, the claim (R576, R547). -/
def Blade.handOver (b : Blade) : Blade :=
  let b := b.sendRole .handover
  let b := (b.record (.plain recROLE BladeRole.standby.code 0 0)).freeze 2
  { b.leaveJournal with
    pair.role := .standby, pair.duplex := .unjoined, pair.claim := false, pair.unsent := [], hw.inService := false,
    flt.moduleLevel := false, flt.moduleRuns := false }

/-- The frame in which the hand-over was asked for has committed. -/
def Blade.handOverTurn (b : Blade) : Blade :=
  match b.pair.handingOver with
  | some d =>
    if b.active && !b.pair.unreleased.any (fun f => frameLe f.1 (BitVec.ofNat 32 d.operand)) && b.frame ≠ BitVec.ofNat 32 d.operand then
      b.handOver
    else b
  | none => b

/-- The time from the tick to an ACK, a free value, in TOGGLE_ACK_NS (Table 13.18). -/
def Blade.noteAck (b : Blade) : Blade :=
  let d := b.draw 65536
  let b := d.2
  (b.setField (rTOGGLE + 0x14) 0 16 d.1).setField (rTOGGLE + 0x14) 16 15 (max (b.field (rTOGGLE + 0x14) 16 15) (d.1 / 16))

/-- ACK(n) at the active blade: frames up to n are released (R39, R40), or the join ends. -/
def Blade.takeAckBlock (b : Blade) (n : Word32) : Blade :=
  if !b.active || b.flt.fatal then b
  else if b.pair.duplex = .joining then (if b.pair.copyDone then b.noteAck.becomeJoined else b)
  else if b.joined && (b.pair.unreleased.take b.pair.commitsSent).any (·.1 = n) then
    (Blade.releaseUpTo n b.pair.unreleased.length b.noteAck).handOverTurn
  else b

def execAckBlock (n : BitVec 32) (s : State) : Result := s.afterBlade (s.blade.onBlock fun b => b.takeAckBlock n)

/-- COMMIT_TIMEOUT: an ACK is late, its COMMIT sent or not (R567). -/
def Blade.commitLate (b : Blade) : Blade :=
  if b.active && b.joined && !b.flt.fenced && !b.pair.unreleased.isEmpty then (b.count (rTOGGLE + 0x24)).raise (srcWide 6 3)
  else b

def execCommitTimeout (s : State) : Result := s.afterBlade s.blade.commitLate

/-! ## CONFIG (R560, R479) -/

/-- A write that the active blade performed is performed here; the flag says that it was not refused. The partner's arm
covers guarded fields, so this blade's arms and selections stay as they are. -/
def Blade.followWrite (b : Blade) (q : Option QueueId) (a : Nat) (v : Word32) : Bool × Blade :=
  let sel := match q with
    | some q => mput 0 (portId .command) (w32 q.toNat) b.csr.queueSel
    | none => b.csr.queueSel
  let r := { b.arm .command with csr.queueSel := sel }.writeReg { port := .command, sub := 0 } a v
  (r.1 = .done, { r.2 with csr.arms := b.csr.arms, csr.queueSel := b.csr.queueSel })

/-- A write of PWR_FEED that the active blade performed is also its command of that feed (R28). -/
def Blade.partnerFeed (b : Blade) (a : Nat) (v : Word32) : Blade :=
  match arr a (rPWR + 0x200) 4 16 with
  | some k => b.setFeed k { b.feed k with partnerCommand := v.getLsbD 0 }
  | none => b

/-- A mirrored command sequence with its stored reply; the EEPROM's floor is the module's (R479, R612). -/
def Blade.followSequence (b : Blade) (slot : Fin 4) (sequence : Word32) (request reply : List Byte) : Blade :=
  let v := b.key slot.val
  if v.last.toNat < sequence.toNat then
    b.setKeySlot slot.val { v with last := sequence, floor := raiseFloor v.floor sequence, request := request, reply := reply }
  else b

/-- A key slot of the active blade: its last sequence is the same on both blades (R476, R479, R612). -/
def Blade.followKey (b : Blade) (slot : Fin 4) (v : KeySlot) : Blade :=
  if b.follows then b.setKeySlot slot.val v else b

/-- CONFIG: what the active blade has done here too (R560, R588 to R591), and what it sends at a join (Table 13.2 step 2). -/
def Blade.takeConfig (b : Blade) (m : Memory) (c : ConfigItem) : Memory × Blade :=
  let judge := fun r : Bool × Memory × Blade => (r.2.1, if r.1 then r.2.2 else r.2.2.becomeUnjoined)
  let wr := fun r : Bool × Blade => judge (r.1, m, r.2)
  match c with
  | .sequence slot sequence request reply => (m, b.followSequence slot sequence request reply)
  | .key slot v => (m, b.followKey slot v)
  | .write a v => if b.follows then wr ((b.followWrite none a.toNat v).map id (·.partnerFeed a.toNat v)) else (m, b)
  | .queue q a v => if b.follows then wr (b.followWrite (some q) a.toNat v) else (m, b)
  | .strike fn => if b.follows then (m, b.setStruck fn.toNat true) else (m, b)
  | .hoist fn =>
    if b.follows then
      let t := b.tryHoist m fn.toNat
      judge (t.1 = stOK, t.2.1, t.2.2)
    else (m, b)
  | .configuration words struck => (m, if b.follows then b.takeConfiguration words struck else b)
  | .graph slotB img => if b.follows then b.loadGraph m slotB img else (m, b)
  | .microcode v => (m, if b.follows then b.loadClusters v else b)
  | .image kind img => if b.follows then b.takeImage m kind img else (m, b)
  | .activate kind slotB clusters => if b.follows then b.takeActivation m kind.toNat slotB clusters else (m, b)
  | .card slot => if b.follows then b.takeCard m slot.val else (m, b)

def execConfigBlock (c : ConfigItem) (s : State) : Result :=
  s.after (s.blade.onMemoryBlock s.mem fun b => b.takeConfig s.mem c)

/-! ## Failure of the active blade (R572 to R575) -/

/-- The standby that has detected a failure asserts its claim once the partner no longer counts as claiming, and with it takes
the active role in SOLO state (R574, R22, R556); it executes from its first tick on. -/
def Blade.tryClaim (b : Blade) : Blade :=
  if b.pair.detected && b.isStandby && !b.partnerClaims then
    { b with pair.claim := true, pair.role := .active, pair.duplex := .solo, pair.doubtFrames := 0 }
  else b

/-- A joined standby detects the failure of the active blade; LOG of an unacknowledged frame is discarded (R573, R574). -/
def Blade.detect (b : Blade) : Blade := { b with pair.detected := true, pair.log := [] }.tryClaim

/-- A standby without state takes over from the loading of images: its units take their reset values (R572). -/
def Blade.restartImages (b : Blade) (m : Memory) : Memory × Blade :=
  let d := b.drawFacts
  let b := d.2
  let z := Blade.reset
  let net := { z.net with activeTiles := b.net.activeTiles, spareValid := b.net.spareValid, tiling := b.net.tiling,
                          retiredTiles := b.net.retiredTiles, failedTiles := b.net.failedTiles }
  let eng := { b.eng with channels := [], deferred := [], heldReplies := [], activation := none }
  let pair := { b.pair with inbound := [], log := [], applying := [], detected := false, joinRetry := false, tookOver := some b.frame }
  { b with net := net, led := z.led, ord := z.ord, pool := z.pool, lan := z.lan, eng := eng, pair := pair }.beActive m d.1 false

/-- The partner no longer counts as claiming. -/
def Blade.partnerGone (b : Blade) (m : Memory) : Memory × Blade :=
  if b.flt.fenced then (m, b)
  else if b.isStandby then
    if b.joined then (m, b.detect)
    else if b.pair.handingOver.isSome then (m, b)
    else b.restartImages m
  else if b.active && !b.pair.claim then (m, { b with pair.claim := true })
  else (m, b)

/-- PARTNER_ALIVE_LOSS: no edge for more than 2.5 ms (R23, R570, R573, Table 12.3). -/
def Blade.aliveLost (b : Blade) (m : Memory) : Memory × Blade :=
  let claimed := b.partnerClaims
  let b := { b with pair.partnerAlive := false }
  let b := if b.flt.fenced then b else b.setCause (srcWide 6 1) b.pair.partnerPresent
  if b.active && b.pair.duplex = .doubt then (m, b.becomeSolo)
  else if b.isStandby && b.joined then (m, b.detect)
  else if claimed then b.partnerGone m
  else (m, b)

def execPartnerAliveLoss (s : State) : Result := s.after (s.blade.aliveLost s.mem)

/-- What follows a hand-over: nothing, a reset of this blade or of its fabric, its removal; or, at a standby that was asked
to reset the active blade, a reset of the partner or of its fabric. -/
def thenNothing : Nat := 0
def thenReset : Nat := 1
def thenFabric : Nat := 2
def thenPrepare : Nat := 3
def thenPartner : Nat := 4
def thenPartnerFabric : Nat := 5

/-- A hand-over of the active role is asked for, by FAILOVER, BLADE_RESET or FRU_PREPARE. -/
def Blade.askHandOver (b : Blade) (d : ReplyTo) (kind : Nat) : Blade :=
  { b with pair.handingOver := some { dest := d, operand := b.frame.toNat, data := [BitVec.ofNat 8 kind] } }

/-- The partner holds the active role: a hand-over is answered, and a reset or a removal that waited for it follows (R576,
R587, R610). -/
def Blade.handedOver (b : Blade) (m : Memory) : Memory × Blade :=
  match b.pair.handingOver with
  | some d =>
    let b := { b with pair.handingOver := none }.answerDone d.dest stOK
    let kind := (d.data.getD 0 0).toNat
    if kind = thenReset then b.resetBlade 1
    else if kind = thenFabric then b.resetFabric m 1
    else if kind = thenPrepare then
      let own := b2n b.bladeB
      (m, (b.fruChange own .prepared).commandFeed own false)
    else (m, b)
  | none => (m, b)

/-- CLAIM_LINE_CHANGE (R22, R556, R572 to R576). -/
def Blade.claimChange (b : Blade) (m : Memory) (asserted : Bool) : Memory × Blade :=
  let was := b.partnerClaims
  let b := { b with pair.partnerClaim := asserted }
  if asserted then
    if b.pair.claim && b.bladeB && b.pair.role = .active then
      (m, { b.leaveJournal with
        pair.claim := false, pair.role := .standby, pair.duplex := .unjoined, pair.detected := false, pair.unsent := [],
        flt.moduleLevel := false, flt.moduleRuns := false, hw.inService := false }.record
        (.plain recROLE BladeRole.standby.code 0 0))
    else if b.isStandby && !b.joined then b.handedOver m
    else (m, b)
  else if was then b.partnerGone m
  else (m, b)

def execClaimLineChange (asserted : Bool) (s : State) : Result := s.after (s.blade.claimChange s.mem asserted)

/-- FATAL from the active blade (R573). -/
def execFatalBlock (s : State) : Result :=
  s.afterBlade (s.blade.onBlock fun b => if b.isStandby && b.joined then b.detect else b)

/-! ## ROLE (Table 13.6) -/

/-- ROLE. -/
def Blade.takeRoleBlock (b : Blade) (m : Memory) (r : RoleMessage) : Memory × Blade :=
  match r with
  | .startup complete =>
    let b := (b.partnerFeeds 2 16 true)
    if complete then b.partnerCompleted m else (m, b)
  | .claimIntent => (m, b)
  | .unjoined =>
    (m, if b.active && (b.joined || b.pair.duplex = .joining) then b.becomeSolo
        else if b.follows then b.becomeUnjoined else b)
  | .handover => (m, if b.isStandby && b.joined then b.detect else b)

def execRoleBlock (r : RoleMessage) (s : State) : Result :=
  s.after (s.blade.onMemoryBlock s.mem fun b => b.takeRoleBlock s.mem r)

/-! ## DUMP (R549) -/

/-- The partner held the active role when its ring froze: it gave up that role with its ring (Table 12.5), or froze before this
blade took over. -/
def Blade.frozeActive (b : Blade) (d : DumpBlock) : Bool := d.cause = 2 || b.pair.tookOver.any fun f => frameLe d.frame f

/-- DUMP: the blade that holds the active role writes it at once; a standby keeps it, in case it takes that role. -/
def Blade.takeDump (b : Blade) (d : DumpBlock) : Blade :=
  if b.active then b.writeDump d (if b.frozeActive d then some b.pair.ackedFrame else none)
  else { b with flt.partnerDumps := b.flt.partnerDumps ++ [d] }

def execDumpBlock (d : DumpBlock) (s : State) : Result := s.afterBlade (s.blade.onBlock fun b => b.takeDump d)

/-! ## Doubt (R568 to R570) -/

/-- TOGGLE_SILENCE: no block for 20 µs. A link that this blade has struck ends the pair at the tick, with no DOUBT (R571). -/
def Blade.silence (b : Blade) : Blade :=
  if b.pair.duplex = .joined && !b.flt.fenced && !b.struck fnToggle then
    let b := { b with pair.duplex := .doubt, pair.doubtFrames := 0 }.count (rTOGGLE + 0x28)
    if b.active && !b.pair.partnerAlive then b.becomeSolo else b
  else b

def execToggleSilence (s : State) : Result := s.afterBlade s.blade.silence

/-- SB_DOUBT_EXPIRY. -/
def execSbDoubtExpiry (s : State) : Result :=
  let b := s.blade
  s.afterBlade (if b.isStandby && b.pair.duplex = .doubt && b.partnerClaims &&
      b.field rTOGGLE 8 8 ≤ b.pair.doubtFrames then b.becomeUnjoined else b)

/-- ACT_DOUBT_EXPIRY. -/
def execActDoubtExpiry (s : State) : Result :=
  let b := s.blade
  s.afterBlade (if b.active && b.pair.duplex = .doubt && b.field rTOGGLE 16 8 ≤ b.pair.doubtFrames then b.becomeSolo else b)

/-- TICK_ALIGN: the skew of the standby's tick in nanoseconds (R562, Table 13.18). -/
def Blade.align (b : Blade) (skew : Int) : Blade :=
  if !b.isStandby || b.flt.fenced then b
  else
    let size := skew.natAbs
    let b := (b.setField (rTOGGLE + 0x18) 0 16 (BitVec.ofInt 16 skew).toNat).setField (rTOGGLE + 0x18) 16 16
      (max (b.field (rTOGGLE + 0x18) 16 16) (min size 0xFFFF))
    if size ≤ 20 then { b with pair.misaligned := 0 }
    else
      let b := { b with pair.misaligned := b.pair.misaligned + 1 }.raise (srcWide 6 2)
      if 4 ≤ b.pair.misaligned && (b.joined || b.pair.duplex = .joining) then { b with pair.misaligned := 0 }.becomeUnjoined else b

def execTickAlign (skew : Int) (s : State) : Result := s.afterBlade (s.blade.align skew)

/-! ## Joining (R557 to R559) -/

/-- The duplex version of the firmware that this blade runs (Table 14.4). -/
def Blade.duplexVersion (b : Blade) : Nat := fieldAt (b.norImage (b2n b.hw.boot.bootedB)) 6 2

/-- What both blades must have alike (R559). -/
def Blade.matchesPartner (b : Blade) (p : PairFacts) : Bool :=
  p.sysId = sysId && p.duplexVersion.toNat = b.duplexVersion &&
    p.activeTiles = ((List.range 34).filter b.net.activeTiles.getLsbD).length

/-- A join may begin: the link may train, the partner is there and served, and no pair is formed. -/
def Blade.mayJoin (b : Blade) : Bool :=
  !b.flt.fenced && b.flag rTOGGLE 0 && !b.struck fnToggle && b.pair.partnerPresent && !b.pair.partnerRefused &&
    ((b.active && b.pair.duplex = .solo && b.hw.inService) || (b.isStandby && b.pair.duplex = .unjoined))

/-- The active tiles, each at its logical number (R559). -/
def Blade.numberTiles (b : Blade) : Blade := { b with pair.logical := (List.range 34).filter b.net.activeTiles.getLsbD }

/-- What the active blade sends at a join: the mirrored configuration, the key slots, the images of both graph slots and the
microcode in force (Table 13.2 step 2). -/
def Blade.sendSettings (b : Blade) (m : Memory) : Memory × Blade :=
  let b := b.sendOver (.mirror b.configuration)
  let b := (List.finRange 4).foldl Blade.mirrorKey b
  let slot := fun (x : Memory × Blade) (s : Bool) =>
    let r := x.2.readSlot x.1 s
    (r.mem, r.blade.sendOver (.mirror (.graph s r.bytes)))
  let r := [false, true].foldl slot (m, b)
  (r.1, match r.2.eng.microcode with
    | some v => r.2.sendOver (.mirror (.microcode v))
    | none => r.2)

/-- The active blade copies the duplex state, and logs from now on what changes of it (Table 13.2 step 3). -/
def Blade.sendCopy (b : Blade) (m : Memory) : Blade :=
  let tiling := (List.range 256).foldl (fun l i => mput 0 i (b.logicalTile (b.tiling i)) l) []
  let now := { (b.atRest m).heldNow with net := { (b.atRest m).heldNow.net with tiling := tiling } }
  { b with pair.held := now, pair.logged := m }.sendOver (.copied now m)

/-- The transfer begins; the standby takes the counter of the active blade, a free value here (R606). -/
def Blade.beginJoin (b : Blade) (m : Memory) : Memory × Blade :=
  let d := if b.isStandby then b.drawWord else (b.frame, b)
  let b := { d.2.numberTiles with frame := d.1, pair.duplex := .joining, pair.copyDone := false, pair.inbound := [], pair.log := [],
                                  pair.applying := [], pair.detected := false, pair.misaligned := 0, pair.unsent := [] }
  if b.active then
    let r := b.sendSettings m
    (r.1, r.2.sendCopy r.1)
  else (m, b)

/-- JOIN: the toggle link has trained. A joined or joining pair goes on; otherwise the blades compare what each shows, and the
transfer begins where it agrees. -/
def Blade.join (b : Blade) (m : Memory) (p : PairFacts) : Memory × Blade :=
  if b.mirrors && !b.flt.fenced then (m, b.relink)
  else if !b.mayJoin then (m, b)
  else
    let b := { b.relink with pair.joinRetry := false, pair.partnerSysId := p.sysId, pair.partnerFacts := some p }
    if b.matchesPartner p then b.beginJoin m else (m, b)

def execJoin (p : PairFacts) (s : State) : Result := s.after (s.blade.join s.mem p)

/-- JOIN_COMPLETE: the copy is complete, and the standby applies the log up to the present tick. The next tick's COMMIT and its ACK
make both blades JOINED. -/
def Blade.copyComplete (b : Blade) (m : Memory) : Memory × Blade :=
  if b.pair.duplex ≠ .joining || b.pair.copyDone then (m, b)
  else
    let b := { b with pair.copyDone := true }
    if b.isStandby then
      let c := b.copyMemory m
      (c.2.pair.log.flatMap id).foldl applyLog (c.1, { c.2.copyUnits.numberTiles with pair.log := [] })
    else (m, b)

def execJoinComplete (s : State) : Result := s.after (s.blade.copyComplete s.mem)

/-- JOIN_TIMEOUT: 20 s have passed (R558). -/
def Blade.abandonJoin (b : Blade) : Blade :=
  if b.pair.duplex ≠ .joining then b
  else
    let b := { b with pair.copyDone := false, pair.unsent := [] }
    { if b.isStandby then b.becomeUnjoined else { b with pair.duplex := .solo } with pair.joinRetry := true }

def execJoinTimeout (s : State) : Result := s.afterBlade s.blade.abandonJoin

/-- JOIN_RETRY: 10 s after a join was abandoned, it begins again with the comparison (R558, R559). -/
def Blade.retryJoin (b : Blade) (m : Memory) : Memory × Blade :=
  if b.pair.joinRetry && b.mayJoin && b.pair.lock then
    let b := { b with pair.joinRetry := false }
    if b.pair.partnerFacts.any b.matchesPartner then b.beginJoin m else (m, b)
  else (m, b)

def execJoinRetry (s : State) : Result := s.after (s.blade.retryJoin s.mem)

/-! ## TAKEOVER (R574, R575) -/

/-- A held INBOUND block is admitted again. -/
def Blade.readmit (b : Blade) : InboundItem → Blade
  | .pennant l type p => if type = 2 then b.takeUrgent l.val p else b.takeData l.val type p
  | .segment d => b.takeSegment d.channel.toNat d

/-- The NAKs of both sequence spaces, and the retransmissions, of a lane that carries traffic (R465). -/
def Blade.resumeLane (b : Blade) (l : Nat) : Blade :=
  if (b.port l).full then
    b.modPort l fun p => { p with
      nakDue := p.nakDue ++ [(2, false, p.rxExpected), (2, true, p.uExpected)],
      tx := p.tx.map fun t => if t.sent then { t with resend := true } else t }
  else b

/-- Unacknowledged segments are sent again (R514). -/
def Blade.resumeChannel (b : Blade) (h : Nat) : Blade := b.modChannel h fun c => { c with resend := c.sent }

/-- This blade, asked as standby to reset the active blade, has taken over and does so (R610, R613). -/
def Blade.resetPartner (b : Blade) : Blade :=
  match b.pair.handingOver with
  | some d =>
    let b := { b with pair.handingOver := none }.answerDone d.dest stOK
    if d.data = [BitVec.ofNat 8 thenPartner] then b.out .resetPulse else b.sendBlock 6 b.frame
  | none => b

/-- The standby becomes active at its first tick with the claim held and every acknowledged frame applied. -/
def Blade.takeOver (b : Blade) (m : Memory) : Memory × Blade :=
  if !(b.pair.role = .active && b.pair.detected && b.pair.claim) || b.flt.fenced then (m, b)
  else
    let r := b.applyFrames m
    let held := r.2.pair.inbound.map (·.2)
    let b := r.2.useUnits
    let b := { b with pair.inbound := [], pair.log := [], pair.detected := false, pair.unreleased := [], pair.tookOver := some b.frame,
                      pair.commitsSent := 0, pair.doubtFrames := 0, eng.announcements := 2, hw.inService := true }
    let b := (b.takeRole .active .solo).count (rTOGGLE + 0x2C)
    let b := { b.atStep 11 with flt.kickFrames := 0 }
    let b := ((List.range 34).filter b.net.activeTiles.getLsbD).foldl (fun b t => b.setStruck (fnTile t) false) b
    let d := b.draw 4
    let ready := BitVec.ofNat 2 (flagBits [bitOf d.1 0 && (b.carrier 0).present, bitOf d.1 1 && (b.carrier 1).present])
    let b := (d.2.bringCarriers ready true).formBlocks 0
    let b := b.lanesTick
    let b := held.foldl Blade.readmit b
    let b := (mkeys (fun _ _ => true) b.lan.ports).foldl Blade.resumeLane b
    let b := (mkeys (fun _ (c : Channel) => c.isOpen) b.eng.channels).foldl Blade.resumeChannel b
    let b := { b.nextStamp with flt.moduleLevel := true, flt.moduleRuns := true }.out (.alive true true)
    let b := b.announce.notify 0xA [BitVec.ofNat 8 (b2n b.bladeB), 1]
    let b := b.resetPartner
    (r.1, b.flt.partnerDumps.foldl (fun b d => b.writeDump d (some b.pair.ackedFrame)) { b with flt.partnerDumps := [] })

def execTakeover (s : State) : Result := s.after (s.blade.takeOver s.mem)

/-! ## Commands (R576, R610) -/

def execFailover (r : Request) (s : State) : Result :=
  s.after (s.blade.bladeCommand s.mem { Opcode.plain 0x50 false with keyed := true, deferred := true } r (r.length = 0) fun b d =>
    if b.pair.duplex = .joining || b.pair.handingOver.isSome then b.answer d stBUSY
    else if b.pair.duplex ≠ .joined then b.answer d stDENIED
    else (b.defer d b.frame.toNat).askHandOver d thenNothing)

/-- BLADE_RESET: type 1 resets a blade, type 2 its fabric; the active blade hands over first, a standby that is asked to
reset it sending its claim intent; the partner is reached by the pulse or over the toggle link (R488, R610, R613). DESIGN CHOICE
(log 87): while a hand-over is pending it is DENIED. -/
def Blade.resetCommand (b : Blade) (m : Memory) (r : Request) (d : ReplyTo) : Memory × Blade :=
  let blade := rqField r 0 1
  let type := rqField r 1 1
  if 1 < blade || !(type = 1 || type = 2) then (m, b.answer d stNO_SUCH)
  else if blade = b2n b.bladeB then
    if b.active then
      if b.pair.duplex ≠ .joined || b.pair.handingOver.isSome then (m, b.answer d stDENIED)
      else (m, b.askHandOver d type)
    else
      let b := b.answer d stOK
      if type = 1 then b.resetBlade 1 else b.resetFabric m 1
  else if !b.pair.partnerPresent then (m, b.answer d stNO_SUCH)
  else if b.partnerClaims && !b.joined then (m, b.answer d stDENIED)
  else if b.partnerClaims then
    (if b.pair.handingOver.isSome || (type = 2 && !b.linkRuns) then (m, b.answer d stDENIED)
     else (m, (b.sendRole .claimIntent).askHandOver d (if type = 1 then thenPartner else thenPartnerFabric)))
  else if type = 1 then (m, (b.out .resetPulse).answer d stOK)
  else if b.linkRuns && b.pair.partnerAlive then (m, (b.sendBlock 6 b.frame).answer d stOK)
  else (m, b.answer d stDENIED)

def opBladeReset : Opcode := { Opcode.plain 0x53 true with keyed := true }

def execBladeReset (r : Request) (s : State) : Result :=
  s.after (s.blade.command s.mem opBladeReset r (r.length = 4) fun b d => b.resetCommand s.mem r d)

def execBladeResetFabric (r : Request) (s : State) : Result :=
  s.after (s.blade.command s.mem opBladeReset r (r.length = 4) fun b d => b.resetCommand s.mem r d)

end Sys2Proof.Machine
end

