-- ==== Sys2Proof/Machine/Module.lean ====
section
/-! DEFINITION. The module around the blade: muxes, FRUs and feeds, carriers, clocks, supplies, fans and sensors, the LEDs,
and the loss of mains (chapters 1, 12 to 15). -/

namespace Sys2Proof.Machine

/-! ## Muxes (R22 to R25) -/

/-- A mux's number: port cards 0 to 7, carriers 8 and 9, the service ports 10. -/
def muxNo : MuxId → Nat
  | .portCard slot => slot.val
  | .carrier k => 8 + k.val
  | .service => 10

/-- This blade counts as claiming (R23). -/
def Blade.claims (b : Blade) : Bool := b.pair.claim && b.aliveRuns

/-- MUX_SAMPLE: the mux keeps a selected blade that counts as claiming (R24). -/
def Blade.muxSample (b : Blade) (x : MuxId) : Blade :=
  let n := muxNo x
  let claimA := if b.bladeB then b.partnerClaims else b.claims
  let claimB := if b.bladeB then b.claims else b.partnerClaims
  let p := b.pair
  if !p.muxChosen.contains n then
    if claimA then { b with pair.muxChosen := p.muxChosen ++ [n] }
    else if claimB then { b with pair.muxChosen := p.muxChosen ++ [n], pair.muxB := p.muxB ++ [n] }
    else b
  else if p.muxB.contains n then
    if !claimB && claimA then { b with pair.muxB := p.muxB.filter (· ≠ n) } else b
  else if !claimA && claimB then { b with pair.muxB := p.muxB ++ [n] }
  else b

/-- The partner's ALIVE line toggles (R23). -/
def Blade.aliveSeen (b : Blade) : Blade := { b with pair.partnerAlive := true }.setCause (srcWide 6 1) false

def execMuxSample (m : MuxReading) (s : State) : Result :=
  s.afterBlade ((if m.edge then s.blade.aliveSeen else s.blade).muxSample m.mux)

/-! ## The alarm connector (R32) -/

/-- The NO–COM path is closed, `partner` telling whether an inserted partner energises its relay. -/
def Blade.noCom (b : Blade) (partner : Bool) : Bool := !b.alarmRaised && b.pair.partnerPresent && partner

/-- The NC–COM path is closed. -/
def Blade.ncCom (b : Blade) (partner : Bool) : Bool := b.alarmRaised || !(b.pair.partnerPresent && partner)

/-! ## FRU numbers: blades 0 and 1, port cards 2 to 9, carriers 10 and 11, supplies 12 and 13, fans 14 to 17 -/

/-- The switched feed of an FRU (Table 14.8); a supply has none. -/
def fruFeed (n : Nat) : Option Nat := if n < 12 then some n else if n < 14 then none else some (n - 2)

/-! ## Carriers (R584, R586, Table 12.3) -/

def srcCarrier (k : Nat) : Nat := srcWide 5 k

/-- JOURNAL_NONE holds while both carriers are out of service. -/
def Blade.carrierCause (b : Blade) : Blade :=
  b.setCause (srcWide 5 2) (b.active && b.carrierOut 0 && b.carrierOut 1)

/-- A resilvering whose source is lost ends at once, its target in service; how much it lacks is a free value (R586). -/
def Blade.cutResilver (b : Blade) (lost : Nat) : Blade :=
  match b.hw.resilvering with
  | some t =>
    if t.val = lost then { b with hw.resilvering := none }
    else
      let d := b.draw (2 ^ 32)
      let b := d.2.setCarrier t.val { b.carrier t.val with state := .inService }
      (({ b with hw.resilvering := none }.count (rJRNL + 0x20) d.1).setFru (10 + t.val) .inService).fruEnd (10 + t.val) none true
  | none => b

/-- A carrier goes out of service, in a new state; CARRIER_FAULT is raised (R584, Table 12.3). -/
def Blade.carrierGone (b : Blade) (k : Nat) (st : CarrierState) : Blade :=
  let c := b.carrier k
  let served := c.state = .inService || c.state = .resilvering || st = .failed
  let b := (b.setCarrier k { c with state := st, link := st = .failed }).cutResilver k
  let b := if served then b.raise (srcCarrier k) else b
  b.carrierCause.journalSettle

/-- A carrier's command fails or is not completed (R584). -/
def Blade.carrierFails (b : Blade) (k : Nat) : Blade :=
  if b.carrierTakes k || (b.carrier k).state = .starting then
    (((b.count (rJRNL + 0x34 + 4 * k)).carrierGone k .failed).setFru (10 + k) .failed).fruEnd (10 + k) (some (10 + k)) false
  else b


/-- RESILVER_COMPLETE (R586). -/
def Blade.resilvered (b : Blade) (k : Fin 2) : Blade :=
  if b.hw.resilvering = some k then
    let b := b.setCarrier k.val { b.carrier k.val with state := .inService }
    ({ b with hw.resilvering := none }.setFru (10 + k.val) .inService).carrierCause.fruEnd (10 + k.val) none true
  else b

def execResilverComplete (k : Fin 2) (s : State) : Result := s.afterBlade (s.blade.resilvered k)

/-- Identify has answered: too small a carrier is refused; one is resilvered from the other, or is in service at once where
there is nothing to copy (R582, R586). The capacity of one not identified before is a free value. -/
def Blade.startCarrier (b : Blade) (k : Fin 2) : Blade :=
  let d := b.draw 65536
  let old := b.carrier k.val
  let b := if old.capacity = 0 then d.2 else b
  let c := { old with state := .starting, link := true,
                      capacity := if old.capacity = 0 then BitVec.ofNat 16 d.1 else old.capacity }
  let b := b.setCarrier k.val c
  if c.capacity.toNat < 256 then ((b.setCarrier k.val { c with state := .off, link := false }).fruEnd (10 + k.val) (some (10 + k.val)) false)
  else if (b.carrier (1 - k.val)).state = .inService then
    { b.setCarrier k.val { c with state := .resilvering } with hw.resilvering := some k }
  else
    ((b.setCarrier k.val { c with state := .inService }).setFru (10 + k.val) .inService).carrierCause.fruEnd (10 + k.val) none true

/-! ## Midplane links (R21, Table 12.2, R588) -/

def srcMidplane (c : Nat) : Nat := srcCluster c 10

/-- The lanes of a card that gives no code groups: no energy, no lock, link DOWN. -/
def Blade.darkLanes (b : Blade) (c : Nat) : Blade :=
  (List.range 16).foldl (fun b h =>
    let l := 16 * c + h
    (b.modPort l fun p => { p with energy := false, lock := false }).setLink l linkDOWN) b

/-- MIDPLANE_LINK: the link to a card loses lock. -/
def Blade.linkLost (b : Blade) (c : Nat) : Blade :=
  if (b.cluster c).linkLost then b
  else ((b.modCluster c fun x => { x with linkLost := true }).setCause (srcMidplane c) true).darkLanes c

def execMidplaneLink (c : ClusterId) (s : State) : Result :=
  s.afterBlade (if s.blade.hw.cards.getLsbD c.val && !s.blade.flt.fenced then s.blade.linkLost c.val else s.blade)

/-- The cause of a card's MIDPLANE_LINK ends. -/
def Blade.linkFound (b : Blade) (c : Nat) : Blade :=
  (b.modCluster c fun x => { x with linkLost := false }).setCause (srcMidplane c) false

/-- MIDPLANE_LINK_LOCK: the link has lock; the FRU_RESUME of its card goes on, the standby first (R588). -/
def Blade.linkLocks (b : Blade) (m : Memory) (c : Nat) : Memory × Blade :=
  if !b.hw.cards.getLsbD c || !(b.feed (2 + c)).on then (m, b)
  else
    let b := b.linkFound c
    if (b.resuming (2 + c)).isSome then
      let r := (b.tellStandby (.card ⟨c % 8, Nat.mod_lt _ (by decide)⟩)).serveCard m c
      (r.2.1, r.2.2.fruEnd (2 + c) (some (2 + c)) r.1 |>.cardPorts c)
    else (m, b.cardPorts c)

def execMidplaneLinkLock (c : ClusterId) (s : State) : Result :=
  s.after (if s.blade.flt.fenced then (s.mem, s.blade) else s.blade.linkLocks s.mem c.val)

/-! ## Fans, sensors and supplies (R636 to R642) -/

/-- A fan is faulty, or is no longer (R640). -/
def Blade.setFanFault (b : Blade) (k : Nat) (v : Bool) : Blade :=
  ((b.setField (rFAN k) 24 1 (b2n v)).setCause (srcWide 8 (2 + k)) v)

def execFanFault (k : Fin 4) (s : State) : Result :=
  s.afterBlade (if s.blade.flt.fenced then s.blade else (s.blade.setFanFault k.val true).driveFans)

/-- The warning and critical limits of Table 15.11, in eighths of a degree. -/
def tempWarn (k : Nat) : Int := if k = 0 then 360 else if k = 2 then 760 else if k = 3 then 680 else if k = 4 then 800 else 560

def tempCrit (k : Nat) : Option Int := if k = 2 then some 880 else if k = 3 then some 760 else if k = 4 then some 920 else none

def overCrit (k : Nat) (t : Int) : Bool := (tempCrit k).any fun c => c < t

/-- A sensor's reading (Table 15.21). -/
def Blade.setTemp (b : Blade) (k : Nat) (t : Option (BitVec 16)) : Blade :=
  b.setReg (rTEMP k) (match t with
    | some v => pack [(0, 16, v.toNat), (16, 1, 1), (17, 1, b2n (tempWarn k < v.toInt)), (18, 1, b2n (overCrit k v.toInt))]
    | none => 0)

/-- TEMP_HIGH holds while any sensor is above its warning limit (R642). -/
def Blade.tempCause (b : Blade) : Blade := b.setCause (srcWide 8 6) ((List.range 7).any fun k => b.flag (rTEMP k) 17)

/-- A sensor is read; one that rises above its critical limit raises TEMP_CRITICAL (R642). -/
def Blade.takeTemp (b : Blade) (k : Nat) (t : Option (BitVec 16)) : Blade :=
  let rises := t.any (fun v => overCrit k v.toInt) && !b.flag (rTEMP k) 18
  let b := b.setTemp k t
  if rises then b.raise (srcWide 8 7) else b

/-- TEMP_CRITICAL: a sensor rises above its critical limit. -/
def Blade.overheat (b : Blade) (k : Nat) (t : BitVec 16) : Blade :=
  if overCrit k t.toInt && !b.flag (rTEMP k) 18 && !b.flt.fenced then (b.takeTemp k (some t)).tempCause else b

def execTempCritical (k : Fin 7) (t : BitVec 16) (s : State) : Result := s.afterBlade (s.blade.overheat k.val t)

/-- A supply is faulty: its status word shows a fault, or it is absent and not expected to be (Table 12.3, Table 13.12). -/
def Blade.supplyFault (b : Blade) (k : Nat) (absentOk : Bool) : Bool :=
  let stat := (b.reg (rCHAS + 0x100 + 0x20 * k)).toNat
  (bitOf stat 16 && bits stat 0 16 ≠ 0) || (!bitOf stat 16 && !absentOk)

/-- One supply's values (Table 15.19), and its FRU_RESUME (Table 13.12). -/
def Blade.readSupply (b : Blade) (k : Nat) (r : SupplyReading) : Blade :=
  let a := rCHAS + 0x100 + 0x20 * k
  let b := (((b.setReg a (r.stat &&& 0x7FFFF)).setReg (a + 4) r.vin).setReg (a + 8) r.vout).setReg (a + 0xC) (r.env &&& 0xFFFF00FF)
  let b := b.setReg (a + 0x10) (w32 r.power.toNat)
  let there := bitOf r.stat.toNat 16
  let n := 12 + k
  let b := if there && b.fru n = .absent then b.setFru n .inService
    else if !there && b.fru n ≠ .prepared then b.setFru n .absent else b
  let faulty := b.supplyFault k (r.expectedAbsent || b.fru n = .prepared)
  let b := b.setCause (srcWide 8 k) faulty
  if (b.resuming n).isSome then b.fruEnd n none (there && !faulty && bitOf r.stat.toNat 18) else b

/-- The speed that a duty calls for (R640). -/
def dutySpeed (duty : Nat) : Nat := max 3000 (140 * duty)

/-- One fan's values, and its FRU_RESUME: a fan below half its speed fails the check of its tachometer. -/
def Blade.readFan (b : Blade) (k : Nat) (present : Bool) (rpm : BitVec 16) : Blade :=
  let n := 14 + k
  let fast := dutySpeed (b.field (rFAN k) 16 7) ≤ 2 * rpm.toNat
  let b := ((b.setField (rFAN k) 0 16 rpm.toNat).setField (rFAN k) 23 1 (b2n present)).setField (rFAN k) 25 1
    (b2n (b.fru n = .prepared))
  let b := if !present then b.setFanFault k true else if fast then b.setFanFault k false else b
  if (b.resuming n).isSome then b.fruEnd n (some (12 + k)) (present && fast) else b

/-- SUPERCAP_LOW holds while the charge does not suffice for a save (Table 12.3). -/
def Blade.readSupercap (b : Blade) (percent : BitVec 8) (ready : Bool) : Blade :=
  (b.setReg (rPWR + 0x20) (pack [(0, 8, percent.toNat), (8, 1, b2n ready)])).setCause (srcWide 9 4) (!ready)

/-- PMBUS_REFRESH (R636). Carrier temperatures are read by the active blade alone (Table 15.7). -/
def Blade.refresh (b : Blade) (r : Readings) : Blade :=
  let b := (r.supplies.take 2).zipIdx.foldl (fun b x => b.readSupply x.2 x.1) b
  let b := (r.temps.take 7).zipIdx.foldl (fun b x => b.takeTemp x.2 (if x.2 < 5 || b.active then x.1 else none)) b
  let b := (r.fans.take 4).zipIdx.foldl (fun b x => b.readFan x.2 x.1.1 x.1.2) b
  (b.tempCause.readSupercap r.supercap r.saveReady).driveFans

def execPmbusRefresh (r : Readings) (s : State) : Result :=
  s.afterBlade (if s.blade.flt.fenced then s.blade else s.blade.refresh r)

/-! ## Carriers that are made ready for removal (R587, Table 13.12) -/

/-- An FRU is prepared for removal, its feed off, and its command answered. -/
def Blade.prepared (b : Blade) (n : Nat) (d : ReplyTo) : Blade :=
  let b := match fruFeed n with
    | some k => b.driveFeed k false
    | none => b
  (b.fruChange n .prepared).answerDone d stOK

/-- A carrier that FRU_PREPARE has marked out of service has no write outstanding any more, or is gone (Table 13.12). -/
def Blade.endLeaving (b : Blade) (k : Nat) : Blade :=
  match b.hw.leaving with
  | some (c, _, d) =>
    if c.val = k then
      let b := { b with hw.leaving := none }
      (b.setCarrier k { b.carrier k with link := false }).prepared (10 + k) d
    else b
  | none => b

/-- FRU_PREPARE of a carrier: out of service at once, its feed off when its outstanding writes have completed. -/
def Blade.carrierLeaves (b : Blade) (k : Fin 2) (d : ReplyTo) : Blade :=
  let owed := if b.carrierTakes k.val then b.hw.blocks.filter fun x => !x.done.getLsbD k.val else []
  let b := { (b.carrierGone k.val .off).defer d (10 + k.val) with hw.leaving := some (k, owed, d) }
  if owed.isEmpty then b.endLeaving k.val else b.setCarrier k.val { b.carrier k.val with link := true }

/-- The next outstanding write of a leaving carrier completes. -/
def Blade.leaverWrote (b : Blade) (k : Fin 2) : Blade :=
  match b.hw.leaving with
  | some (c, x :: rest, d) =>
    if c = k then
      let b := { b.blockOut k x with hw.leaving := some (c, rest, d) }
      if rest.isEmpty then b.endLeaving k.val else b
    else b
  | _ => b

/-- JOURNAL_WRITE_COMPLETE: a carrier in service, one being resilvered, or one that FRU_PREPARE has marked out of service. -/
def execJournalWriteComplete (k : Fin 2) (s : State) : Result :=
  let b := s.blade
  s.afterBlade (if b.hw.leaving.any (·.1 = k) then (if b.flt.fenced then b else b.leaverWrote k) else b.carrierWrote k)

/-- CARRIER_COMMAND_TIMEOUT: a command has not been completed within 100 ms; that of a leaving carrier leaves it no write that
could still complete. -/
def Blade.commandLate (b : Blade) (k : Nat) : Blade :=
  if !b.active || b.flt.fenced then b
  else if b.hw.leaving.any (·.1.val = k) then (b.count (rJRNL + 0x34 + 4 * k)).endLeaving k
  else b.carrierFails k

def execCarrierCommandTimeout (k : Fin 2) (s : State) : Result := s.afterBlade (s.blade.commandLate k.val)

/-! ## Presence and feeds (R618, R619) -/

/-- The partner is gone, and what it has shown with it (R3, R559). -/
def Blade.partnerLost (b : Blade) : Blade :=
  { b with pair.partnerPresent := false, pair.partnerRefused := false, pair.lock := false, pair.joinRetry := false,
           pair.partnerFacts := none }

/-- A blade is there; its SYS_ID is a free value (R3). -/
def Blade.partnerFound (b : Blade) : Blade :=
  let d := b.drawWord
  { d.2 with pair.partnerPresent := true, pair.partnerSysId := d.1, pair.joinRetry := false, pair.partnerFacts := none }

/-- What the loss of an FRU means for the unit it served (R588). -/
def Blade.fruLost (b : Blade) (n : Nat) : Blade :=
  if n < 2 then
    if n = b2n b.bladeB then b
    else b.partnerLost.partnerFeeds 0 16 false
  else if n < 10 then
    let c := n - 2
    { b with hw.cards := b.hw.cards &&& ~~~BitVec.ofNat 8 (2 ^ c) }.linkLost c
  else if n < 12 then b.carrierGone (n - 10) .absent
  else if n < 14 then b.setCause (srcWide 8 (n - 12)) (b.supplyFault (n - 12) (b.fru n = .prepared))
  else ((b.setField (rFAN (n - 14)) 23 1 0).setFanFault (n - 14) true).driveFans

/-- What the insertion of an FRU shows; the capacity of a carrier until Identify (R582) and the SYS_ID of a blade (R3) are free
values. A blade commands its own feed on (R618). -/
def Blade.fruFound (b : Blade) (n : Nat) : Blade :=
  if n < 2 then
    if n = b2n b.bladeB then b
    else b.partnerFound.partnerFeeds n (n + 1) true
  else if n < 10 then { b with hw.cards := b.hw.cards ||| BitVec.ofNat 8 (2 ^ (n - 2)) }
  else if n < 12 then
    let d := b.draw 65536
    d.2.setCarrier (n - 10) { Carrier.init with state := .off, present := true, capacity := BitVec.ofNat 16 d.1 }
  else if n < 14 then b
  else b.setField (rFAN (n - 14)) 23 1 1

/-- A fenced blade only sees what is there. -/
def Blade.seePresence (b : Blade) (n : Nat) (present : Bool) : Blade :=
  if present = (b.fru n ≠ .absent) then b
  else
    let b := b.setFru n (if present then .present else .absent)
    let b := match fruFeed n with
      | some k => b.setFeed k { b.feed k with present := present }
      | none => b
    if n < 2 ∧ n ≠ b2n b.bladeB then (if present then b.partnerFound else b.partnerLost) else b

/-- FRU_PRESENCE_CHANGE: on loss both blades command the feed off, and a mux on the FRU loses its power with it. -/
def Blade.presence (b : Blade) (n : Nat) (present : Bool) : Blade :=
  let old := b.fru n
  let b := match fruFeed n with
    | some k =>
      let f := b.feed k
      b.setFeed k { f with present := present, command := f.command && present, partnerCommand := f.partnerCommand && present }
    | none => b
  if present then (if old = .absent then (b.setFru n .present).fruFound n else b)
  else if old = .absent then b
  else
    let b := b.fruLost n
    let b := (if 10 ≤ n then b.endLeaving (n - 10) else b).fruEnd n (fruFeed n) false
    b.setFru n (if n = 12 ∨ n = 13 then (if old = .prepared then .prepared else .absent) else .absent)

def execFruPresenceChange (fru : Fin 18) (present : Bool) (s : State) : Result :=
  s.afterBlade (if s.blade.flt.fenced then s.blade.seePresence fru.val present else s.blade.presence fru.val present)

/-- FEED_TRIP (R619, Table 12.3). -/
def Blade.feedTrips (b : Blade) (k : Nat) : Blade :=
  if (b.feed k).on && (b.feed k).present then (b.setFeed k { b.feed k with tripped := true }).raise (srcWide 8 8) else b

def execFeedTrip (k : Fin 16) (s : State) : Result := s.afterBlade (s.blade.feedTrips k.val)

/-- FEED_REARM: neither blade has commanded the feed on for 10 ms. -/
def Blade.feedRearms (b : Blade) (k : Nat) : Blade :=
  let f := b.feed k
  if f.tripped && !f.command && !f.partnerCommand then b.setFeed k { f with tripped := false } else b

def execFeedRearm (k : Fin 16) (s : State) : Result := s.afterBlade (s.blade.feedRearms k.val)

/-! ## PLLs (R622, R623) -/

/-- TICK_LOST holds while the fabric, the DRAM or the always-on PLL is out of lock. -/
def Blade.tickCause (b : Blade) : Blade := b.setCause (srcWide 0 4) (b.hw.pllLocks &&& 0x13 ≠ 0x13)

/-- A carrier with commands outstanding: it has not completed a block, or a copy from one carrier to the other goes on. -/
def Blade.carrierBusy (b : Blade) (k : Nat) : Bool := b.hw.resilvering.isSome || b.hw.blocks.any fun x => !x.done.getLsbD k

/-- PLL_LOCK_LOSS. The serdes PLL asserts MIDPLANE_LINK for every cluster, a card there or not. -/
def Blade.pllLost (b : Blade) (k : Nat) : Blade :=
  if !b.hw.pllLocks.getLsbD k then b
  else
    let b := { b with hw.pllLocks := b.hw.pllLocks &&& ~~~BitVec.ofNat 5 (2 ^ k) }.count (rCLK + 0x10 + 4 * k)
    if k = 2 then (List.range 3).foldl (fun b u => b.setUplink u false) b
    else if k = 3 then
      let b := { b with pair.lock := false }
      let b := ((List.range 2).filter b.carrierBusy).foldl Blade.carrierFails b
      (List.range 8).foldl Blade.linkLost b
    else b.tickCause

def execPllLockLoss (k : Fin 5) (s : State) : Result := s.afterBlade (s.blade.pllLost k.val)

/-- PLL_LOCK_REGAINED: which uplinks find their link again is a free value. -/
def Blade.pllFound (b : Blade) (m : Memory) (k : Nat) : Memory × Blade :=
  if b.hw.pllLocks.getLsbD k then (m, b)
  else
    let b := { b with hw.pllLocks := b.hw.pllLocks ||| BitVec.ofNat 5 (2 ^ k) }
    if k = 2 then
      let d := b.draw 8
      (m, (List.range 3).foldl (fun b u => b.setUplink u (bitOf d.1 u)) d.2)
    else if k = 3 then
      (List.range 8).foldl (fun x c => if x.2.hw.cards.getLsbD c then x.2.linkLocks x.1 c else (x.1, x.2.linkFound c))
        (m, if b.pair.partnerPresent then b.relink else b)
    else (m, b.tickCause)

def execPllLockRegained (k : Fin 5) (s : State) : Result := s.after (s.blade.pllFound s.mem k.val)

/-! ## Clock domains (Table 14.9) -/

/-- Where a clock comes from: a PLL, a received signal, the watch crystal, or the JTAG pin. -/
inductive ClockSource where
  | pll (k : Fin 5)
  | received
  | crystal
  | pin
  deriving DecidableEq, Repr

/-- A clock domain: its source, and its frequency in hertz. -/
structure ClockDomain where
  source : ClockSource
  hertz : Nat

/-- Table 14.9. -/
def clockDomain (n : Nat) : ClockDomain :=
  if n < 128 then { source := .received, hertz := 12500000 }
  else if n < 144 then { source := if n % 2 = 0 then .received else .pll 3, hertz := 312500000 }
  else if n < 178 then { source := .pll 0, hertz := 1000000000 }
  else if n < 186 then { source := .pll 0, hertz := 500000000 }
  else if n < 188 then { source := .pll 0, hertz := 1000000000 }
  else if n < 190 then { source := .pll 1, hertz := if n = 188 then 800000000 else 1600000000 }
  else if n < 194 then { source := if n % 2 = 0 then .received else .pll 2, hertz := 161132800 }
  else if n = 194 then { source := .pll 2, hertz := 125000000 }
  else if n < 197 then { source := .pll 3, hertz := 250000000 }
  else if n < 199 then { source := if n = 197 then .received else .pll 3, hertz := 390625000 }
  else if n = 199 then { source := .pll 4, hertz := 100000000 }
  else if n = 200 then { source := .crystal, hertz := 32768 }
  else if n = 201 then { source := .pll 0, hertz := 1000000000 }
  else { source := .pin, hertz := 25000000 }

/-- The clock of a tile that is not active is stopped, and so is that of a tile or a cluster whose power domain is off (R621,
R616). -/
def Blade.clockStopped (b : Blade) (n : Nat) : Bool :=
  if 144 ≤ n && n < 178 then !b.activeTile (n - 144) || b.domainOff (fnTile (n - 144))
  else 178 ≤ n && n < 186 && b.domainOff (fnCluster (n - 178))

/-- A value between two bounds. -/
def clamp (lo hi v : Nat) : Nat := max lo (min hi v)

/-- What a measurement of a domain finds: the clock absent, or its frequency in kHz. A locked PLL gives its own frequency, a lane
12.5 MHz within 100 ppm, the pin no more than 25 MHz; of the other received clocks, and of a PLL out of lock, what there is to
measure is the event's. -/
def Blade.measure (b : Blade) (n khz : Nat) (absent : Bool) : Bool × Nat :=
  let c := clockDomain n
  let exact := clamp (c.hertz / 1000) ((c.hertz + 999) / 1000) khz
  if b.clockStopped n then (true, 0)
  else
    match c.source with
    | .pll k => if b.hw.pllLocks.getLsbD k.val then (false, exact) else (absent, khz)
    | .crystal => (false, exact)
    | .received => (absent, if absent then 0 else if n < 128 then clamp 12498 12502 khz else khz)
    | .pin => (absent, if absent then 0 else min 25000 khz)

/-- CLK_MEAS_COMPLETE: a requester's measurement of the domain that it has selected is valid (Table 14.12). -/
def execClkMeasComplete (who : Port) (khz : BitVec 28) (absent : Bool) (s : State) : Result :=
  let b := s.blade
  let r := b.measure (selected b.csr.measSel who) khz.toNat absent
  let w := pack [(0, 28, r.2), (30, 1, b2n r.1), (31, 1, 1)]
  s.afterBlade { b with csr.measured := mput 0 (portId who) w b.csr.measured }

/-! ## The loss of mains (R550, R619) -/

/-- The switched domains fall with the main rail, and the muxes with their feeds: the always-on domain alone is left, until
the next power-on reset. -/
def Blade.railFalls (b : Blade) : Blade :=
  let b := (List.range 3).foldl (fun b u => b.setStruck (fnUplink u) true) b
  let pair := { b.pair with role := .starting, duplex := .solo, claim := false, lock := false, detected := false, muxB := [],
                            muxChosen := [] }
  let b := { b with pair := pair, hw.domainsOn := BitVec.ofNat 33 (2 ^ 32), hw.inService := false, flt.moduleLevel := false,
                    flt.moduleRuns := false }
  { b.atStep 1 with hw.startFacts := none, hw.waitingPartner := false }.driveFans

/-- POWER_LOSS: the POWER record, the freeze and the save. -/
def Blade.powerLost (b : Blade) : Blade := (((b.record (.plain recPOWER 0 0 0)).freeze 4).saveToNor).railFalls

def execPowerLoss (s : State) : Result := s.afterBlade s.blade.powerLost

/-! ## FRU_PREPARE and FRU_RESUME (R587, R588, Table 13.12) -/

/-- The supply other than k reports no mains or a fault. -/
def Blade.otherSupplyBad (b : Blade) (k : Nat) : Bool :=
  !b.flag (rCHAS + 0x100 + 0x20 * (1 - k)) 17 || b.supplyFault (1 - k) false

/-- Fans that run: present, not faulty, not prepared. -/
def Blade.fansRunning (b : Blade) : Nat := ((List.range 4).filter fun k => !b.fanOut k).length

/-- A FRU_PREPARE or FRU_RESUME is in progress (R587). -/
def Blade.fruBusy (b : Blade) : Bool :=
  b.hw.fruPending.isSome || b.hw.leaving.isSome || (b.pair.handingOver.map (·.data)).any (· = [BitVec.ofNat 8 thenPrepare])

/-- FRU_PREPARE of a present FRU. -/
def Blade.prepareFru (b : Blade) (n : Nat) (d : ReplyTo) : Blade :=
  if n < 2 then
    if n = b2n b.bladeB then
      if b.pair.handingOver.isSome then b.answer d stBUSY
      else if b.pair.duplex ≠ .joined then b.answer d stDENIED
      else (b.defer d n).askHandOver d thenPrepare
    else (((b.sendRole .unjoined).becomeSolo).partnerFeeds n (n + 1) false).prepared n d
  else if n < 10 then (b.darkLanes (n - 2)).prepared n d
  else if n < 12 then
    if (b.carrier (11 - n)).state ≠ .inService then b.answer d stDENIED
    else b.carrierLeaves ⟨(n - 10) % 2, Nat.mod_lt _ (by decide)⟩ d
  else if n < 14 then (if b.otherSupplyBad (n - 12) then b.answer d stDENIED else b.prepared n d)
  else if b.fansRunning < 4 then b.answer d stDENIED
  else ((b.setField (rFAN (n - 14)) 25 1 1).driveFans).prepared n d

def execFruPrepare (r : Request) (s : State) : Result :=
  s.after (s.blade.bladeCommand s.mem { Opcode.plain 0x51 false with deferred := true } r (r.length = 4) fun b d =>
    let n := rqField r 0 1
    if 18 ≤ n || b.fru n = .absent then b.answer d stNO_SUCH
    else if b.fruBusy then b.answer d stBUSY
    else b.prepareFru n d)

/-- FRU_RESUME of a present FRU: its feed comes on, and what ends it is the event that its kind waits for. -/
def Blade.resumeFru (b : Blade) (n : Nat) (d : ReplyTo) : Blade :=
  let b := { b.defer d n with hw.fruPending := some { dest := d, operand := n, data := [] } }
  let b := match fruFeed n with
    | some k => b.driveFeed k true
    | none => b
  let b := b.fruChange n .present
  if 10 ≤ n ∧ n < 12 then b.startCarrier ⟨(n - 10) % 2, Nat.mod_lt _ (by decide)⟩
  else if 14 ≤ n then (b.setField (rFAN (n - 14)) 25 1 0).driveFans
  else b

def execFruResume (r : Request) (s : State) : Result :=
  s.after (s.blade.bladeCommand s.mem { Opcode.plain 0x52 false with deferred := true } r (r.length = 4) fun b d =>
    let n := rqField r 0 1
    if 18 ≤ n || b.fru n = .absent then b.answer d stNO_SUCH
    else if b.fru n = .inService then b.answer d stOK
    else b.resumeFru n d)

/-! ## LEDs (R644) -/

inductive Led where
  | off
  | on
  | blink
  | fastBlink
  deriving DecidableEq, Repr

/-- PWR, green and amber: the main rail is there, or the standby rail alone. -/
def Blade.ledPower (b : Blade) : Led × Led := if 2 ≤ b.hw.startStep.toNat then (.on, .off) else (.off, .on)

/-- The service-port mux selects this blade, which then drives the module and jack LEDs. -/
def Blade.drivesLeds (b : Blade) : Bool := b.muxSelects 10 && !b.flt.fenced

/-- STATUS, green and amber (Table 15.13). -/
def Blade.ledStatus (b : Blade) : Led × Led :=
  if !b.drivesLeds then (.off, .off)
  else if b.pair.role = .starting then (.off, .on)
  else if !b.hw.inService then (.off, .off)
  else (if b.joined then .on else .blink, .off)

def Blade.ledAlarm (b : Blade) : Led := if b.drivesLeds && b.alarmRaised then .on else .off

def Blade.ledLocate (b : Blade) : Led := if b.drivesLeds && b.flag (rCHAS + 0x400) 0 then .on else .off

/-- A jack's green and amber, but for the 30 ms flash at a pennant. -/
def Blade.ledJack (b : Blade) (l : Nat) : Led × Led :=
  if !b.drivesLeds then (.off, .off)
  else
    let st := (b.port l).state.toNat
    let green := if st = linkTRAIN then .blink else if st = linkSYNC then .fastBlink
      else if st = linkUP ∨ st = linkDEGRADED then .on else .off
    let amber := if st = linkFAULT || b.struck (fnPort l) then .on else if st = linkDEGRADED then .blink else .off
    (green, amber)

/-- This blade's own green, amber and blue (Table 15.14). -/
def Blade.ledBlade (b : Blade) : Led × Led × Led :=
  (if b.active then .on else if b.pair.role = .standby && b.joined then .blink else .off,
   if b.flt.fenced then .on
   else if b.pair.role = .standby && (b.pair.duplex = .joining || b.pair.duplex = .unjoined) then .blink else .off,
   if b.fru (b2n b.bladeB) = .prepared then .on else .off)

/-- A carrier's green, amber and blue. -/
def Blade.ledCarrier (b : Blade) (k : Nat) : Led × Led × Led :=
  let st := (b.carrier k).state
  (if st = .inService then .on else if st = .resilvering then .blink else .off,
   if st = .failed then .on else .off, if b.fru (10 + k) = .prepared then .on else .off)

/-- A port card's green, amber and blue. -/
def Blade.ledCard (b : Blade) (c : Nat) : Led × Led × Led :=
  (if b.fru (2 + c) = .inService then .on else .off,
   if (b.cluster c).linkLost || (b.feed (2 + c)).tripped then .on else .off,
   if b.fru (2 + c) = .prepared then .on else .off)

/-- A fan module's amber and blue. -/
def Blade.ledFan (b : Blade) (k : Nat) : Led × Led :=
  (if b.flag (rFAN k) 24 then .on else .off, if b.fru (14 + k) = .prepared then .on else .off)

/-- A supply's green, amber and blue. -/
def Blade.ledSupply (b : Blade) (k : Nat) : Led × Led × Led :=
  let a := rCHAS + 0x100 + 0x20 * k
  (if b.flag a 18 then .on else .off, if b.field a 0 16 ≠ 0 then .on else .off, if b.fru (12 + k) = .prepared then .on else .off)

end Sys2Proof.Machine
end

