-- ==== Sys2Proof/Machine/Tokens.lean ====
section
/-! DEFINITION. What the units of the token graph do on their own (chapters 2, 3, 6 and 8): acceptance, matching and spill,
dispatch, release, delay, injection, parking and the monitor. -/

namespace Sys2Proof.Machine

/-! ## Matching (R134 to R152) -/

def execTokenAccept (t : TileId) (s : State) : Result := s.after (s.blade.tokenAccept s.mem t.val)

def execSpillSearchComplete (t : TileId) (set : Fin 512) (s : State) : Result :=
  s.afterBlade (s.blade.searchComplete s.mem t.val set.val)

def execSpillPushComplete (t : TileId) (set : Fin 512) (s : State) : Result :=
  s.afterBlade (s.blade.pushComplete s.mem t.val set.val)

def execRefill (t : TileId) (set : Fin 512) (s : State) : Result :=
  s.afterBlade (s.blade.refill s.mem t.val set.val)

def execCompaction (t : TileId) (set : Fin 512) (s : State) : Result :=
  s.afterBlade (s.blade.compact s.mem t.val set.val)

def execSpillSweep (t : TileId) (set : Fin 512) (s : State) : Result :=
  s.afterBlade (s.blade.spillSweep s.mem t.val set.val)

/-- BLOCKED_SET_ACCEPT (R152): a unit whose set was blocked looks at its waiting tokens again. -/
def execBlockedSetAccept (t : TileId) (s : State) : Result :=
  s.afterBlade (if s.blade.tileBlocked t.val then s.blade.retryWaiting s.mem t.val else s.blade)

def execCancelRemoval (t : TileId) (set : Fin 512) (way : Fin 8) (s : State) : Result :=
  s.afterBlade (s.blade.cancelRemoval s.mem t.val set.val way.val)

def execDelayCancelRemoval (n : Fin 4) (index : Nat) (s : State) : Result :=
  s.afterBlade (s.blade.delayCancel s.mem n.val index)

/-! ## Dispatch and release (R264, R282) -/

def execDispatch (t : TileId) (s : State) : Result := s.afterBlade (s.blade.dispatch s.mem t)

/-- A token out of its flow's order: its flow and sequence are zero (R61). -/
def Token.unordered (t : Token) : Token := { t with ordered := false, flow := 0, sequence := 0 }

/-- The emission at the head of the release unit's input (R282, R60, R63, R92), captured for a context being parked (R174), which
gives up the sequence it was emitted in. -/
def Blade.takeEmission (b : Blade) (m : Memory) : Blade :=
  match b.net.release with
  | .emission tok :: rest =>
    if (b.trailFull && b.receiveForms tok) || b.lacksStaging tok || b.emissionHolds m tok then b
    else
      match ({ b with net.release := rest } : Blade).receive m { tok with ordered := false } with
      | .stopped _ => b.raiseFree srcTagParity
      | .gone b => b
      | .taken x b =>
        let c := x.context.toNat
        if b.capturing c then b.capture x.unordered 4 0 0
        else if b.unparking c then
          { b with led.parking := b.led.parking.map fun p => { p with waiting := p.waiting ++ [.now x.unordered] } }
        else if (b.ctx c).state = .parked then b.capture x.unordered 5 0 0
        else b.onEmission m { x with ordered := tok.ordered }
  | _ => b

/-- The retire marker at the head of the release unit's input (R282). -/
def Blade.takeMarker (b : Blade) (m : Memory) : Blade :=
  match b.net.release with
  | .marker fl q :: rest => ({ b with net.release := rest } : Blade).onRetire m fl q
  | _ => b

def execOrderedEmission (s : State) : Result := s.afterBlade (s.blade.takeEmission s.mem)

def execRetireMarker (s : State) : Result := s.afterBlade (s.blade.takeMarker s.mem)

/-! ## Delay (R285 to R290) -/

def execDelayInsert (s : State) : Result := s.afterBlade (s.blade.delayInsert s.mem)

def execDelayMaturity (n : Fin 4) (s : State) : Result := s.afterBlade (s.blade.delayMature s.mem n.val)

/-! ## The injectors (R407 to R409, R277) -/

/-- The notice a lane would send next: its token, and whether it goes ordered in the lane's flow. -/
def Blade.laneNotice (b : Blade) (l : Nat) : Option (Token × Bool) :=
  match (b.halyard l).notices with
  | [] => none
  | t :: _ =>
    let ordered : Bool := t.context.toNat = l + 1
    if ordered && b.flowFull l then none else some (t, ordered)

/-- A lane's next notice token leaves by the injector's port. -/
def Blade.sendLaneNotice (b : Blade) (m : Memory) (c l : Nat) (t : Token) (ordered : Bool) : Blade :=
  let h := b.halyard l
  let b := b.setHalyard l { h with notices := h.notices.drop 1 }
  let b := { b.count64 (rLANE c + 0x38) with net.progressed := true }
  if ordered then
    let a := b.allocate l t
    a.2.injectAt m (34 + c) a.1
  else b.injectAt m (34 + c) t

/-- INJECTOR_NOTICE: the next lane in turn that may send does. -/
def Blade.injectorTurn (b : Blade) (m : Memory) (c : Nat) : Blade :=
  let k := b.cluster c
  let order := (List.range 16).map fun i => (k.injectNext + i) % 16
  match order.find? (fun h => (b.laneNotice (16 * c + h)).isSome) with
  | none => b
  | some h =>
    match b.laneNotice (16 * c + h) with
    | none => b
    | some (t, ordered) =>
      (b.setCluster c { k with injectNext := (h + 1) % 16 }).sendLaneNotice m c (16 * c + h) t ordered

def execInjectorNotice (c : ClusterId) (s : State) : Result := s.afterBlade (s.blade.injectorTurn s.mem c.val)

/-! ## Queues (R372, R658) -/

/-- A VISIBLE packet has outlived its queue's expire field. -/
def Blade.expired (b : Blade) (q i : Nat) : Bool :=
  let p := b.packet i
  p.state = .visible && (b.queue q).expire ≠ 0 && (b.queue q).expire.toNat < (b.frame - p.shown).toNat

/-- A notice token that port 44 holds goes with its packet, and no more counts into its context (R277, R373). -/
def Blade.recallNotice (b : Blade) (q i : Nat) : Blade :=
  let mine := fun x : Port44Item => x.notice.any fun n => n.1.toNat = q && n.2 = i
  (b.net.port44.filter mine).foldl (fun b x =>
    let c := x.token.context.toNat
    (b.modCtx c fun y => { y with tokensIn := y.tokensIn - 1, balance := y.balance - 1, changed := true }).zeroTest c)
    { b with net.port44 := b.net.port44.filter fun x => !mine x }

/-- QUEUE_EXPIRY of a queue (R372, Table 11.12): an expired packet gives no notice, neither one held for a HOIST, nor one in a
lane's notice queue, nor one at port 44 (R373). -/
def Blade.expireQueue (b : Blade) (q : Nat) : Blade :=
  if b.flag rQPOOL 1 then
    ((b.queue q).order.filter (b.expired q)).foldl (fun b i =>
      if (b.packet i).descBad then b.loseDescriptor i
      else
      let h := (b.packet i).handle
      let b := (b.freePacket i).count (rQPOOL + 0x40)
      let v := b.queue q
      let b := b.setQueue q { v with heldNotices := v.heldNotices.filter (·.packet ≠ i) }
      let b := b.recallNotice q i
      let b :=
        if q < 4096 then
          b.modHalyard (q / 32) fun y => { y with notices := y.notices.filter (·.value ≠ BitVec.ofNat 64 h) }
        else b
      b.notify 7 (leBytes 4 q ++ leBytes 4 0 ++ leBytes 8 h)) b
  else b

def execQueueExpiry (q : QueueId) (s : State) : Result := s.afterBlade (s.blade.expireQueue q.toNat)

/-! ## The monitor and parking (R160 to R187) -/

def execGlobalStall (s : State) : Result := s.afterBlade (s.blade.globalStall s.mem)

def execPerContextStall (ctx : BitVec 16) (s : State) : Result :=
  s.afterBlade (s.blade.perContextStall s.mem ctx.toNat)

def execParkingBegin (s : State) : Result := s.afterBlade (s.blade.parkingBegin s.mem)

def execParkingComplete (s : State) : Result := s.afterBlade (s.blade.parkingComplete s.mem)

def execParkStagingResume (s : State) : Result := s.afterBlade (s.blade.parkResume s.mem)

def execUnparkComplete (s : State) : Result := s.afterBlade (s.blade.unparkComplete s.mem)

end Sys2Proof.Machine
end

