-- ==== Sys2Proof/Machine/Dispatch.lean ====
section
/-! DEFINITION. One arm for each row of the table of operations and events: the row's meaning. -/

namespace Sys2Proof.Machine

def exec (i : Instr) (s : State) : Host.Outcome State Fault Refusal :=
  match i with
  | .add t rd ra rb rc => Sys2Proof.Machine.execAdd t rd ra rb rc s
  | .sub t rd ra rb rc => Sys2Proof.Machine.execSub t rd ra rb rc s
  | .addc t rd ra rb rc => Sys2Proof.Machine.execAddc t rd ra rb rc s
  | .subb t rd ra rb rc => Sys2Proof.Machine.execSubb t rd ra rb rc s
  | .carry t rd ra rb rc => Sys2Proof.Machine.execCarry t rd ra rb rc s
  | .borrow t rd ra rb rc => Sys2Proof.Machine.execBorrow t rd ra rb rc s
  | .neg t rd ra rb rc => Sys2Proof.Machine.execNeg t rd ra rb rc s
  | .and t rd ra rb rc => Sys2Proof.Machine.execAnd t rd ra rb rc s
  | .or t rd ra rb rc => Sys2Proof.Machine.execOr t rd ra rb rc s
  | .xor t rd ra rb rc => Sys2Proof.Machine.execXor t rd ra rb rc s
  | .andn t rd ra rb rc => Sys2Proof.Machine.execAndn t rd ra rb rc s
  | .sll t rd ra rb rc => Sys2Proof.Machine.execSll t rd ra rb rc s
  | .srl t rd ra rb rc => Sys2Proof.Machine.execSrl t rd ra rb rc s
  | .sra t rd ra rb rc => Sys2Proof.Machine.execSra t rd ra rb rc s
  | .rol t rd ra rb rc => Sys2Proof.Machine.execRol t rd ra rb rc s
  | .ror t rd ra rb rc => Sys2Proof.Machine.execRor t rd ra rb rc s
  | .cmpeq t rd ra rb rc => Sys2Proof.Machine.execCmpeq t rd ra rb rc s
  | .cmplt t rd ra rb rc => Sys2Proof.Machine.execCmplt t rd ra rb rc s
  | .cmpltu t rd ra rb rc => Sys2Proof.Machine.execCmpltu t rd ra rb rc s
  | .sel t rd ra rb rc => Sys2Proof.Machine.execSel t rd ra rb rc s
  | .mul t rd ra rb rc => Sys2Proof.Machine.execMul t rd ra rb rc s
  | .mulhu t rd ra rb rc => Sys2Proof.Machine.execMulhu t rd ra rb rc s
  | .mulhs t rd ra rb rc => Sys2Proof.Machine.execMulhs t rd ra rb rc s
  | .div t rd ra rb rc => Sys2Proof.Machine.execDiv t rd ra rb rc s
  | .divu t rd ra rb rc => Sys2Proof.Machine.execDivu t rd ra rb rc s
  | .rem t rd ra rb rc => Sys2Proof.Machine.execRem t rd ra rb rc s
  | .remu t rd ra rb rc => Sys2Proof.Machine.execRemu t rd ra rb rc s
  | .fadd t f => Sys2Proof.Machine.execFadd t f s
  | .fsub t f => Sys2Proof.Machine.execFsub t f s
  | .fmul t f => Sys2Proof.Machine.execFmul t f s
  | .fdiv t f => Sys2Proof.Machine.execFdiv t f s
  | .fsqrt t f => Sys2Proof.Machine.execFsqrt t f s
  | .fma t f => Sys2Proof.Machine.execFma t f s
  | .fcmpeq t f => Sys2Proof.Machine.execFcmpeq t f s
  | .fcmplt t f => Sys2Proof.Machine.execFcmplt t f s
  | .fcmple t f => Sys2Proof.Machine.execFcmple t f s
  | .fcvtI t f => Sys2Proof.Machine.execFcvtI t f s
  | .fcvtU t f => Sys2Proof.Machine.execFcvtU t f s
  | .fcvtFi t f => Sys2Proof.Machine.execFcvtFi t f s
  | .fcvtFu t f => Sys2Proof.Machine.execFcvtFu t f s
  | .fwiden t f => Sys2Proof.Machine.execFwiden t f s
  | .fnarrow t f => Sys2Proof.Machine.execFnarrow t f s
  | .addi t rd ra imm => Sys2Proof.Machine.execAddi t rd ra imm s
  | .andi t rd ra imm => Sys2Proof.Machine.execAndi t rd ra imm s
  | .ori t rd ra imm => Sys2Proof.Machine.execOri t rd ra imm s
  | .xori t rd ra imm => Sys2Proof.Machine.execXori t rd ra imm s
  | .seth t rd ra imm => Sys2Proof.Machine.execSeth t rd ra imm s
  | .cmpeqi t rd ra imm => Sys2Proof.Machine.execCmpeqi t rd ra imm s
  | .cmplti t rd ra imm => Sys2Proof.Machine.execCmplti t rd ra imm s
  | .cmpltui t rd ra imm => Sys2Proof.Machine.execCmpltui t rd ra imm s
  | .shifti t rd ra imm => Sys2Proof.Machine.execShifti t rd ra imm s
  | .ld8u t rd ra imm => Sys2Proof.Machine.execLd8u t rd ra imm s
  | .ld8s t rd ra imm => Sys2Proof.Machine.execLd8s t rd ra imm s
  | .ld16u t rd ra imm => Sys2Proof.Machine.execLd16u t rd ra imm s
  | .ld16s t rd ra imm => Sys2Proof.Machine.execLd16s t rd ra imm s
  | .ld32u t rd ra imm => Sys2Proof.Machine.execLd32u t rd ra imm s
  | .ld32s t rd ra imm => Sys2Proof.Machine.execLd32s t rd ra imm s
  | .ld64 t rd ra imm => Sys2Proof.Machine.execLd64 t rd ra imm s
  | .st8 t rd ra imm => Sys2Proof.Machine.execSt8 t rd ra imm s
  | .st16 t rd ra imm => Sys2Proof.Machine.execSt16 t rd ra imm s
  | .st32 t rd ra imm => Sys2Proof.Machine.execSt32 t rd ra imm s
  | .st64 t rd ra imm => Sys2Proof.Machine.execSt64 t rd ra imm s
  | .cas64 t rd ra rb rc => Sys2Proof.Machine.execCas64 t rd ra rb rc s
  | .cas32 t rd ra rb rc => Sys2Proof.Machine.execCas32 t rd ra rb rc s
  | .bz t ra disp => Sys2Proof.Machine.execBz t ra disp s
  | .bnz t ra disp => Sys2Proof.Machine.execBnz t ra disp s
  | .jal t ra disp => Sys2Proof.Machine.execJal t ra disp s
  | .jalr t rd ra rb rc func => Sys2Proof.Machine.execJalr t rd ra rb rc func s
  | .send t f => Sys2Proof.Machine.execSend t f s
  | .sendd t f => Sys2Proof.Machine.execSendd t f s
  | .adj t rd ra imm => Sys2Proof.Machine.execAdj t rd ra imm s
  | .openCtx t rd ra imm => Sys2Proof.Machine.execOpenCtx t rd ra imm s
  | .closeCtx t rd ra imm => Sys2Proof.Machine.execCloseCtx t rd ra imm s
  | .cancelCtx t rd ra imm => Sys2Proof.Machine.execCancelCtx t rd ra imm s
  | .parkCtx t rd ra imm => Sys2Proof.Machine.execParkCtx t rd ra imm s
  | .mfs t rd ra imm => Sys2Proof.Machine.execMfs t rd ra imm s
  | .mts t rd ra imm => Sys2Proof.Machine.execMts t rd ra imm s
  | .semAcq t rd ra rb rc func => Sys2Proof.Machine.execSemAcq t rd ra rb rc func s
  | .semRel t rd ra rb rc func => Sys2Proof.Machine.execSemRel t rd ra rb rc func s
  | .endFiring t zero => Sys2Proof.Machine.execEndFiring t zero s
  | .qDataStore who q value poison => Sys2Proof.Machine.execQDataStore who q value poison s
  | .qDataLoad who q => Sys2Proof.Machine.execQDataLoad who q s
  | .qHead who q => Sys2Proof.Machine.execQHead who q s
  | .qSelect who q value => Sys2Proof.Machine.execQSelect who q value s
  | .qDropRest who q => Sys2Proof.Machine.execQDropRest who q s
  | .qSeal who q value => Sys2Proof.Machine.execQSeal who q value s
  | .qAbort who q => Sys2Proof.Machine.execQAbort who q s
  | .microword c h => Sys2Proof.Machine.execMicroword c h s
  | .naSeq c h f => Sys2Proof.Machine.execNaSeq c h f s
  | .naJump c h f => Sys2Proof.Machine.execNaJump c h f s
  | .naMway c h f => Sys2Proof.Machine.execNaMway c h f s
  | .naCall c h f => Sys2Proof.Machine.execNaCall c h f s
  | .naRet c h f => Sys2Proof.Machine.execNaRet c h f s
  | .naYield c h f => Sys2Proof.Machine.execNaYield c h f s
  | .yieldResume c h => Sys2Proof.Machine.execYieldResume c h s
  | .rxopen c h f => Sys2Proof.Machine.execRxopen c h f s
  | .rxb c h f => Sys2Proof.Machine.execRxb c h f s
  | .rxw c h f => Sys2Proof.Machine.execRxw c h f s
  | .rxskip c h f => Sys2Proof.Machine.execRxskip c h f s
  | .rxdone c h f => Sys2Proof.Machine.execRxdone c h f s
  | .qw c h f => Sys2Proof.Machine.execQw c h f s
  | .ioQseal c h f => Sys2Proof.Machine.execIoQseal c h f s
  | .ioQabort c h f => Sys2Proof.Machine.execIoQabort c h f s
  | .ioQhead c h f => Sys2Proof.Machine.execIoQhead c h f s
  | .ioQdata c h f => Sys2Proof.Machine.execIoQdata c h f s
  | .ioQdrop c h f => Sys2Proof.Machine.execIoQdrop c h f s
  | .txopen c h f => Sys2Proof.Machine.execTxopen c h f s
  | .txb c h f => Sys2Proof.Machine.execTxb c h f s
  | .txw c h f => Sys2Proof.Machine.execTxw c h f s
  | .txsend c h f => Sys2Proof.Machine.execTxsend c h f s
  | .txcancel c h f => Sys2Proof.Machine.execTxcancel c h f s
  | .txpend c h f => Sys2Proof.Machine.execTxpend c h f s
  | .evclr c h f => Sys2Proof.Machine.execEvclr c h f s
  | .timer c h f => Sys2Proof.Machine.execTimer c h f s
  | .mrd c h f => Sys2Proof.Machine.execMrd c h f s
  | .mwr c h f => Sys2Proof.Machine.execMwr c h f s
  | .crd c h f => Sys2Proof.Machine.execCrd c h f s
  | .cwr c h f => Sys2Proof.Machine.execCwr c h f s
  | .semacq c h f => Sys2Proof.Machine.execSemacq c h f s
  | .semrel c h f => Sys2Proof.Machine.execSemrel c h f s
  | .timerEvent c h => Sys2Proof.Machine.execTimerEvent c h s
  | .keyUnlock who value => Sys2Proof.Machine.execKeyUnlock who value s
  | .faultSticky who g value => Sys2Proof.Machine.execFaultSticky who g value s
  | .faultWdogKick who value => Sys2Proof.Machine.execFaultWdogKick who value s
  | .destructiveMarchStart who value => Sys2Proof.Machine.execDestructiveMarchStart who value s
  | .preservingPassStart who value => Sys2Proof.Machine.execPreservingPassStart who value s
  | .hwClear who t value => Sys2Proof.Machine.execHwClear who t value s
  | .ackNsClear who value => Sys2Proof.Machine.execAckNsClear who value s
  | .uackMaxClear who l value => Sys2Proof.Machine.execUackMaxClear who l value s
  | .domainOffRequest who d value => Sys2Proof.Machine.execDomainOffRequest who d value s
  | .domainOnRequest who d value => Sys2Proof.Machine.execDomainOnRequest who d value s
  | .feedOnCommand who k value => Sys2Proof.Machine.execFeedOnCommand who k value s
  | .feedOffCommand who k value => Sys2Proof.Machine.execFeedOffCommand who k value s
  | .peerDataWrite who value => Sys2Proof.Machine.execPeerDataWrite who value s
  | .peerDataRead who => Sys2Proof.Machine.execPeerDataRead who s
  | .loReadLatch who addr => Sys2Proof.Machine.execLoReadLatch who addr s
  | .semStateRead who n => Sys2Proof.Machine.execSemStateRead who n s
  | .registerWrite who addr value => Sys2Proof.Machine.execRegisterWrite who addr value s
  | .postedWriteEffect who => Sys2Proof.Machine.execPostedWriteEffect who s
  | .ping r => Sys2Proof.Machine.execPing r s
  | .ident r => Sys2Proof.Machine.execIdent r s
  | .keyStatus r => Sys2Proof.Machine.execKeyStatus r s
  | .setKey r => Sys2Proof.Machine.execSetKey r s
  | .configSave r => Sys2Proof.Machine.execConfigSave r s
  | .readReg r => Sys2Proof.Machine.execReadReg r s
  | .writeReg r => Sys2Proof.Machine.execWriteReg r s
  | .readBlock r => Sys2Proof.Machine.execReadBlock r s
  | .writeBlock r => Sys2Proof.Machine.execWriteBlock r s
  | .sync r => Sys2Proof.Machine.execSync r s
  | .syncTimeout => Sys2Proof.Machine.execSyncTimeout s
  | .loadImage r => Sys2Proof.Machine.execLoadImage r s
  | .verifyImage r => Sys2Proof.Machine.execVerifyImage r s
  | .activateImageGraph r => Sys2Proof.Machine.execActivateImageGraph r s
  | .activateImageMicrocode r => Sys2Proof.Machine.execActivateImageMicrocode r s
  | .activateImageFirmware r => Sys2Proof.Machine.execActivateImageFirmware r s
  | .activeSlotChange => Sys2Proof.Machine.execActiveSlotChange s
  | .clusterQuiet c => Sys2Proof.Machine.execClusterQuiet c s
  | .quiesceTimeout c => Sys2Proof.Machine.execQuiesceTimeout c s
  | .strike r => Sys2Proof.Machine.execStrike r s
  | .strikeComplete fn => Sys2Proof.Machine.execStrikeComplete fn s
  | .hoist r => Sys2Proof.Machine.execHoist r s
  | .retireTile r => Sys2Proof.Machine.execRetireTile r s
  | .march r => Sys2Proof.Machine.execMarch r s
  | .marchAbort r => Sys2Proof.Machine.execMarchAbort r s
  | .inject r => Sys2Proof.Machine.execInject r s
  | .faultAck r => Sys2Proof.Machine.execFaultAck r s
  | .recorderRead r => Sys2Proof.Machine.execRecorderRead r s
  | .recorderFreeze r => Sys2Proof.Machine.execRecorderFreeze r s
  | .recorderRelease r => Sys2Proof.Machine.execRecorderRelease r s
  | .failover r => Sys2Proof.Machine.execFailover r s
  | .fruPrepare r => Sys2Proof.Machine.execFruPrepare r s
  | .fruResume r => Sys2Proof.Machine.execFruResume r s
  | .bladeReset r => Sys2Proof.Machine.execBladeReset r s
  | .bladeResetFabric r => Sys2Proof.Machine.execBladeResetFabric r s
  | .parkCommand r => Sys2Proof.Machine.execParkCommand r s
  | .unpark r => Sys2Proof.Machine.execUnpark r s
  | .contextQuery r => Sys2Proof.Machine.execContextQuery r s
  | .contextCancel r => Sys2Proof.Machine.execContextCancel r s
  | .post r => Sys2Proof.Machine.execPost r s
  | .semForce r => Sys2Proof.Machine.execSemForce r s
  | .channelOpen r => Sys2Proof.Machine.execChannelOpen r s
  | .channelClose r => Sys2Proof.Machine.execChannelClose r s
  | .channelStatus r => Sys2Proof.Machine.execChannelStatus r s
  | .timeStatus r => Sys2Proof.Machine.execTimeStatus r s
  | .usbResync => Sys2Proof.Machine.execUsbResync s
  | .channelData d => Sys2Proof.Machine.execChannelData d s
  | .channelAck d => Sys2Proof.Machine.execChannelAck d s
  | .channelSegmentSend ch => Sys2Proof.Machine.execChannelSegmentSend ch s
  | .channelAckDue ch => Sys2Proof.Machine.execChannelAckDue ch s
  | .channelRetransmit ch => Sys2Proof.Machine.execChannelRetransmit ch s
  | .channelStalled ch => Sys2Proof.Machine.execChannelStalled ch s
  | .arp u target vlan => Sys2Proof.Machine.execArp u target vlan s
  | .neighbourSolicitation u target vlan => Sys2Proof.Machine.execNeighbourSolicitation u target vlan s
  | .echoRequest u target vlan payload => Sys2Proof.Machine.execEchoRequest u target vlan payload s
  | .ptpMessage u m => Sys2Proof.Machine.execPtpMessage u m s
  | .announcementRepeat => Sys2Proof.Machine.execAnnouncementRepeat s
  | .dataPennant l p => Sys2Proof.Machine.execDataPennant l p s
  | .mgmtPennant l p => Sys2Proof.Machine.execMgmtPennant l p s
  | .urgentPennant l p => Sys2Proof.Machine.execUrgentPennant l p s
  | .ackPennant l p => Sys2Proof.Machine.execAckPennant l p s
  | .nakPennant l p => Sys2Proof.Machine.execNakPennant l p s
  | .creditPennant l p => Sys2Proof.Machine.execCreditPennant l p s
  | .auditReply l p => Sys2Proof.Machine.execAuditReply l p s
  | .fillPennant l p => Sys2Proof.Machine.execFillPennant l p s
  | .pennantAbort l => Sys2Proof.Machine.execPennantAbort l s
  | .undefinedPennant l type p => Sys2Proof.Machine.execUndefinedPennant l type p s
  | .codeGroupError l => Sys2Proof.Machine.execCodeGroupError l s
  | .pennantBoundary l => Sys2Proof.Machine.execPennantBoundary l s
  | .downstreamRetransmit l => Sys2Proof.Machine.execDownstreamRetransmit l s
  | .audit l => Sys2Proof.Machine.execAudit l s
  | .auditTimeout l => Sys2Proof.Machine.execAuditTimeout l s
  | .trainFill l => Sys2Proof.Machine.execTrainFill l s
  | .signalEnergy l => Sys2Proof.Machine.execSignalEnergy l s
  | .signalLoss l => Sys2Proof.Machine.execSignalLoss l s
  | .lockLost l => Sys2Proof.Machine.execLockLost l s
  | .pennantSilence l => Sys2Proof.Machine.execPennantSilence l s
  | .faultRetrain l => Sys2Proof.Machine.execFaultRetrain l s
  | .errorWindow l => Sys2Proof.Machine.execErrorWindow l s
  | .tick => Sys2Proof.Machine.execTick s
  | .fineTick => Sys2Proof.Machine.execFineTick s
  | .delayMaturity n => Sys2Proof.Machine.execDelayMaturity n s
  | .delayInsert => Sys2Proof.Machine.execDelayInsert s
  | .globalStall => Sys2Proof.Machine.execGlobalStall s
  | .perContextStall ctx => Sys2Proof.Machine.execPerContextStall ctx s
  | .queueExpiry q => Sys2Proof.Machine.execQueueExpiry q s
  | .timerEsc source => Sys2Proof.Machine.execTimerEsc source s
  | .watchdog => Sys2Proof.Machine.execWatchdog s
  | .correctedWindow => Sys2Proof.Machine.execCorrectedWindow s
  | .forcedAssertion source => Sys2Proof.Machine.execForcedAssertion source s
  | .tokenAccept t => Sys2Proof.Machine.execTokenAccept t s
  | .spillSearchComplete t set => Sys2Proof.Machine.execSpillSearchComplete t set s
  | .spillPushComplete t set => Sys2Proof.Machine.execSpillPushComplete t set s
  | .refill t set => Sys2Proof.Machine.execRefill t set s
  | .compaction t set => Sys2Proof.Machine.execCompaction t set s
  | .spillSweep t set => Sys2Proof.Machine.execSpillSweep t set s
  | .blockedSetAccept t => Sys2Proof.Machine.execBlockedSetAccept t s
  | .cancelRemoval t set way => Sys2Proof.Machine.execCancelRemoval t set way s
  | .delayCancelRemoval n index => Sys2Proof.Machine.execDelayCancelRemoval n index s
  | .dispatch t => Sys2Proof.Machine.execDispatch t s
  | .orderedEmission => Sys2Proof.Machine.execOrderedEmission s
  | .retireMarker => Sys2Proof.Machine.execRetireMarker s
  | .injectorNotice c => Sys2Proof.Machine.execInjectorNotice c s
  | .cellGrant who q => Sys2Proof.Machine.execCellGrant who q s
  | .qfull t => Sys2Proof.Machine.execQfull t s
  | .trailBufferDrain => Sys2Proof.Machine.execTrailBufferDrain s
  | .parkingBegin => Sys2Proof.Machine.execParkingBegin s
  | .parkingComplete => Sys2Proof.Machine.execParkingComplete s
  | .parkStagingResume => Sys2Proof.Machine.execParkStagingResume s
  | .unparkComplete => Sys2Proof.Machine.execUnparkComplete s
  | .tileRetirement t => Sys2Proof.Machine.execTileRetirement t s
  | .migrationComplete => Sys2Proof.Machine.execMigrationComplete s
  | .liveRepairComplete => Sys2Proof.Machine.execLiveRepairComplete s
  | .marchEnd words => Sys2Proof.Machine.execMarchEnd words s
  | .dramScrub => Sys2Proof.Machine.execDramScrub s
  | .fence => Sys2Proof.Machine.execFence s
  | .soloRestart => Sys2Proof.Machine.execSoloRestart s
  | .aliveToggle => Sys2Proof.Machine.execAliveToggle s
  | .partnerAliveLoss => Sys2Proof.Machine.execPartnerAliveLoss s
  | .claimLineChange asserted => Sys2Proof.Machine.execClaimLineChange asserted s
  | .muxSample m => Sys2Proof.Machine.execMuxSample m s
  | .inboundBlock b => Sys2Proof.Machine.execInboundBlock b s
  | .logBlock b => Sys2Proof.Machine.execLogBlock b s
  | .commitBlock frame blocks crc => Sys2Proof.Machine.execCommitBlock frame blocks crc s
  | .ackBlock frame => Sys2Proof.Machine.execAckBlock frame s
  | .configBlock m => Sys2Proof.Machine.execConfigBlock m s
  | .roleBlock m => Sys2Proof.Machine.execRoleBlock m s
  | .fatalBlock => Sys2Proof.Machine.execFatalBlock s
  | .dumpBlock d => Sys2Proof.Machine.execDumpBlock d s
  | .idleBlock => Sys2Proof.Machine.execIdleBlock s
  | .toggleSilence => Sys2Proof.Machine.execToggleSilence s
  | .sbDoubtExpiry => Sys2Proof.Machine.execSbDoubtExpiry s
  | .actDoubtExpiry => Sys2Proof.Machine.execActDoubtExpiry s
  | .commitTimeout => Sys2Proof.Machine.execCommitTimeout s
  | .tickAlign skew => Sys2Proof.Machine.execTickAlign skew s
  | .join p => Sys2Proof.Machine.execJoin p s
  | .joinComplete => Sys2Proof.Machine.execJoinComplete s
  | .joinTimeout => Sys2Proof.Machine.execJoinTimeout s
  | .joinRetry => Sys2Proof.Machine.execJoinRetry s
  | .partnerWaitTimeout => Sys2Proof.Machine.execPartnerWaitTimeout s
  | .takeover => Sys2Proof.Machine.execTakeover s
  | .powerOnReset e => Sys2Proof.Machine.execPowerOnReset e s
  | .resetPulse => Sys2Proof.Machine.execResetPulse s
  | .fabricReset => Sys2Proof.Machine.execFabricReset s
  | .powerLoss => Sys2Proof.Machine.execPowerLoss s
  | .fruPresenceChange fru present => Sys2Proof.Machine.execFruPresenceChange fru present s
  | .feedTrip k => Sys2Proof.Machine.execFeedTrip k s
  | .feedRearm k => Sys2Proof.Machine.execFeedRearm k s
  | .pllLockLoss k => Sys2Proof.Machine.execPllLockLoss k s
  | .tempCritical k temp => Sys2Proof.Machine.execTempCritical k temp s
  | .fanFault k => Sys2Proof.Machine.execFanFault k s
  | .midplaneLink c => Sys2Proof.Machine.execMidplaneLink c s
  | .carrierCommandTimeout k => Sys2Proof.Machine.execCarrierCommandTimeout k s
  | .carrierReadyTimeout => Sys2Proof.Machine.execCarrierReadyTimeout s
  | .journalWriteComplete k => Sys2Proof.Machine.execJournalWriteComplete k s
  | .resilverComplete k => Sys2Proof.Machine.execResilverComplete k s
  | .codeGroupLock l => Sys2Proof.Machine.execCodeGroupLock l s
  | .uplinkLinkChange u up => Sys2Proof.Machine.execUplinkLinkChange u up s
  | .midplaneLinkLock c => Sys2Proof.Machine.execMidplaneLinkLock c s
  | .pllLockRegained k => Sys2Proof.Machine.execPllLockRegained k s
  | .sweepBorrow reads => Sys2Proof.Machine.execSweepBorrow reads s
  | .pmbusRefresh r => Sys2Proof.Machine.execPmbusRefresh r s
  | .clkMeasComplete who khz absent => Sys2Proof.Machine.execClkMeasComplete who khz absent s
  | .eepromWriteComplete ok => Sys2Proof.Machine.execEepromWriteComplete ok s
  | .imageVerifyComplete kind => Sys2Proof.Machine.execImageVerifyComplete kind s

end Sys2Proof.Machine
end

