-- ==== Sys2Proof/Safety.lean ====
section
/-! DEFINITION. What a safe run is, and the terms in which the statements speak of commands and of the states they leave. -/

namespace Sys2Proof.Safety

open Sys2Proof.Machine

/-- Memory is in canonical form: equal memories are equal data. -/
def MemoryWf (s : State) : Prop := s.mem.wf = true

/-- Nothing waits for the end of a step: no assertion is due, no notice waits at port 44, no PARK or SYNC is open. -/
def Quiet (s : State) : Prop := s.blade.quiet = true

/-- The state a command leaves when it works on memory and blade: what ends every step has run. -/
def ends (s : State) (m : Memory) (b : Blade) : State := { s with mem := m, blade := b.endStep m }

/-- The state with another blade, memory and queue as they were. -/
def withBlade (s : State) (b : Blade) : State := { s with blade := b }

/-- A command answers a next state of which P holds. -/
def Yields (i : Instr) (s : State) (P : State → Prop) : Prop := ∃ t, exec i s = .next t ∧ P t

/-- A command leaves memory and queue as they were, and a blade of which P holds before what ends every step. -/
def Leaves (i : Instr) (s : State) (P : Blade → Prop) : Prop := ∃ b, exec i s = .next (ends s s.mem b) ∧ P b

/-! ## Codelet instructions -/

/-- A tile may run its next instruction: its blade runs firings (R576), and it executes one that waits for no queue, has
completed fewer than 4,096 instructions (R239) and whose pc lies in the codelet segment (R197). -/
structure Issues (s : State) (t : TileId) (f : Firing) : Prop where
  runs : (s.blade.tile t.val).firing = some f
  free : f.stall = none
  going : s.blade.stopped = false
  few : f.executed < 4096
  inside : s.mem.inSegment f f.pc = true

/-- The instruction that the word at the firing's pc spells, where the word can be fetched (R198) and Tables 4.3 to 4.6 list
it (R196). -/
def codeOf (s : State) (t : TileId) (f : Firing) : Option Instr := (s.blade.fetch s.mem t f).1.bind (decodeCode t)

/-- The instruction answers a result where it is the one at the firing's pc. -/
def Runs (s : State) (t : TileId) (f : Firing) (i : Instr) (r : Result) : Prop := codeOf s t f = some i → exec i s = r

/-- The instruction answers a next state of which P holds, where it is the one at the firing's pc. -/
def RunsTo (s : State) (t : TileId) (f : Firing) (i : Instr) (P : State → Prop) : Prop := codeOf s t f = some i → Yields i s P

/-- An instruction of a tile: some word spells it. -/
def OfTile (t : TileId) (i : Instr) : Prop := ∃ w, decodeCode t w = some i

/-- Memory and blade once the instruction has been fetched. -/
def fetchedMem (s : State) (t : TileId) (f : Firing) : Memory := (s.blade.fetch s.mem t f).2.1
def fetchedBlade (s : State) (t : TileId) (f : Firing) : Blade := (s.blade.fetch s.mem t f).2.2

/-- The state an instruction leaves that changes the tile's firing and nothing else. -/
def issued (s : State) (t : TileId) (f g : Firing) : State :=
  ends s (fetchedMem s t f) ((fetchedBlade s t f).putFiring t g)

/-- The state an instruction leaves that traps with a code (R108). -/
def trapped (s : State) (t : TileId) (f : Firing) (code damage : Nat) : State :=
  ends s (fetchedMem s t f) ((fetchedBlade s t f).trap (fetchedMem s t f) t f code damage)

/-- A result written to a register, the pc past the instruction. -/
def wrote (f : Firing) (rd : RegNo) (v : Word64) (poison : Bool) : Firing :=
  { f.write rd v poison with pc := f.pc + 4, executed := f.executed + 1 }

/-- The word that holds an address, and the place where memory keeps it. -/
def wordPlace (b : Blade) (a : Nat) : Nat := b.place (a / 8 * 8)

/-! ## Tokens -/

/-- A unit takes a token as it is: it has no parity error (R60) and no reserved form (R63), its context's record is not
lost (R96), not cancelled (R92), and neither parked nor on the way there or back (R174, R176, R184). -/
structure Arrives (b : Blade) (tok : Token) : Prop where
  clean : tok.parityBad = 0
  legal : tok.reserved = false
  kept : (b.ctx tok.context.toNat).recordLost = false
  wanted : b.cancelling tok.context.toNat = false
  here : b.led.parking = none
  unparked : (b.ctx tok.context.toNat).state ≠ .parked

/-- The words of a token's node descriptor read well (R78, R315). -/
structure DescriptorSound (s : State) (tok : Token) : Prop where
  known : s.blade.led.lostDescriptors = []
  low : s.mem.mark (descAddr (s.blade.slotOf tok.context.toNat) tok.node.toNat) = .sound
  high : s.mem.mark (descAddr (s.blade.slotOf tok.context.toNat) tok.node.toNat + 8) = .sound

/-- No injection is armed on what a tile stores of tokens (Table 12.8). -/
def TileUnharmed (b : Blade) (t : Nat) : Prop := ∀ k ∈ [1, 2, 3, 4], b.armed (srcTile t k) 1 = false

/-- No injection is armed on the words of a token as it is sent (R543). -/
def SendsUnharmed (b : Blade) : Prop := b.armed srcTagParity 1 = false ∧ b.armed srcValueParity 1 = false

/-- A token that becomes ready joins its tile's queue last (R263). -/
def readied (b : Blade) (ts : List Token) : ReadyEntry := { tokens := ts, age := b.net.stamp, unreadable := false }

/-! ## Queues and halyards -/

/-- No injection of a parity or link error is armed on the queue pool (Table 12.8), and no write of the command engine is
unfinished (R374). -/
def PoolUnharmed (b : Blade) : Prop :=
  b.armed srcQWriteParity 1 = false ∧ b.armed srcQCellParity 1 = false ∧ b.armed srcQLinkLost 1 = false ∧
    b.pool.waiting = []

/-- A producer has a packet open in a hoisted queue that takes one more word without a new cell (R359, R361). -/
structure OpenWithRoom (b : Blade) (who : Producer) (q i : Nat) : Prop where
  hoisted : b.struck (fnQueue q) = false
  packet : b.openPacket who q = some i
  good : (b.packet i).bad = false
  readable : (b.packet i).descBad = false
  short : (b.packet i).words.length < 1024
  room : (b.packet i).words.length ≠ 15 * (b.packet i).cells.length

/-- A halyard may run a word at its turn: its cluster is hoisted, it is the next in rotation that has not yielded (R386), its registers read well, no injection
is armed on the state its word writes, and the word is no SEQ at the last address (R390). -/
structure HalyardRuns (s : State) (c : ClusterId) (h : HalyardId) : Prop where
  hoisted : s.blade.struck (fnCluster c.val) = false
  turn : s.blade.turnOf c = some h
  sound : (s.blade.halyard (laneNo c h)).parityBad = false
  unharmed : s.blade.armed (srcCluster c.val 2) 1 = false
  notLast : (s.blade.halyard (laneNo c h)).pc ≠ 0xFFF

/-- The fields of a word of Table 9.7 that carry one operation of a length and an argument and nothing else. -/
def ioWord (len : BitVec 2) (asel ioreg : BitVec 4) (ioarg : BitVec 8) : IoFields :=
  { len := len, asel := asel, ioreg := ioreg, ioarg := ioarg, evmask := 0 }

/-- A halyard has completed a word that writes no register: it stands at the next address. -/
def Stepped (before after : Blade) (l : Nat) : Prop :=
  (after.halyard l).pc = (before.halyard l).pc + 1 ∧ (after.halyard l).u = (before.halyard l).u ∧
    (after.halyard l).replaying = false

/-! ## Lane ports -/

/-- A port's receiver is on, its card's mux selects the blade (R21), and it takes a pennant of a type as valid: no line error (R426), its CRC right (R433), no injection
armed on the receiver, and no header error (R434). -/
structure GoodPennant (b : Blade) (l type : Nat) (p : Pennant) : Prop where
  receiving : b.hears l = true
  groups : p.codeGroupError = false
  whole : p.innerStart = false
  unharmed : b.armed (srcPort l 0) 1 = false
  crc : p.crc = crc32 (pennantBody type p)
  header : headerValid type p = true

/-- The blade once a valid pennant has been received: its time is noted, and its ack field taken (R435, R450). -/
def heard (b : Blade) (l : Nat) (p : Pennant) : Blade :=
  let n := b.modPort l fun q => { q with lastValid := b.frame }
  if p.ackv = true ∧ (b.port l).full = true then n.podAck l p.ack else n

/-- The FILL that a port sends (Table 10.4). -/
def fillOf (b : Blade) (l : Nat) : List Byte :=
  (TxHeader.of 8 0 0).bytes (some (b.port l).rxAcked)
    (leBytes 2 b.frame.toNat ++ leBytes 1 (b.port l).state.toNat ++ [0])

/-! ## Memory -/

/-- The words of a stretch of memory are sound, and no injection is armed on the DRAM channels: bytes written there in part of
a word are kept (R307, R315). -/
structure Clean (m : Memory) (b : Blade) (a n : Nat) : Prop where
  sound : ∀ i, a ≤ i → i < a + n → m.mark i = .sound
  calm : ∀ k ∈ [0, 1, 2, 3], b.armed (srcWide 4 k) 1 = false

/-- Commands that may change a byte of memory: stores of a codelet or a halyard, a HOIST, images, a standby's copies, a
repair, and what starts the blade again. Every other command leaves all bytes as they were. -/
def mayStore (i : Instr) : Bool :=
  match i with
  | .st8 .. | .st16 .. | .st32 .. | .st64 .. | .cas64 .. | .cas32 .. | .microword .. | .mwr .. => true
  | .hoist _ | .loadImage _ | .activateImageGraph _ | .activateImageMicrocode _ | .activateImageFirmware _ => true
  | .configBlock _ | .roleBlock _ | .partnerAliveLoss | .claimLineChange _ | .joinComplete | .takeover | .tick => true
  | .bladeReset _ | .bladeResetFabric _ | .powerOnReset _ | .resetPulse | .soloRestart | .fabricReset => true
  | .partnerWaitTimeout | .carrierReadyTimeout | .liveRepairComplete | .sweepBorrow .. => true
  | _ => false

/-! ## Commands of the engine (chapter 11) -/

/-- The blade once a request has been accepted and its command begins: its key arm as R481 leaves it. -/
def began (s : State) (r : Request) : Blade := (s.blade.accept r).2.beginCommand r

/-- A request of an opcode passes checks 1 to 5, and the blade's role lets its command run (Table 11.3). -/
structure Admitted (s : State) (code : Nat) (standby : Bool) (r : Request) : Prop where
  opcode : r.opcode.toNat = code
  passes : (s.blade.accept r).1 = true
  role : standby = true ∨ (s.blade.accept r).2.active = true

/-- A deferred command finds no other of its opcode and fewer than eight waiting (R483). -/
def HasRoom (s : State) (code : Nat) (r : Request) : Prop := (began s r).deferBusy (.ofNat 8 code) = false

/-- The command engine's key arm is set as the command begins. -/
def Armed (s : State) (r : Request) : Prop := (began s r).isArmed .command = true

/-- Where a request's reply goes, and what it is tagged with (R471, R474). -/
def replyTo (s : State) (r : Request) : ReplyTo := rqReplyTo s.blade r

/-- The state that a command leaves whose only effect is its reply. -/
def replied (s : State) (r : Request) (status : Nat) (data : List Byte) : State :=
  ends s s.mem ((began s r).answer (replyTo s r) status data)

end Sys2Proof.Safety
end

