-- ==== Sys2Proof/Certificates/Slice0/Obligations.lean ====
section
/-! DEFINITION. The statements for the provers. -/

open Sys2Proof Sys2Proof.Machine Sys2Proof.Safety

/-- A step takes the command at the front of the queue and runs it on the state with the queue's rest; on an empty queue the
block idles (log entry 1: the model's choice). -/
def Obligations.StepRunsFrontCommand : Prop :=
  (∀ (s : State) (c : Instr) (rest : List Instr), step { s with pending := c :: rest } = exec c { s with pending := rest }) ∧
    ∀ s : State, s.pending = [] → step s = .next s

/-- Every command answers a next state in every state, neither a fault nor a refusal, and leaves the queue alone. -/
def Obligations.EveryCommandCompletes : Prop :=
  ∀ (i : Instr) (s : State), ∃ t, exec i s = .next t ∧ t.pending = s.pending

/-- R245, R203, R202, R201 and Table 4.4: the instructions over registers that never trap of themselves. Every result is
exact and cut to 64 bits; a poisoned source poisons it (R222). R202: a shift's amount is the whole value of its operand; a
rotation takes it modulo 64. Table 4.3: the instructions over a register and an immediate; SETH keeps the other quarters of
rd. -/
def Obligations.IntegerResults : Prop :=
  (∀ (s : State) (t : TileId) (f : Firing) (rd ra rb rc : RegNo), Issues s t f →
    let a := f.reg ra
    let b := f.reg rb
    let c := f.reg rc
    let cin := (f.reg rc).toNat % 2
    let two := fun v : Word64 => Host.Outcome.next (issued s t f (wrote f rd v (f.bad ra || f.bad rb)))
    let three := fun v : Word64 => Host.Outcome.next (issued s t f (wrote f rd v (f.bad ra || (f.bad rb || f.bad rc))))
    let truth := fun p : Bool => if p then (1 : Word64) else 0
    Runs s t f (.add t rd ra rb 0) (two (.ofNat 64 (a.toNat + b.toNat))) ∧
    Runs s t f (.sub t rd ra rb 0) (two (.ofInt 64 ((a.toNat : Int) - b.toNat))) ∧
    Runs s t f (.addc t rd ra rb rc) (three (.ofNat 64 (a.toNat + b.toNat + cin))) ∧
    Runs s t f (.subb t rd ra rb rc) (three (.ofInt 64 ((a.toNat : Int) - b.toNat - cin))) ∧
    Runs s t f (.carry t rd ra rb rc) (three (.ofNat 64 ((a.toNat + b.toNat + cin) / 2 ^ 64))) ∧
    Runs s t f (.borrow t rd ra rb rc) (three (truth (a.toNat < b.toNat + cin))) ∧
    Runs s t f (.neg t rd ra 0 0) (.next (issued s t f (wrote f rd (.ofInt 64 (-(a.toNat : Int))) (f.bad ra)))) ∧
    Runs s t f (.and t rd ra rb 0) (two (a &&& b)) ∧
    Runs s t f (.or t rd ra rb 0) (two (a ||| b)) ∧
    Runs s t f (.xor t rd ra rb 0) (two (a ^^^ b)) ∧
    Runs s t f (.andn t rd ra rb 0) (two (a &&& ~~~b)) ∧
    Runs s t f (.cmpeq t rd ra rb 0) (two (truth (a.toNat = b.toNat))) ∧
    Runs s t f (.cmplt t rd ra rb 0) (two (truth (a.toInt < b.toInt))) ∧
    Runs s t f (.cmpltu t rd ra rb 0) (two (truth (a.toNat < b.toNat))) ∧
    Runs s t f (.sel t rd ra rb rc) (three (if c = 0 then b else a)) ∧
    Runs s t f (.mul t rd ra rb 0) (two (.ofNat 64 (a.toNat * b.toNat))) ∧
    Runs s t f (.mulhu t rd ra rb 0) (two (.ofNat 64 (a.toNat * b.toNat / 2 ^ 64))) ∧
    Runs s t f (.mulhs t rd ra rb 0) (two (.ofInt 64 (a.toInt * b.toInt / 2 ^ 64)))) ∧
  (∀ (s : State) (t : TileId) (f : Firing) (rd ra rb : RegNo) (n : BitVec 8), Issues s t f →
    let a := f.reg ra
    let sll := fun k : Nat => BitVec.ofNat 64 (a.toNat * 2 ^ k)
    let srl := fun k : Nat => BitVec.ofNat 64 (a.toNat / 2 ^ k)
    let sra := fun k : Nat => BitVec.ofInt 64 (a.toInt / 2 ^ k)
    let rol := fun k : Nat => BitVec.ofNat 64 (a.toNat * 2 ^ (k % 64) + a.toNat / 2 ^ (64 - k % 64))
    let ror := fun k : Nat => BitVec.ofNat 64 (a.toNat / 2 ^ (k % 64) + a.toNat * 2 ^ (64 - k % 64))
    let two := fun v : Word64 => Host.Outcome.next (issued s t f (wrote f rd v (f.bad ra || f.bad rb)))
    let imm := fun v : Word64 => Host.Outcome.next (issued s t f (wrote f rd v (f.bad ra)))
    Runs s t f (.sll t rd ra rb 0) (two (sll (f.reg rb).toNat)) ∧
    Runs s t f (.srl t rd ra rb 0) (two (srl (f.reg rb).toNat)) ∧
    Runs s t f (.sra t rd ra rb 0) (two (sra (f.reg rb).toNat)) ∧
    Runs s t f (.rol t rd ra rb 0) (two (rol (f.reg rb).toNat)) ∧
    Runs s t f (.ror t rd ra rb 0) (two (ror (f.reg rb).toNat)) ∧
    Runs s t f (.shifti t rd ra (BitVec.ofNat 16 n.toNat)) (imm (sll n.toNat)) ∧
    Runs s t f (.shifti t rd ra (BitVec.ofNat 16 (0x100 + n.toNat))) (imm (srl n.toNat)) ∧
    Runs s t f (.shifti t rd ra (BitVec.ofNat 16 (0x200 + n.toNat))) (imm (sra n.toNat)) ∧
    Runs s t f (.shifti t rd ra (BitVec.ofNat 16 (0x300 + n.toNat))) (imm (rol n.toNat))) ∧
  (∀ (s : State) (t : TileId) (f : Firing) (rd ra : RegNo) (imm : BitVec 16) (h : BitVec 2), Issues s t f →
    let a := f.reg ra
    let one := fun v : Word64 => Host.Outcome.next (issued s t f (wrote f rd v (f.bad ra)))
    let truth := fun p : Bool => if p then (1 : Word64) else 0
    Runs s t f (.addi t rd ra imm) (one (.ofInt 64 ((a.toNat : Int) + imm.toInt))) ∧
    Runs s t f (.andi t rd ra imm) (one (a &&& .ofNat 64 imm.toNat)) ∧
    Runs s t f (.ori t rd ra imm) (one (a ||| .ofNat 64 imm.toNat)) ∧
    Runs s t f (.xori t rd ra imm) (one (a ^^^ .ofNat 64 imm.toNat)) ∧
    Runs s t f (.cmpeqi t rd ra imm) (one (truth (a.toInt = imm.toInt))) ∧
    Runs s t f (.cmplti t rd ra imm) (one (truth (a.toInt < imm.toInt))) ∧
    Runs s t f (.cmpltui t rd ra imm) (one (truth (a.toNat < imm.toNat))) ∧
    RunsTo s t f (.seth t rd (h.setWidth 5) imm) fun u =>
      ∃ v : Word64, u = issued s t f (wrote f rd v (f.bad rd)) ∧
        ∀ i, i < 64 → v.getLsbD i = if i / 16 = h.toNat then imm.getLsbD (i % 16) else (f.reg rd).getLsbD i)

/-- R203: division, its signed edges, and DIVZERO, which writes nothing and ends the firing as a trap. -/
def Obligations.DivisionResults : Prop :=
  ∀ (s : State) (t : TileId) (f : Firing) (rd ra rb : RegNo), Issues s t f →
    let a := f.reg ra
    let b := f.reg rb
    let two := fun v : Word64 => Host.Outcome.next (issued s t f (wrote f rd v (f.bad ra || f.bad rb)))
    (b ≠ 0 →
      Runs s t f (.div t rd ra rb 0) (two (.ofInt 64 (a.toInt.tdiv b.toInt))) ∧
      Runs s t f (.rem t rd ra rb 0) (two (.ofInt 64 (a.toInt.tmod b.toInt))) ∧
      Runs s t f (.divu t rd ra rb 0) (two (.ofNat 64 (a.toNat / b.toNat))) ∧
      Runs s t f (.remu t rd ra rb 0) (two (.ofNat 64 (a.toNat % b.toNat)))) ∧
    (b = 0 → (fetchedBlade s t f).trailFull = false →
      ∀ i ∈ [Instr.div t rd ra rb 0, .rem t rd ra rb 0, .divu t rd ra rb 0, .remu t rd ra rb 0],
        Runs s t f i (.next (trapped s t f 0x04 0))) ∧
    (a.toNat = 2 ^ 63 →
      Runs s t f (.neg t rd ra 0 0) (.next (issued s t f (wrote f rd a (f.bad ra)))) ∧
      (b.toInt = -1 → Runs s t f (.div t rd ra rb 0) (two a) ∧ Runs s t f (.rem t rd ra rb 0) (two 0)))

/-- R204, R249 and R256: every floating-point instruction takes its operands in the format of its size bit, rounds by its rm
field or by FCR, and accrues its flags; a poisoned source poisons the result and raises none. R205, R247 and R248: an
operation with a NaN operand gives the canonical NaN, with nv when an operand is signalling; the canonical NaN of each format
is the word that R205 names, and a compare with a NaN gives 0. -/
def Obligations.FloatResults : Prop :=
  (∀ (s : State) (t : TileId) (f : Firing) (rd ra rb rc : RegNo) (rm : BitVec 3) (size : BitVec 1),
    Issues s t f → rm.toNat ≤ 5 →
    let k := if size = 0 then binary64 else binary32
    let mode := Rm.ofCode (if rm = 0 then f.fcr.toNat else rm.toNat - 1)
    let a := k.unpack (f.reg ra)
    let b := k.unpack (f.reg rb)
    let c := k.unpack (f.reg rc)
    let done := fun (p : Bool) (r : FpResult) =>
      Host.Outcome.next (issued s t f { wrote f rd r.1 p with fps := f.fps ||| (if p then 0 else r.2) })
    let p1 := f.bad ra
    let p2 := f.bad ra || f.bad rb
    let two : FpFields := { rd := rd, ra := ra, rb := rb, rm := rm, zero := 0, size := size }
    let one : FpFields := { two with rb := 0 }
    let plain : FpFields := { two with rm := 0 }
    let wide : FpFields := { one with size := 0 }
    Runs s t f (.fadd t two) (done p2 (k.add mode a b)) ∧
    Runs s t f (.fsub t two) (done p2 (k.add mode a b.negate)) ∧
    Runs s t f (.fmul t two) (done p2 (k.mul mode a b)) ∧
    Runs s t f (.fdiv t two) (done p2 (k.div mode a b)) ∧
    Runs s t f (.fsqrt t one) (done p1 (k.sqrt mode a)) ∧
    Runs s t f (.fma t { rd := rd, ra := ra, rb := rb, rc := rc, rm := rm, zero := 0, size := size })
      (done (f.bad ra || (f.bad rb || f.bad rc)) (k.fma mode a b c)) ∧
    Runs s t f (.fcmpeq t plain) (done p2 (fpCompare (· = 0) false a b)) ∧
    Runs s t f (.fcmplt t plain) (done p2 (fpCompare (· < 0) true a b)) ∧
    Runs s t f (.fcmple t plain) (done p2 (fpCompare (· ≤ 0) true a b)) ∧
    Runs s t f (.fcvtI t two) (done p1 (toInteger (-(2 ^ 63)) (2 ^ 63 - 1) mode a)) ∧
    Runs s t f (.fcvtU t two) (done p1 (toInteger 0 (2 ^ 64 - 1) mode a)) ∧
    Runs s t f (.fcvtFi t two) (done p1 (k.ofInteger mode (f.reg ra).toInt)) ∧
    Runs s t f (.fcvtFu t two) (done p1 (k.ofInteger mode (f.reg ra).toNat)) ∧
    Runs s t f (.fwiden t wide) (done p1 (binary64.convert mode (binary32.unpack (f.reg ra)))) ∧
    Runs s t f (.fnarrow t wide) (done p1 (binary32.convert mode (binary64.unpack (f.reg ra))))) ∧
  (binary64.qnan = 0x7FF8000000000000 ∧ binary32.qnan = 0x7FC00000 ∧
  ∀ (k : Fmt) (m : Rm) (a b : FVal), a.isNan = true ∨ b.isNan = true →
    let nv : FpFlags := if a.isSignalling || b.isSignalling then 1 else 0
    k.add m a b = (k.qnan, nv) ∧ k.mul m a b = (k.qnan, nv) ∧ k.div m a b = (k.qnan, nv) ∧
    fpCompare (· = 0) false a b = (0, nv) ∧ fpCompare (· < 0) true a b = (0, 1) ∧ fpCompare (· ≤ 0) true a b = (0, 1))

/-- R262 and R249: FWIDEN of any binary32 datum that is no NaN is exact: it raises no flag and its result is the same datum
in every rounding mode. -/
def Obligations.WidenIsExact : Prop :=
  ∀ (m : Rm) (w : Word64), (binary32.unpack w).isNan = false →
    let r := binary64.convert m (binary32.unpack w)
    r.2 = 0 ∧ (binary64.unpack r.1).isNan = false ∧ (binary64.unpack r.1).order (binary32.unpack w) = 0

/-- R237 and R223: a branch not taken passes to the next word whatever its target; a taken branch or a jump goes to its
target when that lies in the codelet segment, and traps BAD_TARGET otherwise; JAL and JALR write the address of the next
word. -/
def Obligations.BranchResults : Prop :=
  ∀ (s : State) (t : TileId) (f : Firing) (ra rd : RegNo) (disp : BitVec 21), Issues s t f →
    let m := fetchedMem s t f
    let dest : Int := f.pc + 4 * disp.toInt
    let goes := fun (g : Firing) (k : Nat) => Host.Outcome.next (issued s t f { g with pc := k, executed := f.executed + 1 })
    let link : Word64 := .ofNat 64 (f.pc + 4)
    (f.bad ra = false →
      (f.reg ra ≠ 0 → Runs s t f (.bz t ra disp) (goes f (f.pc + 4))) ∧
      (f.reg ra = 0 → Runs s t f (.bnz t ra disp) (goes f (f.pc + 4))) ∧
      (0 ≤ dest → m.inSegment f dest.toNat = true →
        (f.reg ra = 0 → Runs s t f (.bz t ra disp) (goes f dest.toNat)) ∧
        (f.reg ra ≠ 0 → Runs s t f (.bnz t ra disp) (goes f dest.toNat))) ∧
      (m.inSegment f (f.reg ra).toNat = true →
        Runs s t f (.jalr t rd ra 0 0 0) (goes (f.write rd link false) (f.reg ra).toNat))) ∧
    (0 ≤ dest → m.inSegment f dest.toNat = true → Runs s t f (.jal t rd disp) (goes (f.write rd link false) dest.toNat)) ∧
    ((fetchedBlade s t f).trailFull = false →
      (f.bad ra = true → ∀ i ∈ [Instr.bz t ra disp, .bnz t ra disp, .jalr t rd ra 0 0 0],
        Runs s t f i (.next (trapped s t f 0x13 1))) ∧
      (dest < 0 ∨ m.inSegment f dest.toNat = false →
        (f.bad ra = false → f.reg ra = 0 → Runs s t f (.bz t ra disp) (.next (trapped s t f 0x14 0))) ∧
        (f.bad ra = false → f.reg ra ≠ 0 → Runs s t f (.bnz t ra disp) (.next (trapped s t f 0x14 0))) ∧
        Runs s t f (.jal t rd disp) (.next (trapped s t f 0x14 0))) ∧
      (f.bad ra = false → m.inSegment f (f.reg ra).toNat = false →
        Runs s t f (.jalr t rd ra 0 0 0) (.next (trapped s t f 0x14 0))))

/-- R207, R208, R306 and R12: loads of the shared SRAM, the image slots and the application region give the little-endian
value of the bytes at an aligned address whose word reads sound, extended to 64 bits with zeros or with its sign. -/
def Obligations.LoadResults : Prop :=
  ∀ (s : State) (t : TileId) (f : Firing) (rd ra : RegNo) (imm : BitVec 16), Issues s t f → f.bad ra = false →
    let b := fetchedBlade s t f
    let m := fetchedMem s t f
    let a := (f.reg ra + imm.signExtend 64).toNat
    let k := wordPlace b a
    a < 0x1000000 ∨ (0x150000000 ≤ a ∧ a < 0x180000000) ∨ (0x1C0000000 ≤ a ∧ a < 0x300000000) →
    b.offline (a / 8 * 8) = false → m.mark k = .sound →
    let done := fun v : Word64 => Host.Outcome.next (issued s t f (wrote f rd v false))
    let z := fun n : Nat => BitVec.ofNat 64 (m.nat (k + a % 8) n)
    let x := fun n : Nat => (BitVec.ofNat (8 * n) (m.nat (k + a % 8) n)).signExtend 64
    Runs s t f (.ld8u t rd ra imm) (done (z 1)) ∧ Runs s t f (.ld8s t rd ra imm) (done (x 1)) ∧
    (a % 2 = 0 → Runs s t f (.ld16u t rd ra imm) (done (z 2)) ∧ Runs s t f (.ld16s t rd ra imm) (done (x 2))) ∧
    (a % 4 = 0 → Runs s t f (.ld32u t rd ra imm) (done (z 4)) ∧ Runs s t f (.ld32s t rd ra imm) (done (x 4))) ∧
    (a % 8 = 0 → Runs s t f (.ld64 t rd ra imm) (done (z 8)))

/-- R207, R208, R224, R306 and R307: stores to the shared SRAM and the application region change exactly the bytes they store
to, and a poisoned value marks their word. -/
def Obligations.StoreResults : Prop :=
  ∀ (s : State) (t : TileId) (f : Firing) (rs ra : RegNo) (imm : BitVec 16), Issues s t f → f.bad ra = false →
    let b := fetchedBlade s t f
    let m := fetchedMem s t f
    let a := (f.reg ra + imm.signExtend 64).toNat
    let k := wordPlace b a
    a < 0x1000000 ∨ (0x1C0000000 ≤ a ∧ a < 0x300000000) → b.offline a = false → b.offline (a / 8 * 8) = false →
    m.mark k = .sound →
    ∀ p ∈ [(Instr.st8 t rs ra imm, 1), (.st16 t rs ra imm, 2), (.st32 t rs ra imm, 4), (.st64 t rs ra imm, 8)],
      a % p.2 = 0 →
      RunsTo s t f p.1 fun u =>
        u = ends s u.mem ((b.writtenMark (a / 8 * 8)).2.putFiring t { f with pc := f.pc + 4, executed := f.executed + 1 }) ∧
        (f.bad rs = true → u.mem.mark k = .poison) ∧
        ∀ x, u.mem.byte x =
          if k + a % 8 ≤ x ∧ x < k + a % 8 + p.2 then BitVec.ofNat 8 ((f.reg rs).toNat / 256 ^ (x - (k + a % 8)))
          else s.mem.byte x

/-- R217 and R223: CAS reads the word, writes the new value where the word equals the comparison value and leaves memory
alone where it does not; a poisoned operand traps. -/
def Obligations.CompareAndSwapResults : Prop :=
  ∀ (s : State) (t : TileId) (f : Firing) (rd ra rb rc : RegNo), Issues s t f →
    let b := fetchedBlade s t f
    let m := fetchedMem s t f
    let a := (f.reg ra).toNat
    let k := wordPlace b a
    (f.bad ra = false → f.bad rb = false → f.bad rc = false →
      a < 0x1000000 ∨ (0x1C0000000 ≤ a ∧ a < 0x300000000) → b.offline a = false → b.offline (a / 8 * 8) = false →
      m.mark k = .sound →
      ∀ p ∈ [(Instr.cas64 t rd ra rb rc, 8), (.cas32 t rd ra rb rc, 4)], a % p.2 = 0 →
        let old := m.nat (k + a % 8) p.2
        let same : Bool := old = (f.reg rb).toNat % 256 ^ p.2
        let counted := b.count64 (if a < 0x1000000 then rATOM else rATOM + 0x10)
        let after := if same then (counted.writtenMark (a / 8 * 8)).2 else counted.count64 (rATOM + 8)
        RunsTo s t f p.1 fun u =>
          u = ends s u.mem (after.putFiring t (wrote f rd (.ofNat 64 old) false)) ∧
          ∀ x, u.mem.byte x =
            if same ∧ k + a % 8 ≤ x ∧ x < k + a % 8 + p.2 then
              BitVec.ofNat 8 ((f.reg rc).toNat / 256 ^ (x - (k + a % 8)))
            else s.mem.byte x) ∧
    (f.bad ra = true ∨ f.bad rb = true ∨ f.bad rc = true → b.trailFull = false →
      Runs s t f (.cas64 t rd ra rb rc) (.next (trapped s t f 0x13 1)) ∧
      Runs s t f (.cas32 t rd ra rb rc) (.next (trapped s t f 0x13 1)))

/-- R226, R228, R229, R230 and Table 4.8: SEND and SENDD place one token in the output buffer, ordered only where a SEND of a
firing that holds a flow sequence comes from a node with ordered_release; a full buffer traps EMIT_LIMIT. R227, R231, R226
and R223: the arguments that SEND, SENDD and ADJ refuse, and ADJ's record. -/
def Obligations.EmissionResults : Prop :=
  (∀ (s : State) (t : TileId) (f : Firing) (i : SendFields) (list : BitVec 2), Issues s t f →
    i.zero = 0 → f.bad i.rt = false → (f.bad i.rv = true → i.cls = 0) → (f.reg i.rt).toNat < 2 ^ 48 →
    i.cls.toNat < 5 → i.port ≠ 3 → (i.ctrl = 1 → i.cls = 0) →
    let tag := (f.reg i.rt).toNat
    let tok : Token :=
      { context := .ofNat 16 (tag / 2 ^ 32), iteration := .ofNat 12 (tag / 2 ^ 20), port := i.port,
        kind := if i.ctrl = 0 then 0 else 2, node := .ofNat 20 tag, cls := i.cls, ordered := false, poison := f.bad i.rv,
        sequence := 0, flow := 0, value := f.reg i.rv, parityBad := 0 }
    let release : Bool := ((fetchedMem s t f).desc f.slotB f.node.toNat).orderedRelease
    let sent : Token := match f.heldSequence with
      | some (fl, q) => if release then { tok with ordered := true, flow := fl, sequence := q } else tok
      | none => tok
    let later := { i with list := list }
    let n := (f.reg i.rdl).toNat
    let joins := fun e : Emission =>
      Host.Outcome.next (issued s t f { f with emissions := f.emissions ++ [e], pc := f.pc + 4, executed := f.executed + 1 })
    let now := { i with rdl := 0, list := 0 }
    let most := if list = 0 then 65535 else 16777215
    (f.emissions.length < 16 →
      Runs s t f (.send t now) (joins (.now sent)) ∧
      (f.bad i.rdl = false → 1 ≤ n → n ≤ most →
        Runs s t f (.sendd t later) (joins (.delayed { token := tok, list := list.toFin, amount := n })))) ∧
    ((fetchedBlade s t f).trailFull = false →
      (16 ≤ f.emissions.length → Runs s t f (.send t now) (.next (trapped s t f 0x08 0))) ∧
      (f.bad i.rdl = false → n = 0 ∨ most < n → Runs s t f (.sendd t later) (.next (trapped s t f 0x0C 0))))) ∧
  (∀ (s : State) (t : TileId) (f : Firing) (ra : RegNo) (cls : BitVec 3) (reason : BitVec 16), Issues s t f →
    let i := Instr.adj t (cls.setWidth 5) ra reason
    let good := (1 ≤ cls.toNat ∧ cls.toNat ≤ 4) ∧ reason.toNat < 0xFF00
    (f.bad ra = false → good → f.adjustments.length < 8 →
      Runs s t f i (.next (issued s t f { f with
        adjustments := f.adjustments ++ [{ cls := cls, value := f.reg ra, reason := reason }],
        pc := f.pc + 4, executed := f.executed + 1 }))) ∧
    ((fetchedBlade s t f).trailFull = false →
      (f.bad ra = true → Runs s t f i (.next (trapped s t f 0x13 1))) ∧
      (f.bad ra = false → ¬ good → Runs s t f i (.next (trapped s t f 0x0A 0))) ∧
      (f.bad ra = false → good → 8 ≤ f.adjustments.length → Runs s t f i (.next (trapped s t f 0x09 0))) ∧
      ∀ x : SendFields, x.zero = 0 → f.bad x.rt = false → f.bad x.rv = false → f.bad x.rdl = false →
        (2 ^ 48 ≤ (f.reg x.rt).toNat ∨ 5 ≤ x.cls.toNat ∨ x.port = 3 ∨ (x.ctrl = 1 ∧ x.cls ≠ 0)) →
        Runs s t f (.send t { x with rdl := 0, list := 0 }) (.next (trapped s t f 0x0B 0)) ∧
        Runs s t f (.sendd t x) (.next (trapped s t f 0x0B 0))))

/-- R85, R88, R232 and R233: OPEN of a node of arity 1 takes the number at the head of the free list into rd, and writes 0
where opening is disabled or the list is empty; the fifth traps OPEN_LIMIT. R234, R235 and Table 2.7: CLOSE, CANCEL and PARK
of a context that this firing has neither opened nor asked anything of record one request and write the outcome that the
context's state gives. -/
def Obligations.ContextInstructions : Prop :=
  (∀ (s : State) (t : TileId) (f : Firing) (rd ra : RegNo) (slot : BitVec 2), Issues s t f →
    slot ≠ 3 → f.bad ra = false →
    let b := fetchedBlade s t f
    let m := fetchedMem s t f
    let node := (f.reg ra).toNat
    let slotB : Bool := if slot = 0 then f.slotB else slot = 2
    let i := Instr.openCtx t rd ra (.ofNat 16 (slot.toNat * 2 ^ 14))
    node < 2 ^ 20 → node < m.nodeCount slotB → (m.desc slotB node).arity = 1 →
    (f.openCount < 4 → b.flag rCTX 0 = true → ∀ c l, b.led.free.take = some (c, l) →
      Runs s t f i (.next (ends s m (({ b with led.free := l } : Blade).putFiring t
        (wrote { f with openCount := f.openCount + 1, opens := f.opens ++
          [{ context := .ofNat 16 c, slotB := slotB, exceptionNode := .ofNat 20 node, flow := none }] }
          rd (.ofNat 64 c) false))))) ∧
    (f.openCount < 4 → b.flag rCTX 0 = false ∨ b.led.free.take = none →
      Runs s t f i (.next (issued s t f (wrote { f with openCount := f.openCount + 1 } rd 0 false)))) ∧
    (4 ≤ f.openCount → b.trailFull = false → Runs s t f i (.next (trapped s t f 0x11 0)))) ∧
  (∀ (s : State) (t : TileId) (f : Firing) (rd ra : RegNo), Issues s t f → f.bad ra = false →
    let b := fetchedBlade s t f
    let c := (f.reg ra).toNat
    let x := b.ctx c
    let asks := fun (k : ContextRequestKind) (ok : Bool) =>
      Host.Outcome.next (issued s t f (wrote { f with requests := f.requests ++ [{ kind := k, context := .ofNat 16 c }] }
        rd (if ok then 1 else 0) false))
    let known : Bool := x.damage ≠ 0xFFFFFFFF
    (256 ≤ c → c < 65536 → f.requests.length < 8 → (∀ o ∈ f.opens, o.context.toNat ≠ c) →
      (∀ r ∈ f.requests, r.context.toNat ≠ c) →
      Runs s t f (.closeCtx t rd ra 0) (asks .close (known && (x.state = .live || x.state = .damaged))) ∧
      Runs s t f (.cancelCtx t rd ra 0) (asks .cancel (known &&
        (x.state = .live || x.state = .damaged || x.state = .parked || (x.state = .draining && !x.causeCancel)))) ∧
      Runs s t f (.parkCtx t rd ra 0) (asks .park (known && x.state = .live))) ∧
    (b.trailFull = false → ∀ i ∈ [Instr.closeCtx t rd ra 0, .cancelCtx t rd ra 0, .parkCtx t rd ra 0],
      (65536 ≤ c → Runs s t f i (.next (trapped s t f 0x0F 0))) ∧
      (c < 256 → Runs s t f i (.next (trapped s t f 0x0E 0))) ∧
      (256 ≤ c → c < 65536 → 8 ≤ f.requests.length → Runs s t f i (.next (trapped s t f 0x12 0)))))

/-- R236, R222 and Table 4.9: MFS reads each special register, never poisoned; CYCLE is a free value below 250,000 (log entry
4). MTS writes FPS and FCR, and traps ILLEGAL elsewhere. R220 and R221: a semaphore that is free, or held by this owner, is
acquired; it is released only by its owner with its generation, which then rises by one; another's semaphore is left alone. -/
def Obligations.SpecialInstructions : Prop :=
  (∀ (s : State) (t : TileId) (f : Firing) (rd ra : RegNo) (imm : BitVec 16), Issues s t f →
    let b := fetchedBlade s t f
    let ports := (f.inputs.zipIdx.map fun x => (x.1.cls.toNat + 8 * x.1.kind.toNat + 32) * 256 ^ x.2).sum
    let reads := fun (n : BitVec 16) (v : Nat) =>
      Runs s t f (.mfs t rd 0 n) (.next (issued s t f (wrote f rd (.ofNat 64 v) false)))
    (reads 0 f.fps.toNat ∧ reads 1 f.fcr.toNat ∧ reads 2 ports ∧ reads 3 f.executed ∧ reads 4 f.emissions.length ∧
      reads 5 f.adjustments.length ∧ reads 6 t.val ∧ reads 7 b.frame.toNat ∧
      reads 9 (f.lastTag.toNat + 4 * (if f.poisonSeen then 1 else 0)) ∧ reads 10 f.poisoned.toNat ∧
      reads 11 (if f.slotB then 1 else 0)) ∧
    (RunsTo s t f (.mfs t rd 0 8) fun u => ∃ v, v < 250000 ∧
      u = ends s (fetchedMem s t f) (({ b with draws := b.draws + 1 } : Blade).putFiring t (wrote f rd (.ofNat 64 v) false))) ∧
    (f.bad ra = false →
      Runs s t f (.mts t 0 ra 0)
        (.next (issued s t f { f with fps := (f.reg ra).setWidth 5, pc := f.pc + 4, executed := f.executed + 1 })) ∧
      ((f.reg ra).toNat % 8 < 5 → Runs s t f (.mts t 0 ra 1)
        (.next (issued s t f { f with fcr := (f.reg ra).setWidth 3, pc := f.pc + 4, executed := f.executed + 1 })))) ∧
    (b.trailFull = false →
      (12 ≤ imm.toNat → Runs s t f (.mfs t rd 0 imm) (.next (trapped s t f 0x01 0))) ∧
      (2 ≤ imm.toNat → Runs s t f (.mts t 0 ra imm) (.next (trapped s t f 0x01 0))))) ∧
  (∀ (s : State) (t : TileId) (f : Firing) (rd ra rb : RegNo), Issues s t f → f.bad ra = false → f.bad rb = false →
    let b := fetchedBlade s t f
    let n := (f.reg ra).toNat
    let x := b.sem n
    let mine : Bool := x.held && x.cls = 0 && x.unit = 0 && x.context = f.context
    let gives := fun (b' : Blade) (v : Nat) =>
      Host.Outcome.next (ends s (fetchedMem s t f) (b'.putFiring t (wrote f rd (.ofNat 64 v) false)))
    n < 1024 → b.flag (rATOM + 0x100 + 4 * (n / 32)) 0 = true →
    (x.held = false ∨ mine = true → Runs s t f (.semAcq t rd ra 0 0 0)
      (gives (b.setSem n { x with held := true, cls := 0, unit := 0, context := f.context }) (1 + x.generation.toNat * 2 ^ 16))) ∧
    (x.held = true → mine = false → Runs s t f (.semAcq t rd ra 0 0 0) (gives b 0)) ∧
    (mine = true → (f.reg rb).toNat % 2 ^ 16 = x.generation.toNat → Runs s t f (.semRel t rd ra rb 0 0)
      (gives (b.setSem n { held := false, cls := 0, unit := 0, context := 0, generation := x.generation + 1 }) 1)) ∧
    (mine = false ∨ (f.reg rb).toNat % 2 ^ 16 ≠ x.generation.toNat → Runs s t f (.semRel t rd ra rb 0 0)
      (gives ((b.count (rATOM + 0x18)).record (.plain recSEM n (f.context.toNat * 2 ^ 16)
        ((f.reg rb).toNat % 2 ^ 16 + x.generation.toNat * 2 ^ 16))) 0)))

/-- R98, R100, R194 and R238: END of a firing without emissions, adjustments or requests ends it: the tile is free, its key
arm clear, and every input counts as consumed in its context. -/
def Obligations.EndResults : Prop :=
  ∀ (s : State) (t : TileId) (f : Firing), Issues s t f → f.emissions = [] → f.adjustments = [] → f.opens = [] →
    f.requests = [] → (∀ i ∈ f.inputs, i.cls = 0) → (fetchedBlade s t f).trailFull = false →
    RunsTo s t f (.endFiring t 0) fun u => ∃ b' : Blade, u = ends s (fetchedMem s t f) b' ∧
      (b'.tile t.val).firing = none ∧ b'.isArmed (.tile t) = false ∧
      (b'.ctx f.context.toNat).consumed =
        ((fetchedBlade s t f).ctx f.context.toNat).consumed + .ofNat 64 f.inputs.length

/-- R239, R195 to R198: the traps that any instruction meets before its own: INSN_LIMIT, a fetch outside the segment, FETCH,
and ILLEGAL for a word that Tables 4.3 to 4.6 do not list or a field that must be zero. R207, R208 and R241: where loads, stores and CAS trap by their address:
ADDR outside every window and for writes below the application region, QWIDTH and CSR_WIDTH before MISALIGN, CAS_REGION in
the queue and register windows. -/
def Obligations.TrapCauses : Prop :=
  (∀ (s : State) (t : TileId) (f : Firing) (rd ra rb : RegNo),
    (s.blade.tile t.val).firing = some f → f.stall = none → s.blade.stopped = false → s.blade.trailFull = false →
    let traps := fun (i : Instr) (code : Nat) => exec i s = .next (ends s s.mem (s.blade.trap s.mem t f code 0))
    (4096 ≤ f.executed → ∀ i, OfTile t i → traps i 0x07) ∧
    (f.executed < 4096 → s.mem.inSegment f f.pc = false → ∀ i, OfTile t i → traps i 0x14) ∧
    (Issues s t f → (fetchedBlade s t f).trailFull = false → ∀ rc : RegNo, rc ≠ 0 →
      ∀ i ∈ [Instr.add t rd ra rb rc, .mul t rd ra rb rc, .div t rd ra rb rc, .mfs t rd rc 0, .semAcq t rd ra rc 0 0],
        Runs s t f i (.next (trapped s t f 0x01 0))) ∧
    (Issues s t f → (fetchedBlade s t f).trailFull = false → ∀ i, OfTile t i →
      ((s.blade.fetch s.mem t f).1 = none → exec i s = .next (trapped s t f 0x1A 0)) ∧
      ∀ w, (s.blade.fetch s.mem t f).1 = some w → decodeCode t w = none → exec i s = .next (trapped s t f 0x01 0))) ∧
  (∀ (s : State) (t : TileId) (f : Firing) (rd ra rb rc : RegNo), Issues s t f →
    (fetchedBlade s t f).trailFull = false → f.bad ra = false → f.bad rb = false → f.bad rc = false →
    let a := (f.reg ra).toNat
    let traps := fun (i : Instr) (code : Nat) => Runs s t f i (.next (trapped s t f code 0))
    (0x3000000 ≤ a → a < 0x100000000 ∨ 0x300000000 ≤ a →
      traps (.ld8u t rd ra 0) 0x15 ∧ traps (.ld64 t rd ra 0) 0x15 ∧ traps (.st8 t rb ra 0) 0x15 ∧
      traps (.st64 t rb ra 0) 0x15 ∧ traps (.cas64 t rd ra rb rc) 0x15) ∧
    (0x100000000 ≤ a → a < 0x1C0000000 →
      traps (.st8 t rb ra 0) 0x15 ∧ traps (.st64 t rb ra 0) 0x15 ∧ traps (.cas32 t rd ra rb rc) 0x15) ∧
    (0x1000000 ≤ a → a < 0x2000000 →
      traps (.ld8u t rd ra 0) 0x19 ∧ traps (.ld64 t rd ra 0) 0x19 ∧ traps (.st16 t rb ra 0) 0x19 ∧
      traps (.cas64 t rd ra rb rc) 0x16 ∧ (a % 4 ≠ 0 → traps (.ld32u t rd ra 0) 0x02 ∧ traps (.st32 t rb ra 0) 0x02)) ∧
    (0x2000000 ≤ a → a < 0x3000000 →
      traps (.ld16s t rd ra 0) 0x03 ∧ traps (.st64 t rb ra 0) 0x03 ∧ traps (.cas32 t rd ra rb rc) 0x16 ∧
      (a % 4 ≠ 0 → traps (.ld32s t rd ra 0) 0x02 ∧ traps (.st32 t rb ra 0) 0x02)) ∧
    (a < 0x1000000 ∨ (0x1C0000000 ≤ a ∧ a < 0x300000000) →
      (a % 2 ≠ 0 → traps (.ld16u t rd ra 0) 0x02 ∧ traps (.st16 t rb ra 0) 0x02) ∧
      (a % 8 ≠ 0 → traps (.ld64 t rd ra 0) 0x02 ∧ traps (.st64 t rb ra 0) 0x02 ∧ traps (.cas64 t rd ra rb rc) 0x02)))

/-- R108 and R225: a trap ends the firing and clears its key arm; damage to a LIVE context counts one and makes it DAMAGED. -/
def Obligations.TrapEndsFiring : Prop :=
  ∀ (b : Blade) (m : Memory) (t : TileId) (f : Firing) (code : Nat),
    ((b.trap m t f code 0).tile t.val).firing = none ∧ (b.trap m t f code 0).isArmed (.tile t) = false ∧
    ((b.ctx f.context.toNat).state = .live → (b.ctx f.context.toNat).damage = 0 →
      ((b.addDamage m f.context.toNat 1).ctx f.context.toNat).state = .damaged ∧
      ((b.addDamage m f.context.toNat 1).ctx f.context.toNat).damage = 1)

/-- R359, R361, R362 and R374 to R376: a DATA store appends its word to the packet the requester has open, and opens one where it
has none and a cell is granted; a POISON word makes the packet bad; on a struck queue, or where no cell is granted, the store
waits: a halyard for the queue, a firing in a stall, which traps QFULL at once where the queue allows none. R360, R361, R363 and
R365: SEAL gives a hardware producer's packet its length and makes it visible, or pending where its queue releases at a tick;
a firing's packet is held until END; ABORT, and SEAL of a bad packet, drop it. R366, R367, R368, R370, R371 and R376: HEAD
claims the oldest visible packet and answers its header, SELECT the packet of a handle, DATA the next word, and DROP_REST
ends the cursor; an empty or struck queue answers IDLE. -/
def Obligations.QueueWindow : Prop :=
  (∀ (s : State) (who : Requester) (q : QueueId) (v : BitVec 32) (i : Nat), PoolUnharmed s.blade →
    let b := s.blade
    let p := b.packet i
    let w : QWord := { value := v, bad := false }
    let store := Instr.qDataStore who q v
    (OpenWithRoom b (.requester who) q.toNat i →
      exec (store false) s = .next (ends s s.mem (b.setPacket i { p with words := p.words ++ [w] })) ∧
      Leaves (store true) s fun b' => (b'.packet i).bad = true ∧ (b'.packet i).words = [] ∧ (b'.packet i).cells = []) ∧
    (b.struck (fnQueue q.toNat) = false → b.openPacket (.requester who) q.toNat = none →
      b.openCount (.requester who) < 8 → ∀ n b₁, b.takeCell q.toNat = some (n, b₁) →
      Leaves (store false) s fun b' =>
        b'.packet b.pool.next = { Packet.none with
          queue := q, cells := [n], words := [w], tag := .ofNat 8 (b.queue q.toNat).opens, producer := .requester who,
          frame := b.frame }) ∧
    (b.struck (fnQueue q.toNat) = true ∨ (b.openPacket (.requester who) q.toNat = none ∧
        b.openCount (.requester who) < 8 ∧ b.takeCell q.toNat = none) →
      (∀ c h, who = .halyard c h → exec (store false) s = .next (ends s s.mem
        (b.setHalyard (laneNo c h) { b.halyard (laneNo c h) with waitsFor := some q }))) ∧
      (∀ t f, who = .tile t → (b.tile t.val).firing = some f → f.stall = none →
        ((b.queue q.toNat).stallFrames ≠ 0 → exec (store false) s = .next (ends s s.mem
          ((b.count (rQPOOL + 0x4C)).putFiring t { f with stall := some (QueueStall.mk q false v false b.frame false) }))) ∧
        ((b.queue q.toNat).stallFrames = 0 → b.trailFull = false →
          exec (store false) s = .next (ends s s.mem (b.trap s.mem t f 0x06 0)))) ∧
      (who = .command → 8256 ≤ q.toNat → q.toNat < 8288 → Leaves (store false) s fun b' =>
        (b'.channel (q.toNat - 8256)).waitingWords = (b.channel (q.toNat - 8256)).waitingWords ++ [w]))) ∧
  (∀ (s : State) (who : Requester) (q : QueueId) (pad : BitVec 2) (i : Nat), PoolUnharmed s.blade →
    let b := s.blade
    let p := b.packet i
    let tile := match who with
      | .tile _ => true
      | _ => false
    let sealing := Instr.qSeal who q (pad.setWidth 32)
    b.openPacket (.requester who) q.toNat = some i → p.queue = q →
    (p.bad = false → p.descBad = false → pad.toNat ≤ 4 * p.words.length →
      Leaves sealing s fun b' => (b'.packet i).length = 4 * p.words.length - pad.toNat ∧
        (b'.packet i).state =
          (if tile then .held else if (b.queue q.toNat).tickRelease then .pending else .visible)) ∧
    (p.bad = true → Leaves sealing s fun b' => b'.packet i = Packet.none) ∧
    Leaves (.qAbort who q) s fun b' => b'.packet i = Packet.none) ∧
  (∀ (s : State) (who : Requester) (q : QueueId) (i : Nat) (c : Cursor) (x : QWord),
    let b := s.blade
    let p := b.packet i
    let header : Word32 := .ofNat 32 (p.length + p.tag.toNat * 2 ^ 16)
    (b.struck (fnQueue q.toNat) = false → b.cursor who q.toNat = none → p.descBad = false →
      (b.oldestVisible q.toNat = some i → (who = .command → p.reached.any (·.bad) = false) →
        Leaves (.qHead who q) s fun b' => b'.response = { value := header, tag := .data } ∧
          b'.packet i = { p with state := .reading }) ∧
      (b.oldestVisible q.toNat = none →
        exec (.qHead who q) s = .next (ends s s.mem { b with response := { value := 0xFFFFFFFE, tag := .idle } })) ∧
      ((b.queue q.toNat).order = [i] → p.state = .visible → p.cells.head? = some (p.cells.headD 0) →
        p.cells.headD 0 < 2 ^ 16 →
        Leaves (.qSelect who q (.ofNat 32 (p.cells.headD 0 + p.tag.toNat * 2 ^ 16))) s fun b' =>
          b'.packet i = { p with state := .reading })) ∧
    (b.struck (fnQueue q.toNat) = false → b.cursor who q.toNat = some c →
      let r := b.packet c.packet
      r.descBad = false → r.linkBad = none → c.position < 15 * (r.cells.length + 1) →
      (4 * c.position < r.length → r.words[c.position]? = some x → x.bad = false →
        Leaves (.qDataLoad who q) s fun b' => b'.response = { value := x.value, tag := .data } ∧
          b'.pool.cursors = b.pool.cursors.map fun d => if d = c then { d with position := d.position + 1 } else d) ∧
      (r.length ≤ 4 * c.position →
        exec (.qDataLoad who q) s = .next (ends s s.mem { b with response := { value := 0xFFFFFFFE, tag := .idle } })) ∧
      (isTileRequester who = false → Leaves (.qDropRest who q) s fun b' =>
        (b'.packet c.packet).state = .released ∧ b'.pool.cursors = b.pool.cursors.filter (· ≠ c)) ∧
      (isTileRequester who = true → Leaves (.qDropRest who q) s fun b' =>
        b'.packet c.packet = r ∧ b'.pool.cursors = b.pool.cursors.map fun d => if d = c then { d with ended := true } else d)) ∧
    (b.struck (fnQueue q.toNat) = true → ∀ j ∈ [Instr.qHead who q, .qDataLoad who q],
      exec j s = .next (ends s s.mem { b with response := { value := 0xFFFFFFFE, tag := .idle } })))

/-- R390, R391, R396 and R398: the six next-address forms. SEQ passes to the next address, JUMP to its target, MWAY to its
target with the masked condition group, CALL pushes the next address, RET pops it, YIELD waits at its target; a CALL with
four addresses held, and a RET with none, strike the cluster. -/
def Obligations.NextAddressResults : Prop :=
  ∀ (s : State) (c : ClusterId) (h : HalyardId) (next : BitVec 12) (csel mask : BitVec 4) (evmask : BitVec 16),
    HalyardRuns s c h →
    let b := s.blade
    let l := laneNo c h
    let y := b.halyard l
    let word := fun (n : BitVec 12) (g m : BitVec 4) (e : BitVec 16) =>
      ({ next := n, csel := g, mask := m, evmask := e } : NextFields)
    let goes := fun (i : Instr) (z : Halyard) =>
      Leaves i s fun b' => b'.halyard l = { z with replaying := false, parityBad := false }
    goes (.naSeq c h (word 0 0 0 0)) { y with pc := y.pc + 1 } ∧
    goes (.naJump c h (word next 0 0 0)) { y with pc := next } ∧
    goes (.naMway c h (word next csel mask 0))
      { y with pc := .ofNat 12 (next.toNat ||| (b.group c.val h.val (b.events l) csel.toNat &&& mask.toNat)) } ∧
    goes (.naYield c h (word next 0 0 evmask)) { y with pc := next, waitMask := evmask, yielded := true } ∧
    (y.stack.length < 4 → goes (.naCall c h (word next 0 0 0)) { y with pc := next, stack := (y.pc + 1) :: y.stack }) ∧
    (∀ r rest, y.stack = r :: rest → goes (.naRet c h (word 0 0 0 0)) { y with pc := r, stack := rest }) ∧
    (4 ≤ y.stack.length → Leaves (.naCall c h (word next 0 0 0)) s fun b' =>
      b'.struck (fnCluster c.val) = true ∧ (b'.cluster c.val).faultStruck = true) ∧
    (y.stack = [] → Leaves (.naRet c h (word 0 0 0 0)) s fun b' =>
      b'.struck (fnCluster c.val) = true ∧ (b'.cluster c.val).faultStruck = true)

/-- R398 and R399: a yielded halyard resumes when an event of its mask holds; a timer that passes from 1 to 0 latches its
event. R393, R394 and Table 9.6: a stored word of one ALU operation in sequence writes its result to its destination, and its
flags where it sets them. -/
def Obligations.HalyardWords : Prop :=
  (∀ (s : State) (c : ClusterId) (h : HalyardId),
    let b := s.blade
    let l := laneNo c h
    let y := b.halyard l
    (b.struck (fnCluster c.val) = false → y.yielded = true → b.events l &&& y.waitMask ≠ 0 →
      exec (.yieldResume c h) s = .next (ends s s.mem (b.setHalyard l { y with yielded := false }))) ∧
    (b.struck (fnCluster c.val) = true ∨ y.yielded = false ∨ b.events l &&& y.waitMask = 0 →
      exec (.yieldResume c h) s = .next (ends s s.mem b)) ∧
    (y.timer = 1 → Leaves (.timerEvent c h) s fun b' =>
      b'.halyard l = { y with timer := 0, latched := y.latched ||| 0x40 }) ∧
    (y.timer ≠ 1 → exec (.timerEvent c h) s = .next (ends s s.mem b))) ∧
  (∀ (s : State) (c : ClusterId) (h : HalyardId), HalyardRuns s c h →
    let b := s.blade
    let l := laneNo c h
    let y := b.halyard l
    let k := b.cluster c.val
    let u := uopOf (mget 0 y.pc.toNat k.store)
    mget .sound (2 * y.pc.toNat) k.damage = .sound → mget .sound (2 * y.pc.toNat + 1) k.damage = .sound →
    u.valid y.pc.toNat = true → u.nac = 0 → u.io = 0 → u.bsrc ≤ 1 →
    let a := y.ureg u.asel
    let x := if u.bsrc = 0 then y.ureg u.bsel else BitVec.ofNat 32 u.imm
    let r := ualu u.alu a x
    Leaves (.microword c h) s fun b' =>
      (b'.halyard l).pc = y.pc + 1 ∧
      (∀ j, (b'.halyard l).ureg j = if u.wen ∧ j = u.dst then r.1 else y.ureg j) ∧
      (b'.halyard l).flags = if u.setf then ualuFlags r.1 x r.2 else y.flags)

/-- R400, R395 and R402: the receive operations. RXOPEN opens the oldest URGENT pennant, else the oldest DATA one; RXB and
RXW take the next byte and the next four, RXSKIP passes bytes, and RXDONE frees the pennant at the frame's commit. R405,
R438, R395 and R404: the transmit operations. TXOPEN opens an empty pennant, TXB and TXW append a byte and four, TXSEND moves
it to the transmit area with the next sequence of the link where the pod's credit and the area have room, TXCANCEL drops it. -/
def Obligations.PennantOperations : Prop :=
  (∀ (s : State) (c : ClusterId) (h : HalyardId) (r : RxPennant) (n : BitVec 8), HalyardRuns s c h →
    let b := s.blade
    let l := laneNo c h
    let y := b.halyard l
    let p := b.port l
    let left := r.payload.drop y.rxPosition
    (y.rxOpen = none → (p.rx.find? (·.urgent)).or (p.rx.find? fun x => !x.urgent) = some r → r.lost = false → r.weak = 0 →
      Leaves (.rxopen c h (ioWord 1 0 0 0)) s fun b' => Stepped b b' l ∧ (b'.halyard l).rxOpen = some r ∧
        (b'.halyard l).rxPosition = 0 ∧ (b'.halyard l).endpoint = r.endpoint ∧
        (b'.port l).rx = dropFirst (· = r) p.rx) ∧
    (y.rxOpen = some r →
      (∀ v rest, left = v :: rest → Leaves (.rxb c h (ioWord 0 0 0 0)) s fun b' => Stepped b b' l ∧
        b'.response.value = v.setWidth 32 ∧ (b'.halyard l).rxPosition = y.rxPosition + 1) ∧
      (left = [] → Leaves (.rxb c h (ioWord 0 0 0 0)) s fun b' => Stepped b b' l ∧
        b'.response.value = 0 ∧ (b'.halyard l).byteClass = 8 ∧ (b'.halyard l).rxPosition = y.rxPosition) ∧
      (4 ≤ left.length → Leaves (.rxw c h (ioWord 0 0 0 0)) s fun b' => Stepped b b' l ∧
        b'.response.value = .ofNat 32 (leNat (left.take 4)) ∧ (b'.halyard l).rxPosition = y.rxPosition + 4) ∧
      Leaves (.rxskip c h (ioWord 0 0 0 n)) s (fun b' => Stepped b b' l ∧
        (b'.halyard l).rxPosition = y.rxPosition + min n.toNat left.length) ∧
      Leaves (.rxdone c h (ioWord 1 0 0 0)) s (fun b' => Stepped b b' l ∧ (b'.halyard l).rxOpen = none ∧
        (b'.port l).freed = p.freed ++ [(b.frame, r)]))) ∧
  (∀ (s : State) (c : ClusterId) (h : HalyardId) (e : BitVec 5) (mgmt : Bool) (reg : BitVec 4) (t : TxPennant),
    HalyardRuns s c h →
    let b := s.blade
    let l := laneNo c h
    let y := b.halyard l
    let p := b.port l
    let v := y.ureg reg.toNat
    let empty : TxPennant :=
      { mgmt := mgmt, endpoint := e, sequence := 0, payload := [], weak := 0, lost := false, paid := false, sent := false,
        resend := false, sentFrame := 0 }
    (y.txOpen = none →
      Leaves (.txopen c h (ioWord 0 0 0 (.ofNat 8 (e.toNat + if mgmt then 64 else 0)))) s fun b' =>
        Stepped b b' l ∧ (b'.halyard l).txOpen = some empty) ∧
    (y.txOpen = some t →
      (t.payload.length + 1 ≤ 1024 → Leaves (.txb c h (ioWord 0 0 reg 0)) s fun b' => Stepped b b' l ∧
        (b'.halyard l).txOpen = some { t with payload := t.payload ++ [v.setWidth 8] }) ∧
      (t.payload.length + 4 ≤ 1024 → Leaves (.txw c h (ioWord 0 0 reg 0)) s fun b' => Stepped b b' l ∧
        (b'.halyard l).txOpen = some { t with payload := t.payload ++ leBytes 4 v.toNat }) ∧
      (y.outTaint = false → t.mgmt = (t.endpoint = 0 : Bool) → b.struck (fnPort l) = false →
        blocksOf t.payload ≤ p.freeCredit t.endpoint.toNat → p.txBytes + t.payload.length ≤ 4096 →
        b.armed (srcPktCorr l) 1 = false → b.armed (srcPktUncorr l) 1 = false →
        Leaves (.txsend c h (ioWord 1 0 0 0)) s fun b' => Stepped b b' l ∧ (b'.halyard l).txOpen = none ∧
          b'.port l = { p with tx := p.tx ++ [{ t with sequence := p.txNext, weak := 0, lost := false }],
                               txNext := p.txNext + 1 }) ∧
      Leaves (.txcancel c h (ioWord 0 0 0 0)) s (fun b' => Stepped b b' l ∧ (b'.halyard l).txOpen = none ∧
        (b'.halyard l).outTaint = false ∧ b'.port l = p)))

/-- R403, R404 and R366 to R371: the queue operations of a halyard, on its endpoint's inbound queue 32 × lane + endpoint and
its outbound queue 4,096 above it. -/
def Obligations.HalyardQueueOperations : Prop :=
  ∀ (s : State) (c : ClusterId) (h : HalyardId) (e : BitVec 5) (reg : BitVec 4) (i : Nat) (k : Cursor) (x : QWord),
    HalyardRuns s c h → PoolUnharmed s.blade →
    let b := s.blade
    let l := laneNo c h
    let y := b.halyard l
    let who := Requester.halyard c h
    let inq := 32 * l + e.toNat
    let outq := 4096 + 32 * l + e.toNat
    let p := b.packet i
    let word := ioWord 1 0 reg (e.setWidth 8)
    (OpenWithRoom b (.requester who) inq i →
      Leaves (.qw c h word) s fun b' => Stepped b b' l ∧
        b'.packet i = { p with words := p.words ++ [{ value := y.ureg reg.toNat, bad := false }] }) ∧
    (b.openPacket (.requester who) inq = some i → p.queue.toNat = inq →
      (p.bad = false → p.descBad = false → y.inTaint = false → ((b.queue inq).notice = 1 → b.lanePending l < 32) →
        (b.queue inq).tickRelease = false →
        Leaves (.ioQseal c h word) s fun b' => Stepped b b' l ∧ (b'.packet i).state = .visible ∧
          (b'.packet i).length = 4 * p.words.length) ∧
      (y.inTaint = true → Leaves (.ioQseal c h word) s fun b' => Stepped b b' l ∧ b'.packet i = Packet.none ∧
        (b'.halyard l).inTaint = false) ∧
      Leaves (.ioQabort c h word) s (fun b' => Stepped b b' l ∧ b'.packet i = Packet.none ∧
        (b'.halyard l).inTaint = false)) ∧
    (b.struck (fnQueue outq) = false →
      (b.cursor who outq = none → b.oldestVisible outq = some i → p.descBad = false →
        Leaves (.ioQhead c h word) s fun b' => Stepped b b' l ∧ (b'.halyard l).queueGroup = 0 ∧
          b'.response.value = .ofNat 32 (p.length + p.tag.toNat * 2 ^ 16) ∧ (b'.packet i).state = .reading) ∧
      (b.cursor who outq = none →
        Leaves (.ioQdata c h word) s fun b' => Stepped b b' l ∧ (b'.halyard l).queueGroup = 1 ∧
          b'.response.value = 0xFFFFFFFE) ∧
      (b.cursor who outq = some k →
        let r := b.packet k.packet
        (r.descBad = false → r.linkBad = none → k.position < 15 * (r.cells.length + 1) → 4 * k.position < r.length →
          r.words[k.position]? = some x → x.bad = false →
          Leaves (.ioQdata c h word) s fun b' => Stepped b b' l ∧ (b'.halyard l).queueGroup = 0 ∧
            b'.response.value = x.value) ∧
        (r.descBad = false ∨ r.state = .reading →
          Leaves (.ioQdrop c h word) s fun b' => Stepped b b' l ∧ (b'.packet k.packet).state = .released)))

/-- R395, R397, R399 and R406: TXPEND takes the mask of notices, EVCLR clears latched events, TIMER starts the timer, MRD and
MWR read and write a word of the shared SRAM, CRD and CWR a register (a budget of Table 6.8, which takes every value), SEMACQ
and SEMREL a semaphore. -/
def Obligations.HalyardStateOperations : Prop :=
  ∀ (s : State) (c : ClusterId) (h : HalyardId) (reg src : BitVec 4) (mask : BitVec 16), HalyardRuns s c h →
    let b := s.blade
    let l := laneNo c h
    let y := b.halyard l
    let x := y.ureg reg.toNat
    let a := x.toNat / 4 % 2 ^ 22 * 4
    let k := wordPlace b a
    let v := y.ureg src.toNat
    let n := x.toNat % 1024
    let z := b.sem n
    let mine : Bool := z.held && z.cls = 1 && z.unit.toNat = c.val && z.context.toNat = h.val
    Leaves (.txpend c h (ioWord 0 0 0 0)) s (fun b' => Stepped b b' l ∧ b'.response.value = y.txMask ∧
      (b'.halyard l).txMask = 0) ∧
    Leaves (.evclr c h { ioWord 0 0 0 0 with evmask := mask }) s (fun b' => Stepped b b' l ∧
      (b'.halyard l).latched = y.latched &&& ~~~mask) ∧
    Leaves (.timer c h (ioWord 0 0 reg 0)) s (fun b' => Stepped b b' l ∧ (b'.halyard l).timer = x.setWidth 16) ∧
    (b.offline a = false → b.offline (a / 8 * 8) = false → s.mem.mark k = .sound →
      Leaves (.mrd c h (ioWord 2 0 reg 0)) s (fun b' => Stepped b b' l ∧
        b'.response.value = .ofNat 32 (s.mem.nat (k + a % 8) 4)) ∧
      ∃ (m' : Memory) (b' : Blade), exec (.mwr c h (ioWord 1 src reg 0)) s = .next (ends s m' b') ∧ Stepped b b' l ∧
        ∀ i, m'.byte i =
          if k + a % 8 ≤ i ∧ i < k + a % 8 + 4 then .ofNat 8 (v.toNat / 256 ^ (i - (k + a % 8))) else s.mem.byte i) ∧
    Leaves (.crd c h (ioWord 2 0 reg 0)) s (fun b' => Stepped b b' l ∧
      b'.response.value = (b.readReg (.cluster c) (0x02000000 + a)).1) ∧
    (∀ k, k < 8 → a = 0x50020 + 4 * k →
      Leaves (.cwr c h (ioWord 1 src reg 0)) s fun b' => Stepped b b' l ∧ b'.reg (0x02050020 + 4 * k) = v) ∧
    (b.flag (rATOM + 0x100 + 4 * (n / 32)) 1 = true →
      (z.held = false ∨ mine = true → Leaves (.semacq c h (ioWord 2 0 reg 0)) s fun b' => Stepped b b' l ∧
        b'.response.value = .ofNat 32 (1 + z.generation.toNat * 2 ^ 16) ∧
        b'.sem n = { z with held := true, cls := 1, unit := .ofNat 8 c.val, context := .ofNat 16 h.val }) ∧
      (z.held = true → mine = false → Leaves (.semacq c h (ioWord 2 0 reg 0)) s fun b' => Stepped b b' l ∧
        b'.response.value = 0 ∧ b'.sem n = z) ∧
      (mine = true → v.toNat % 2 ^ 16 = z.generation.toNat → Leaves (.semrel c h (ioWord 2 src reg 0)) s fun b' =>
        Stepped b b' l ∧ b'.response.value = 1 ∧
        b'.sem n = { held := false, cls := 0, unit := 0, context := 0, generation := z.generation + 1 }) ∧
      (mine = false → Leaves (.semrel c h (ioWord 2 src reg 0)) s fun b' => Stepped b b' l ∧
        b'.response.value = 0 ∧ b'.sem n = z))

/-- Memory stays in canonical form at every step: equal memories stay equal data. -/
def Obligations.EveryStepKeepsMemoryCanonical : Prop :=
  ∀ s t : State, MemoryWf s → step s = .next t → MemoryWf t

/-- Memories in canonical form that hold the same bytes and the same marks are equal. -/
def Obligations.CanonicalMemoryDetermined : Prop :=
  ∀ m m' : Memory, m.wf = true → m'.wf = true → (∀ a, m.byte a = m'.byte a) → (∀ a, m.mark a = m'.mark a) → m = m'

/-- What R17, the reset columns of Tables 16.5 to 16.8 and Table 13.1 give: no command waits, memory lists nothing and reads
zero (log entry 3), the blade is starting in frame 0, tiles, clusters, lane ports, uplinks and the toggle link stand struck as
Tables 16.4, 9.18, 10.17, 11.21 and 13.16 give, and register words hold their reset values. -/
def Obligations.ResetState : Prop :=
  let b := State.reset.blade
  State.reset.pending = [] ∧ MemoryWf State.reset ∧ (∀ a, State.reset.mem.byte a = 0 ∧ State.reset.mem.mark a = .sound) ∧
    b.frame = 0 ∧ b.pair.role = .starting ∧ b.provisioning = true ∧
    (∀ fn, b.struck fn = (decide (fn < 0x180) || decide (0x320 ≤ fn ∧ fn < 0x323) || decide (fn = 0x340))) ∧
    (∀ c, (b.ctx c).state = .free) ∧ (∀ n, (b.sem n).held = false) ∧ (∀ q, b.oldestVisible q = none) ∧
    (∀ n, (b.source n).sticky = false) ∧
    b.reg 0x02004000 = 0x12D212D1 ∧ b.reg 0x02004004 = 7 ∧ b.reg 0x02013000 = 1 ∧ b.reg 0x02040000 = 3 ∧
    b.reg 0x02040004 = 0x505A ∧ b.reg 0x02050000 = 0x4002 ∧ b.reg 0x02090000 = 0x0FA00100 ∧ b.reg 0x020A0000 = 0x03E80003 ∧
    b.reg 0x020C0000 = 3 ∧ b.reg 0x020D0000 = 0x01900001 ∧ b.reg 0x020E0000 = 0x320E0C01

/-- A command that is no store, no image, no repair and no start leaves every byte of memory as it was: loads, reads, ticks
of other clocks, blocks, pennants, and every command of the engine that moves no image. -/
def Obligations.OnlyStoresChangeBytes : Prop :=
  ∀ (i : Instr) (s t : State), mayStore i = false → exec i s = .next t → ∀ a, t.mem.byte a = s.mem.byte a

/-- R190 and R191: g0 reads zero and is never poisoned, a result written to it is discarded; a result written to another
register is read back with its poison bit, and no other register changes. -/
def Obligations.RegisterFile : Prop :=
  ∀ (f : Firing) (r q : RegNo) (v : Word64) (p : Bool),
    f.reg 0 = 0 ∧ f.bad 0 = false ∧ f.write 0 v p = f ∧
      (f.write r v p).reg q = (if q = r ∧ r ≠ 0 then v else f.reg q) ∧
      (f.write r v p).bad q = (if q = r ∧ r ≠ 0 then p else f.bad q)

/-- R198 and R661: a fetch changes the tile's instruction cache, and what a correction leaves: counts, window counts, draws
and due assertions. A hit whose word the cache holds well answers the word at the pc and changes the cache alone. -/
def Obligations.FetchFrame : Prop :=
  ∀ (s : State) (t : TileId) (f : Firing),
    let b := s.blade
    let r := b.fetch s.mem t f
    let hit := (mget [] (f.pc / 64 % 64) (b.tile t.val).icache).contains
      (f.pc / 4096 % 65536 + if f.slotB then 65536 else 0)
    r.2.1.cells = s.mem.cells ∧
      (∀ u, ∃ c d, r.2.2.tile u = { b.tile u with icache := c, icacheBad := d }) ∧
      (∃ words net flt draws, r.2.2 = { b with csr.words := words, net := net, flt := flt, draws := draws }) ∧
      (hit = true → (f.pc / 64 + (if f.slotB then 2 ^ 22 else 0), f.pc / 4 % 16) ∉ (b.tile t.val).icacheBad →
        r.1 = some (s.mem.wordAt f) ∧ r.2.1 = s.mem ∧
        ∃ c, r.2.2 = b.setTile t.val { b.tile t.val with icache := c })

/-- R653: a write of the pass value to KEY_UNLOCK leaves the writer's arm set, one of another value consumes it; the arms of
other ports are untouched. R531, Tables 3.25, 10.18 and 13.19: the registers whose write acts. A one clears a sticky bit
whose cause has gone, a kick restarts the watchdog, and bit 31 brings a high-water mark down to the present use or starts a
maximum anew; UACK_MAX, of a slow domain, waits its turn among the posted writes (R501). R328, R329 and Table 7.23: a write
of MARCH_START starts the march that its bits name where none runs, on a bank beyond M03 that a STRIKE has taken out of service
when it is destructive; any
other start sets MARCH_STATUS.refused and changes no march. R28, R495, R615, R616 and R505: requests on power domains and
feeds, under the writer's key arm. A domain goes off where Table 14.7 permits it and else sets refused; one asked on is on; a
feed takes this blade's command, and a joined partner's with it; a request equal to the present one does nothing. Without the
arm a request that differs from the present one is refused whole. -/
def Obligations.ActionRegisters : Prop :=
  (∀ (s : State) (who : Port) (v : BitVec 32),
    let b := s.blade
    Leaves (.keyUnlock who 0x5E11) s (fun b' => b'.isArmed who = true ∧ ∀ p, p ≠ who → b'.isArmed p = b.isArmed p) ∧
    (v ≠ 0x5E11 → Leaves (.keyUnlock who v) s fun b' => b'.isArmed who = false ∧
      ∀ p, p ≠ who → b'.isArmed p = b.isArmed p)) ∧
  (∀ (s : State) (who : Port) (v : BitVec 32) (g : Fin 48) (t : TileId) (l : LaneId),
    let b := s.blade
    Leaves (.faultSticky who g v) s (fun b' => ∀ k, k < 32 →
      (v.getLsbD k = true → (b.source (32 * g.val + k)).cause = false → (b'.source (32 * g.val + k)).sticky = false) ∧
      (v.getLsbD k = false → (b'.source (32 * g.val + k)).sticky = (b.source (32 * g.val + k)).sticky)) ∧
    exec (.faultWdogKick who v) s = .next (ends s s.mem { b.disarm who with flt.kickFrames := 0 }) ∧
    Leaves (.hwClear who t v) s (fun b' => b'.field (0x02040100 + 4 * t.val) 16 13 = b.sliceUsed t.val % 8192) ∧
    Leaves (.ackNsClear who v) s (fun b' => b'.field 0x020E0014 16 15 = 0) ∧
    ((b.csr.posted.filter (·.port = who)).length < 8 →
      Leaves (.uackMaxClear who l v) s fun b' => b'.csr.posted = b.csr.posted ++
        [{ port := who, address := .ofNat 32 (rPORT l.val + 0x18), value := v ||| 0x80000000 }])) ∧
  (∀ (s : State) (who : Port) (v : BitVec 32),
    let b := s.blade
    let k := v.toNat % 64
    let fits : Bool := decide (4 ≤ k) && b.bankOffline k && b.bank.march.isNone
    let starts := fun (w : Word32) (b' : Blade) => ∃ r, b'.bank.march = some r ∧ r.bank.val = k ∧ r.word = w ∧
      r.borrow = 0 ∧ r.dest = none
    let known : Bool := decide (v.toNat / 128 % 4 ≠ 3)
    let refused := fun b' : Blade => b'.bank.march = b.bank.march ∧ b'.flag 0x020A0008 8 = true
    (fits = true → known = true → Leaves (.destructiveMarchStart who v) s fun b' =>
      starts (v ||| 0x80000040) b' ∧ b'.bank.zeroed.getLsbD k = true) ∧
    (fits = false ∨ known = false → Leaves (.destructiveMarchStart who v) s refused) ∧
    (b.bank.march = none → known = true →
      Leaves (.preservingPassStart who v) s (starts ((v &&& 0xFFFFFFBF) ||| 0x80000000))) ∧
    (b.bank.march ≠ none ∨ known = false → Leaves (.preservingPassStart who v) s refused)) ∧
  (∀ (s : State) (who : Port) (v : BitVec 32) (d : Fin 33) (k : Fin 16),
    let b := s.blade
    let a := 0x02003100 + 4 * d.val
    let f := b.feed k.val
    let both : Bool := b.active && b.mirrors
    (b.isArmed who = true →
      (b.flag a 0 = true → b.hw.domainsOn.getLsbD d.val = true → b.domainPermitted d.val = true → Leaves (.domainOffRequest who d v) s fun b' =>
        b'.hw.domainsOn.getLsbD d.val = false ∧ ∀ e, e ≠ d.val → b'.hw.domainsOn.getLsbD e = b.hw.domainsOn.getLsbD e) ∧
      (b.flag a 0 = true → b.hw.domainsOn.getLsbD d.val = true → b.domainPermitted d.val = false → Leaves (.domainOffRequest who d v) s fun b' =>
        b'.hw.domainsOn = b.hw.domainsOn ∧ b'.flag a 3 = true) ∧
      (b.flag a 0 = false → Leaves (.domainOnRequest who d v) s fun b' => b'.hw.domainsOn.getLsbD d.val = true ∧
        ∀ e, e ≠ d.val → b'.hw.domainsOn.getLsbD e = b.hw.domainsOn.getLsbD e) ∧
      (b.flag a 0 = true → Leaves (.domainOnRequest who d v) s fun b' => b'.hw = b.hw) ∧
      (b.flag a 0 = false → Leaves (.domainOffRequest who d v) s fun b' => b'.hw = b.hw) ∧
      Leaves (.feedOnCommand who k v) s (fun b' => b'.feed k.val =
        if f.command then f else { f with command := true, partnerCommand := both || f.partnerCommand }) ∧
      Leaves (.feedOffCommand who k v) s (fun b' => b'.feed k.val =
        if f.command then { f with command := false, partnerCommand := !both && f.partnerCommand } else f)) ∧
    (b.isArmed who = false →
      (b.flag a 0 = true → Leaves (.domainOffRequest who d v) s fun b' => b'.hw = b.hw ∧ b'.reg a = b.reg a) ∧
      (b.flag a 0 = false → Leaves (.domainOnRequest who d v) s fun b' => b'.hw = b.hw ∧ b'.reg a = b.reg a) ∧
      ((b.feed k.val).command = false → Leaves (.feedOnCommand who k v) s fun b' => b'.hw = b.hw) ∧
      ((b.feed k.val).command = true → Leaves (.feedOffCommand who k v) s fun b' => b'.hw = b.hw)))

/-- R499 and R347: a read of a LO register, or of a semaphore's STATE, shows the register and latches its other word for the
reader; the reader's next read takes the latched value, and any read of the reader drops it. PEER_DATA passes a write to the
partner while the toggle link carries blocks, and reads a value that the partner alone decides (a free one) or, with no partner, zero. -/
def Obligations.RegisterReadResults : Prop :=
  ∀ (s : State) (who : Port) (x v : BitVec 32) (n : Fin 1024) (l : LoLatch),
    let b := s.blade
    let a := x.toNat
    let held := fun (b : Blade) (k : Nat) => b.csr.latches.find? fun l => l.port = who && l.address.toNat = k
    let z := b.sem n.val
    (inWindow a = true → held b a = none → loOffset a = true → b.freeField a = none → b.freeField (a + 4) = none →
      Leaves (.loReadLatch who x) s fun b' => b'.response.value = b.regValue who a ∧
        held b' (a + 4) = some { port := who, address := x + 4, value := b.regValue who (a + 4) }) ∧
    (inWindow a = true → held b a = some l → Leaves (.loReadLatch who x) s fun b' => b'.response.value = l.value ∧
      ∀ k, held b' k = none) ∧
    (held b (0x020B1000 + 4 * n.val) = none → Leaves (.semStateRead who n) s fun b' =>
      b'.response.value = .ofNat 32 (z.generation.toNat + (if z.held then 2 ^ 16 else 0) + z.cls.toNat * 2 ^ 17 +
        z.unit.toNat * 2 ^ 19) ∧
      held b' (0x020B2000 + 4 * n.val) = some
        (LoLatch.mk who (.ofNat 32 (0x020B2000 + 4 * n.val)) (z.context.setWidth 32))) ∧
    (held b 0x020E0044 = none → b.reg 0x020E0044 = 0 → b.pair.partnerPresent = false →
      Leaves (.peerDataRead who) s fun b' => b'.response.value = 0) ∧
    (held b 0x020E0044 = none → b.reg 0x020E0044 = 0 → b.pair.partnerPresent = true →
      Leaves (.peerDataRead who) s fun b' => b'.response.value = .ofNat 32 (b.draw (2 ^ 32)).1 ∧ b'.draws = b.draws + 1) ∧
    (b.pair.partnerPresent = true → b.linkSound = true → exec (.peerDataWrite who v) s =
      .next (ends s s.mem ((b.disarm who).out (.peerWrite (0x020F0000 + b.reg 0x020E0040) v)))) ∧
    (b.pair.lock = false → Leaves (.peerDataWrite who v) s fun b' => b'.outputs = b.outputs ∧ b'.isArmed who = false) ∧
    (b.pair.partnerPresent = false → exec (.peerDataWrite who v) s = .next (ends s s.mem (b.disarm who)))

/-- R495, R497, R505, R653 and R494: a register write. An RW word takes the value, an RWK one under the writer's arm alone,
an RWS one is staged while its function is struck and refused while it is hoisted; a write outside every block is ignored,
and one outside the window or misaligned is none. Every write within the window consumes the arm. R501 to R503: the oldest
posted write of a requester takes effect. LANE_PORT_CFG is staged, UACK_MAX starts anew, a write to the port of an empty slot
is dropped and counted; with none posted nothing happens. -/
def Obligations.RegisterWrites : Prop :=
  (∀ (s : State) (who : Port) (x v : BitVec 32) (k : Nat),
    let b := s.blade
    (k < 8 → Leaves (.registerWrite who (.ofNat 32 (0x02050020 + 4 * k)) v) s fun b' =>
      b'.reg (0x02050020 + 4 * k) = v ∧ b'.isArmed who = false) ∧
    (b.isArmed who = true → Leaves (.registerWrite who 0x02004000 v) s fun b' =>
      b'.reg 0x02004000 = v ∧ b'.isArmed who = false) ∧
    (b.isArmed who = false → v ≠ b.reg 0x02004000 → Leaves (.registerWrite who 0x02004000 v) s fun b' =>
      b'.reg 0x02004000 = b.reg 0x02004000 ∧
      (b'.reg 0x0200100C).toNat = min ((b.reg 0x0200100C).toNat + 1) 0xFFFFFFFF) ∧
    (b.isArmed who = false → Leaves (.registerWrite who 0x02004000 (b.reg 0x02004000)) s fun b' =>
      ∀ a, a ≠ 0x020E0020 → b'.reg a = b.reg a) ∧
    (b.struck 0x340 = true → Leaves (.registerWrite who 0x020E0000 v) s fun b' =>
      b'.reg 0x020E0000 = b.reg 0x020E0000 ∧
      ∀ old, b'.stagedOr 0x020E0000 old = (b.stagedOr 0x020E0000 (b.reg 0x020E0000) &&& 0xFE) ||| (v &&& 0xFFFFFF01)) ∧
    (b.struck 0x340 = false → (b.stagedOr 0x020E0000 (b.reg 0x020E0000) ^^^ v) &&& 0xFFFFFF01 ≠ 0 →
      Leaves (.registerWrite who 0x020E0000 v) s fun b' => b'.csr.words = b.csr.words ∧ b'.csr.staged = b.csr.staged) ∧
    exec (.registerWrite who 0x02FF0000 v) s = .next (ends s s.mem (b.disarm who)) ∧
    exec (.registerWrite who 0x02000004 v) s = .next (ends s s.mem (b.disarm who)) ∧
    (inWindow x.toNat = false → exec (.registerWrite who x v) s = .next (ends s s.mem b))) ∧
  (∀ (s : State) (who : Port) (p : PostedWrite) (l : LaneId),
    let b := s.blade
    let a := rPORT l.val
    let k := portId who
    let dropped := fun b : Blade => (mget 0 k b.csr.postDropped).toNat
    (b.csr.posted.find? (·.port = who) = none → exec (.postedWriteEffect who) s = .next (ends s s.mem b)) ∧
    (b.csr.posted.find? (·.port = who) = some p →
      (p.address.toNat = a → b.hw.cards.getLsbD (l.val / 16) = true → Leaves (.postedWriteEffect who) s fun b' =>
        b'.csr.posted = dropFirst (·.port = who) b.csr.posted ∧
        ∀ old, b'.stagedOr a old = (b.stagedOr a (b.reg a) &&& 0xF00E) ||| (p.value &&& 0xFFFF0FF1)) ∧
      (p.address.toNat = a + 0x18 → b.hw.cards.getLsbD (l.val / 16) = true → Leaves (.postedWriteEffect who) s fun b' =>
        b'.csr.posted = dropFirst (·.port = who) b.csr.posted ∧ b'.reg (a + 0x18) = 0) ∧
      (p.address.toNat = a → b.hw.cards.getLsbD (l.val / 16) = false → Leaves (.postedWriteEffect who) s fun b' =>
        b'.csr.posted = dropFirst (·.port = who) b.csr.posted ∧ b'.csr.staged = b.csr.staged ∧
        dropped b' = min (dropped b + 1) 0xFFFF)))

/-- R468, R472, R474, R475, R477, R478 and R480 (Table 11.2): which requests are taken, which pass the checks, what a failed
one gets, and what a command of the standby's, of an unlisted opcode or without room gets; and the bytes of an untagged reply
over USB. -/
def Obligations.CommandChecks : Prop :=
  (∀ (s : State) (r : Request),
    let b := s.blade
    let d := replyTo s r
    let slot := r.flags.toNat / 4 % 4
    let k := b.key slot
    let x := b.accept r
    let a := b.arrives r
    let counted := a.2.count 0x02004030
    let fitted := fun n : Nat => r.length.toNat % 4 = 0 ∧ r.length.toNat ≤ 1408 ∧ r.size = 16 + r.length.toNat + n ∧
      r.params.length = r.length.toNat ∧ r.tag.length = n
    (b.flt.fenced = true → x = (false, b)) ∧
    (r.transport = .usb → (b.eng.usbDiscarding = true ∨ b.muxSelects 10 = false) → x = (false, b)) ∧
    (r.transport = .usb → a.1 = true → r.size < 16 →
      x = (false, { a.2.count 0x02004034 with eng.usbDiscarding := true })) ∧
    (∀ u, uplinkOf r.transport = some u → b.flt.fenced = false →
      let n := b.count64 (rUPLINK u + 0x60)
      let takes : Bool := b.uplinkOn u && b.tagFits u r.vlan && !r.fragment
      (takes = false → x = (false, n.count (rUPLINK u + 0x70))) ∧
      (takes = true → (n.owns u r.dest = false ∨ r.destPort ≠ (n.reg 0x02004000).setWidth 16) → x = (false, n))) ∧
    (x.1 = true → opcodes.contains r.opcode.toNat = false →
      exec (.ping r) s = .next (ends s s.mem (x.2.answer d 1)) ∧ exec (.strike r) s = .next (ends s s.mem (x.2.answer d 1))) ∧
    (x.1 = true → x.2.active = false → r.opcode = 0x30 → exec (.strike r) s = .next (ends s s.mem (x.2.answer d 0xB))) ∧
    (Admitted s 5 false r → r.length = 36 → Armed s r → ¬HasRoom s 5 r →
      exec (.setKey r) s = .next (ends s s.mem (((began s r).disarm .command).answer d 7))) ∧
    (a.1 = true → a.2.transportOn r.transport = true → (r.transport = .usb → r.size ≤ 1440) → r.magic = 0x4D434C50 → r.version = 1 → r.flags.getLsbD 0 = false →
      r.flags.toNat < 32 →
      (fitted 0 → r.flags.getLsbD 1 = false → b.provisioning = true → r.transport = .usb → x = (true, counted)) ∧
      (fitted 16 → r.flags.getLsbD 1 = true → b.provisioning = false →
        ((k.present = false ∨ r.tag ≠ authTag k.key (rqBody r)) →
          x = (false, (counted.count 0x02004038).answerUntagged d 3)) ∧
        (k.present = true → r.tag = authTag k.key (rqBody r) →
          (k.last.toNat < r.sequence.toNat → x.1 = true ∧ (x.2.key slot).last = r.sequence ∧
            (x.2.key slot).key = k.key ∧ ∀ i, i ≠ slot → x.2.key i = b.key i) ∧
          (r.sequence.toNat ≤ k.last.toNat → k.last = r.sequence → k.request = rqBytes r → k.reply ≠ [] →
            x = (false, counted.sendReply d k.reply)) ∧
          (r.sequence = k.last → k.request = rqBytes r → k.reply = [] → x = (false, counted)) ∧
          (r.sequence.toNat ≤ k.last.toNat → k.last ≠ r.sequence ∨ k.request ≠ rqBytes r →
            (counted.requestRuns (rqBytes r) = true → x = (false, counted)) ∧
            (counted.requestRuns (rqBytes r) = false → x = (false, (counted.count 0x0200403C).answerReplay d))))))) ∧
  ∀ (b : Blade) (d : ReplyTo) (status : Nat) (data : List Byte), d.flags.getLsbD 1 = false → d.transport = .usb →
    b.flt.fenced = false → b.answer d status data = { b with outputs := b.outputs ++ [.reply d
      (leBytes 2 (20 + data.length) ++ leBytes 4 0x4D434C50 ++ [1, d.opcode] ++ leBytes 2 (d.flags ||| 1).toNat ++
        leBytes 4 d.sequence.toNat ++ leBytes 4 (4 + data.length) ++ leBytes 4 status ++ data)] }

/-- R475, R476 and R505: PING, IDENT and KEY_STATUS answer at once; SET_KEY and CONFIG_SAVE need the key arm, and are
answered when the EEPROM's write completes, where a key takes effect with its last sequence 0. R497, R498 and R504: the
commands that read and write registers, and SYNC. -/
def Obligations.BasicCommands : Prop :=
  (∀ (s : State) (r : Request) (w : Deferred) (rest : List Deferred) (ok : Bool),
    let b := s.blade
    let x := (began s r).identData s.mem
    let k := rqField r 0 1
    let own := (began s r).disarm .command
    (Admitted s 1 true r → exec (.ping r) s = .next (replied s r 0 r.params)) ∧
    (Admitted s 2 true r → r.length = 0 → exec (.ident r) s = .next (replied s r 0 x) ∧ x.length = 64 ∧
      fieldAt x 0 4 = 0x8128F001 ∧ fieldAt x 4 1 = (if (began s r).bladeB then 1 else 0) ∧
      fieldAt x 8 4 = (began s r).frame.toNat) ∧
    (Admitted s 4 true r → r.length = 0 → exec (.keyStatus r) s = .next (replied s r 0
      (leBytes 4 (flagBits ((List.range 4).map fun i => ((began s r).key i).present)) ++
        (List.range 4).flatMap fun i => leBytes 4 ((began s r).key i).last.toNat))) ∧
    (Admitted s 5 false r → r.length = 36 → HasRoom s 5 r →
      (¬Armed s r → exec (.setKey r) s = .next (replied s r 5 [])) ∧
      (Armed s r →
        (3 < k → exec (.setKey r) s = .next (ends s s.mem (own.answer (replyTo s r) 9))) ∧
        (k ≤ 3 → (r.flags.getLsbD 1 = true ∧ r.flags.toNat / 4 % 4 ≠ 0) ∨ (r.flags.getLsbD 1 = false ∧ k ≠ 0) →
          exec (.setKey r) s = .next (ends s s.mem (own.answer (replyTo s r) 0xD))) ∧
        (k ≤ 3 → r.flags.getLsbD 1 = true → r.flags.toNat / 4 % 4 = 0 → (k ≠ 0 ∨ rqField r 4 32 ≠ 0) →
          Leaves (.setKey r) s fun b' =>
            b'.eng.eepromWrites = own.eng.eepromWrites ++
              [{ dest := replyTo s r, operand := k, data := sliceBytes r.params 4 32 }] ∧
            b'.key = own.key))) ∧
    (Admitted s 6 false r → r.length = 0 → HasRoom s 6 r →
      (¬Armed s r → exec (.configSave r) s = .next (replied s r 5 [])) ∧
      (Armed s r → Leaves (.configSave r) s fun b' =>
        b'.eng.eepromWrites = own.eng.eepromWrites ++ [{ dest := replyTo s r, operand := 0, data := [] }])) ∧
    (b.eng.eepromWrites = [] → exec (.eepromWriteComplete true) s = .next (ends s s.mem b)) ∧
    (b.eng.eepromWrites = w :: rest →
      Leaves (.eepromWriteComplete ok) s (fun b' => b'.eng.eepromWrites = rest) ∧
      (w.dest.opcode = 5 → leNat w.data ≠ 0 → Leaves (.eepromWriteComplete true) s fun b' =>
        (b'.key w.operand).key = w.data ∧ (b'.key w.operand).last = 0 ∧
        (b'.key w.operand).floor = (b.key w.operand).floor) ∧
      (w.dest.opcode = 6 → Leaves (.eepromWriteComplete true) s fun b' =>
        b'.eng.savedUplinks = uplinkWords.map fun a => (a, b.reg a)) ∧
      Leaves (.eepromWriteComplete false) s (fun b' => ∀ i, (b'.key i).key = (b.key i).key))) ∧
  (∀ (s : State) (r : Request) (w : Deferred),
    let b := s.blade
    let a := rqField r 0 4
    let width := rqField r 4 1
    let n := rqField r 4 2
    let word := fun i : Nat => BitVec.ofNat 32 (rqField r (8 + 4 * i) 4)
    let v := (began s r).readReg .command a
    let y := (began s r).writeReg (rqWriter r) a (word 0)
    let z := (began s r).readWords a n
    let turned := ends s s.mem ((b.accept r).2.answer (replyTo s r) 2)
    (Admitted s 0x10 true r → r.length = 8 →
      ((width ≠ 4 ∨ a % 4 ≠ 0) → exec (.readReg r) s = .next (replied s r 4 [])) ∧
      (width = 4 → a % 4 = 0 → (a < 0x02000000 ∨ 0x03000000 ≤ a) → exec (.readReg r) s = .next (replied s r 9 [])) ∧
      (width = 4 → inWindow a = true →
        exec (.readReg r) s = .next (ends s s.mem (v.2.answer (replyTo s r) 0 (leBytes 4 v.1.toNat))))) ∧
    (Admitted s 0x11 false r → r.length = 12 →
      ((width ≠ 4 ∨ a % 4 ≠ 0) → exec (.writeReg r) s = .next (replied s r 4 [])) ∧
      (width = 4 → inWindow a = true →
        exec (.writeReg r) s = .next (ends s s.mem (y.2.answer (replyTo s r) (match y.1 with
          | .done => 0
          | .notStruck => 6
          | .locked => 5))) ∧
        ∀ k, k < 8 → a = 0x02050020 + 4 * k → Leaves (.writeReg r) s fun b' => b'.reg a = word 0)) ∧
    (Admitted s 0x12 true r → r.length = 8 →
      ((n = 0 ∨ 256 < n) → exec (.readBlock r) s = .next turned) ∧
      (1 ≤ n → n ≤ 256 →
        (a % 4 ≠ 0 → exec (.readBlock r) s = .next (replied s r 4 [])) ∧
        (a % 4 = 0 → 0x03000000 < a + 4 * n → exec (.readBlock r) s = .next (replied s r 9 [])) ∧
        (a % 4 = 0 → 0x02000000 ≤ a → a + 4 * n ≤ 0x03000000 → z.1.length = 4 * n ∧
          exec (.readBlock r) s = .next (ends s s.mem (z.2.answer (replyTo s r) 0 z.1))))) ∧
    (Admitted s 0x13 false r →
      (n = 0 → exec (.writeBlock r) s = .next turned) ∧
      (1 ≤ n → n ≤ 256 → r.length.toNat = 8 + 4 * n → a % 4 = 0 → 0x03000000 < a + 4 * n →
        exec (.writeBlock r) s = .next (replied s r 9 [])) ∧
      (1 ≤ n → n ≤ 8 → r.length.toNat = 8 + 4 * n → a = 0x02050020 → Leaves (.writeBlock r) s fun b' =>
        ∀ i, i < n → b'.reg (a + 4 * i) = word i)) ∧
    (Admitted s 0x14 true r → r.length = 0 → HasRoom s 0x14 r →
      exec (.sync r) s = .next (ends s s.mem ((began s r).defer (replyTo s r) 0))) ∧
    (b.deferredOf 0x14 = none → exec .syncTimeout s = .next (ends s s.mem b)) ∧
    (b.deferredOf 0x14 = some w → exec .syncTimeout s = .next (ends s s.mem ((b.undefer 0x14).answer w.dest 7))))

/-- R485, R589 to R591, R315 and Table 9.13: staging an image, verifying it, and activating a graph, microcode or firmware image;
one of whose words is lost in DRAM fails. -/
def Obligations.ImageCommands : Prop :=
  ∀ (s : State) (r : Request) (kind : BitVec 8) (c : ClusterId) (a : Activation) (slot : Bool) (f : Word32),
    let b := s.blade
    let k := rqField r 0 1
    let off := rqField r 4 4
    let total := rqField r 8 4
    let data := r.params.drop 12
    let at' := 0x170000000 + off
    let o := began s r
    let img := o.stagedImage s.mem
    let mine := b.stagedImage s.mem
    let whole := s.mem.marked 0x170000000 b.eng.staging.total = []
    let kept := s.mem.marked 0x170000000 o.eng.staging.total = []
    let torn := o.readStaged s.mem
    let base := if rqField r 1 1 = 1 then 0x160000000 else 0x150000000
    (Admitted s 0x20 true r → 16 ≤ r.length.toNat → r.length.toNat ≤ 1036 →
      ((began s r).stagingBusy = true → exec (.loadImage r) s = .next (replied s r 7 [])) ∧
      ((began s r).stagingBusy = false →
        ((k = 0 ∨ 3 < k ∨ 0x10000000 < total ∨ total < off + data.length) →
          exec (.loadImage r) s = .next (replied s r 0xA [])) ∧
        (1 ≤ k → k ≤ 3 → total ≤ 0x10000000 → off + data.length ≤ total → Clean s.mem b at' data.length →
          ∃ (m' : Memory) (b' : Blade), exec (.loadImage r) s = .next (ends s m' b') ∧
            b'.eng.staging.kind.toNat = k ∧ b'.eng.staging.total = total ∧ b'.eng.staging.verified = false ∧
            ∀ i, m'.byte i = if at' ≤ i ∧ i < at' + data.length then data.getD (i - at') 0 else s.mem.byte i))) ∧
    (Admitted s 0x21 true r → r.length = 4 → HasRoom s 0x21 r →
      let x := (began s r).eng.staging
      (x.kind.toNat = k → x.complete = true → Leaves (.verifyImage r) s fun b' =>
        b'.eng.staging.verifying = true ∧ b'.eng.staging.verified = false) ∧
      ((x.kind.toNat ≠ k ∨ x.complete = false) → exec (.verifyImage r) s = .next (replied s r 0xA []))) ∧
    (b.eng.staging.verifying = true → b.eng.staging.kind = kind →
      (whole → Leaves (.imageVerifyComplete kind) s fun b' =>
        b'.eng.staging.verifying = false ∧ b'.eng.staging.verified = b.hw.boot.imageValid kind.toNat mine) ∧
      ((b.readStaged s.mem).lost = true → ∃ (m' : Memory) (b' : Blade),
        exec (.imageVerifyComplete kind) s = .next (ends s m' b') ∧ m'.cells = s.mem.cells ∧
        b'.eng.staging.verifying = false ∧ b'.eng.staging.verified = false)) ∧
    (b.eng.staging.verifying = false → exec (.imageVerifyComplete kind) s = .next (ends s s.mem b)) ∧
    (Admitted s 0x22 false r → r.length = 4 → HasRoom s 0x22 r →
      (o.stagedGood k = false → ∀ i ∈ [Instr.activateImageGraph r, .activateImageMicrocode r, .activateImageFirmware r],
        exec i s = .next (replied s r 0xA [])) ∧
      (o.stagedGood k = true → torn.lost = true →
        ∀ i ∈ [Instr.activateImageGraph r, .activateImageMicrocode r, .activateImageFirmware r],
          exec i s = .next (ends s torn.mem (torn.blade.answer (replyTo s r) 0xA []))) ∧
      (k = 2 → o.stagedGood 2 = true → kept →
        ((1 < rqField r 1 1 ∨ decide (rqField r 1 1 = 1) = o.led.activeSlotB) →
          exec (.activateImageGraph r) s = .next (replied s r 0xA [])) ∧
        (rqField r 1 1 ≤ 1 → decide (rqField r 1 1 = 1) ≠ o.led.activeSlotB → o.slotInUse (rqField r 1 1 = 1) = false →
          Clean s.mem b base o.eng.staging.total → ∃ (m' : Memory) (b' : Blade), exec (.activateImageGraph r) s = .next (ends s m' b') ∧
            b'.led.slotChange = some (decide (rqField r 1 1 = 1), o.frame) ∧ b'.led.activeSlotB = o.led.activeSlotB ∧
            ∀ i, m'.byte i = if base ≤ i ∧ i < base + o.eng.staging.total then s.mem.byte (0x170000000 + (i - base))
              else s.mem.byte i)) ∧
      (k = 1 → o.stagedGood 1 = true → kept → Leaves (.activateImageFirmware r) s fun b' =>
        b'.hw.boot.preferredB = (!o.hw.boot.confirmedB) ∧ b'.hw.boot.trialCount = 1 ∧
        b'.hw.boot.confirmedB = o.hw.boot.confirmedB ∧ mget [] (b2n (!o.hw.boot.confirmedB)) b'.hw.nor = img) ∧
      (k = 3 → o.stagedGood 3 = true → kept → o.joined = false → rqField r 2 1 = 2 ^ c.val → o.domainOff (0x40 + c.val) = false →
        (o.cluster c.val).faultStruck = false → Leaves (.activateImageMicrocode r) s fun b' =>
          b'.eng.activation = some { clusters := [c], dest := replyTo s r } ∧ (b'.cluster c.val).quiescing = true)) ∧
    (b.led.slotChange = some (slot, f) →
      (f = b.frame → exec .activeSlotChange s = .next (ends s s.mem b)) ∧
      (f ≠ b.frame → Leaves .activeSlotChange s fun b' => b'.led.slotChange = none ∧ b'.led.activeSlotB = slot)) ∧
    (b.eng.activation = some a →
      (a.clusters = [c] → (∀ h, b.halyardQuiet c h = true) → whole → microWordsValid mine = true →
        Leaves (.clusterQuiet c) s fun b' => b'.eng.activation = none ∧ b'.eng.microcode = some (microImage mine) ∧
          (b'.cluster c.val).store = (microImage mine).store ∧ (b'.cluster c.val).loaded = true ∧
          (b'.cluster c.val).quiescing = false ∧ b'.struck (0x40 + c.val) = false) ∧
      (a.clusters.head? = some c → Leaves (.quiesceTimeout c) s fun b' =>
        b'.eng.activation = none ∧ (b'.cluster c.val).quiescing = false))

/-- R317, R320, R490 to R496: STRIKE and HOIST of a function. -/
def Obligations.FunctionCommands : Prop :=
  ∀ (s : State) (r : Request) (fn : BitVec 16) (w : Deferred),
    let b := s.blade
    let n := rqField r 0 2
    let o := began s r
    let p := began s r
    let d := replyTo s r
    (Admitted s 0x30 false r → r.length = 4 → HasRoom s 0x30 r →
      (o.fnExists n = false → exec (.strike r) s = .next (replied s r 9 [])) ∧
      (o.fnExists n = true → o.spareOrRetired n = true → exec (.strike r) s = .next (replied s r 0xD [])) ∧
      (0x200 ≤ n → n < 0x204 → o.pair.role ≠ .starting → exec (.strike r) s = .next (replied s r 0xD [])) ∧
      (o.strikeStatus n = 0 → o.struck n = true → o.csr.striking.contains n = false →
        exec (.strike r) s = .next (replied s r 0 [])) ∧
      (o.strikeStatus n = 0 → o.struck n = false → n ≠ 0x310 →
        (strikesOwnUplink n r.transport = false → Leaves (.strike r) s fun b' => b'.struck n = true ∧
          b'.csr.striking.contains n = true ∧
          b'.eng.deferred = o.eng.deferred ++ [{ dest := d, operand := n, data := [] }]) ∧
        (strikesOwnUplink n r.transport = true → Leaves (.strike r) s fun b' => b'.struck n = true ∧
          b'.outputs = (o.answer d 0).outputs))) ∧
    (b.csr.striking.contains fn.toNat = false ∨ b.strikeReached fn.toNat = false →
      exec (.strikeComplete fn) s = .next (ends s s.mem b)) ∧
    (b.csr.striking.contains fn.toNat = true → b.strikeReached fn.toNat = true →
      Leaves (.strikeComplete fn) s (fun b' => b'.csr.striking = b.csr.striking.filter (· ≠ fn.toNat) ∧
        b'.csr.struck = b.csr.struck) ∧
      (b.deferredOf 0x30 = some w → w.operand = fn.toNat → Leaves (.strikeComplete fn) s fun b' =>
        b'.eng.deferred = b.eng.deferred.filter (·.dest.opcode ≠ 0x30))) ∧
    (Admitted s 0x31 false r → r.length = 4 →
      (p.fnExists n = false → exec (.hoist r) s = .next (replied s r 9 [])) ∧
      (p.fnExists n = true → p.csr.striking.contains n = true → exec (.hoist r) s = .next (replied s r 7 [])) ∧
      (p.fnExists n = true → p.csr.striking.contains n = false → p.struck n = false →
        exec (.hoist r) s = .next (replied s r 0 [])) ∧
      (p.csr.striking.contains n = false → p.struck n = true →
        (n < 0x22 → p.hoistCheck n = true → Leaves (.hoist r) s fun b' => b'.struck n = false) ∧
        (n < 0x22 → p.hoistCheck n = false → exec (.hoist r) s = .next (replied s r 0xA [])) ∧
        (∀ k, k < 64 → n = 0x200 + k → p.hoistCheck n = true → p.bank.zeroed.getLsbD k = true →
          ∃ (m' : Memory) (b' : Blade), exec (.hoist r) s = .next (ends s m' b') ∧ b'.struck n = false ∧
            ∀ i, m'.byte i = if bankOfPlace i = some k then 0 else s.mem.byte i)))

/-- R153, R577, R578, R580 and R617: RETIRE_TILE, the retirement of a tile whose logic fails, and the end of a migration once its
redirect barrier has ended and every set has moved. -/
def Obligations.RetirementResults : Prop :=
  ∀ (s : State) (r : Request) (t : TileId) (target : Nat) (g : Migration),
    let b := s.blade
    let n := rqField r 0 1
    let o := began s r
    let retired := fun (b' : Blade) (u : Nat) => b'.struck u = true ∧ b'.net.activeTiles.getLsbD u = false ∧
      b'.net.activeTiles.getLsbD target = true ∧ b'.net.retiredTiles.getLsbD u = true ∧
      ∃ x, b'.net.migration = some x ∧ x.source.val = u ∧ x.target.val = target
    (Admitted s 0x32 false r → r.length = 4 → HasRoom s 0x32 r →
      (34 ≤ n → exec (.retireTile r) s = .next (replied s r 9 [])) ∧
      (n < 34 → o.activeTile n = false → exec (.retireTile r) s = .next (replied s r 0xD [])) ∧
      (n < 34 → o.activeTile n = true → o.net.migration = some g →
        exec (.retireTile r) s = .next (replied s r 7 [])) ∧
      (n < 34 → o.activeTile n = true → o.net.migration = none → (o.wakeTarget n).retireTarget n = some target → target < 34 →
        target ≠ n → Leaves (.retireTile r) s fun b' => retired b' n)) ∧
    ((b.activeTile t.val = false ∨ b.flt.fenced = true) → exec (.tileRetirement t) s = .next (ends s s.mem b)) ∧
    (b.activeTile t.val = true → b.flt.fenced = false →
      (b.net.migration = none → (b.wakeTarget t.val).retireTarget t.val = some target → target < 34 → target ≠ t.val →
        Leaves (.tileRetirement t) s fun b' => retired b' t.val) ∧
      (b.net.migration = some g → Leaves (.tileRetirement t) s fun b' => b'.struck t.val = true ∧
        b'.net.migration = some g ∧ b'.net.retireQueue = b.net.retireQueue.filter (· ≠ t) ++ [t])) ∧
    (b.net.migration = none → exec .migrationComplete s = .next (ends s s.mem b)) ∧
    (b.net.migration = some g →
      (g.barrier = true → exec .migrationComplete s = .next (ends s s.mem b)) ∧
      (g.barrier = false → (∀ k, k < 512 → k ∈ g.moved) → 512 ≤ g.moved.length → b.net.retireQueue = [] →
        Leaves .migrationComplete s fun b' => b'.net.migration = none ∧ b'.net.sets = b.net.sets))

/-- R316, R320 to R324, R326 to R331: the MARCH command and its abort; the end of a destructive march, whose words fail where
a read returns other bits than its element expects, and are logged; the borrows of a live repair and its end; one borrow of
the sweep that finds no failing word; and one word of the DRAM scrub. -/
def Obligations.SweepResults : Prop :=
  (∀ (algorithm : Nat) (backgrounds : List Nat) (ws : List MarchWord),
    (∀ w ∈ ws, ∀ x ∈ w.returned, ∀ r, (marchReads algorithm backgrounds w.row.val w.word.toNat)[x.1]? = some r →
      x.2 = r.expects) → marchFails algorithm backgrounds ws = []) ∧
  ∀ (s : State) (r : Request) (g : MarchRun) (ws : List MarchWord) (f : MarchFail) (x : LiveRepair) (k : Nat),
    let b := s.blade
    let o := began s r
    let w := BitVec.ofNat 32 (rqField r 0 4)
    let n := w.toNat % 64
    let d := replyTo s r
    let destructive := w.getLsbD 6
    let place := b.reg 0x020A000C
    let i := (b.reg 0x02090008).toNat % 2 ^ 30
    let head := b.reg 0x020A0014
    let found := marchFails (g.word.toNat / 128 % 4) (marchBackgrounds g.word) ws
    let borrow := Instr.sweepBorrow ⟨0, 0, 0, 0⟩
    (Admitted s 0x33 true r → r.length = 4 →
      (w.getLsbD 31 = false → o.deferBusy 0x33 = true → exec (.march r) s = .next (replied s r 7 [])) ∧
      (w.getLsbD 31 = false → o.deferBusy 0x33 = false →
        (destructive = true → n < 4 → exec (.march r) s = .next (replied s r 0xD [])) ∧
        (destructive = true → 4 ≤ n → o.bankOffline n = false → exec (.march r) s = .next (replied s r 6 [])) ∧
        (destructive = true → 4 ≤ n → o.bankOffline n = true → o.bank.march = some g →
          exec (.march r) s = .next (replied s r 7 [])) ∧
        (destructive = true → 4 ≤ n → o.bankOffline n = true → o.bank.march = none → w.toNat / 128 % 4 = 3 →
          exec (.march r) s = .next (replied s r 0xD [])) ∧
        (destructive = true → 4 ≤ n → o.bankOffline n = true → o.bank.march = none → w.toNat / 128 % 4 ≠ 3 →
          Leaves (.march r) s fun b' => (∃ y, b'.bank.march = some y ∧ y.bank.val = n ∧ y.word = w ∧ y.dest = some d) ∧
            b'.bank.zeroed.getLsbD n = true ∧ b'.eng.deferred = o.eng.deferred ++ [{ dest := d, operand := n, data := [] }]) ∧
        (destructive = false → o.bank.march = some g → exec (.march r) s = .next (replied s r 7 [])) ∧
        (destructive = false → o.bank.march = none → Leaves (.march r) s fun b' =>
          ∃ y, b'.bank.march = some y ∧ y.bank.val = n ∧ y.word = w ∧ y.borrow = 0 ∧ y.dest = none)) ∧
      (w.getLsbD 31 = true →
        ((o.bank.march = none ∨ ∃ y, o.bank.march = some y ∧ y.bank.val ≠ n) →
          exec (.marchAbort r) s = .next (replied s r 8 [])) ∧
        (o.bank.march = some g → g.bank.val = n → Leaves (.marchAbort r) s fun b' => b'.bank.march = none ∧
          b'.bank.zeroed = b.bank.zeroed))) ∧
    ((b.bank.march = none ∨ ∃ y, b.bank.march = some y ∧ y.word.getLsbD 6 = false) →
      exec (.marchEnd ws) s = .next (ends s s.mem b)) ∧
    (b.bank.march = some g → g.word.getLsbD 6 = true →
      Leaves (.marchEnd ws) s (fun b' => b'.bank.march = none ∧ b'.bank.zeroed = b.bank.zeroed) ∧
      (found = [] → Leaves (.marchEnd ws) s fun b' => b'.reg 0x020A0014 = head) ∧
      (found = [f] → g.word.getLsbD 13 = false → Leaves (.marchEnd ws) s fun b' =>
        (b'.reg (0x020A0100 + 4 * (head.toNat % 64))).toNat = g.bank.val + 2 ^ 6 * f.row.val + 2 ^ 16 * f.line.toNat +
            2 ^ 19 * f.word.toNat + 2 ^ 23 + 2 ^ 31 ∧
        (b'.reg 0x020A0014).toNat % 64 = (head.toNat + 1) % 64)) ∧
    (b.bank.repair = none → exec .liveRepairComplete s = .next (ends s s.mem b)) ∧
    (b.bank.repair = some x → ∃ (m' : Memory) (b' : Blade), exec .liveRepairComplete s = .next (ends s m' b') ∧
      b'.bank.repair = none ∧ b'.field (rREPAIR x.bank.val x.spare.val) 0 10 = x.row.val % 512 + 512) ∧
    ((b.bank.repair = some x ∧ 7 ≤ x.copied) ∨ b.flt.fenced = true → exec borrow s = .next (ends s s.mem b)) ∧
    (b.bank.repair = some x → x.copied < 7 → b.flt.fenced = false → ∃ (m' : Memory) (b' : Blade),
      exec borrow s = .next (ends s m' b') ∧ b'.bank.repair = some { x with copied := x.copied + 1 }) ∧
    (b.bank.repair = none → b.flt.fenced = false →
      (b.bank.march = some g → g.word.getLsbD 6 = false → ∃ (m' : Memory) (b' : Blade),
        exec borrow s = .next (ends s m' b') ∧ m'.cells = s.mem.cells ∧
        b'.bank.march = if g.borrow + 1 < b.borrows g.bank.val then some { g with borrow := g.borrow + 1 } else none) ∧
      (b.bank.march = none → b.flag 0x020A0000 0 = true → 7 ≤ b.hw.startStep.toNat → k < 64 → b.sweepBank k = some k →
        place.toNat % 64 = k → place.toNat / 64 % 2 ^ 14 + 1 < b.borrows k → ∃ (m' : Memory) (b' : Blade),
        exec borrow s = .next (ends s m' b') ∧ m'.cells = s.mem.cells ∧
        (b'.reg 0x020A000C).toNat = k + 64 * (place.toNat / 64 % 2 ^ 14 + 1))) ∧
    ((b.flag 0x02090004 8 = false ∨ b.flt.fenced = true) → exec .dramScrub s = .next (ends s s.mem b)) ∧
    (b.flag 0x02090004 8 = true → b.flt.fenced = false → s.mem.mark (0x100000000 + 8 * i) = .sound →
      Leaves .dramScrub s fun b' => (b'.reg 0x02090008).toNat = (i + 1) % 2 ^ 30)

/-- R531, R543, R547, R548 and R577: the commands on checkers, sticky bits and the recorder; a forced assertion of a tile's logic
retires the tile. -/
def Obligations.FaultCommands : Prop :=
  ∀ (s : State) (r : Request) (src : BitVec 11),
    let b := s.blade
    let n := rqField r 0 2
    let mode := rqField r 2 1
    let count := rqField r 4 4
    let o := (began s r).disarm .command
    let p := began s r
    let q := began s r
    let u := began s r
    let fits : Bool := decide (n < 1536) && (o.sourceOf n).1 ≠ .unassigned && (mode = 0 || (injectModes n).contains mode)
    let x := p.clearSticky (rqField r 0 1) (.ofNat 32 count) (rqWriter r).code
    let len := rqField r 2 2
    (Admitted s 0x40 true r → r.length = 8 →
      (¬Armed s r → exec (.inject r) s = .next (replied s r 5 [])) ∧
      (Armed s r → fits = false → exec (.inject r) s = .next (ends s s.mem (o.answer (replyTo s r) 9))) ∧
      (Armed s r → fits = true → Leaves (.inject r) s fun b' => (b'.source n).sticky = (o.source n).sticky ∧
        (b'.source n).mode.toNat = (if mode = 0 ∨ count = 0 then 0 else mode) ∧
        (b'.source n).remaining = (if mode = 0 ∨ count = 0 then 0 else count) ∧
        ∀ k, checkerPartner n = some k → (b'.source k).remaining = 0)) ∧
    (b.armed src.toNat 3 = false → exec (.forcedAssertion src) s = .next (ends s s.mem b)) ∧
    (b.armed src.toNat 3 = true →
      (logicTile src.toNat = none → Leaves (.forcedAssertion src) s fun b' =>
        (b'.source src.toNat).remaining = (b.source src.toNat).remaining - 1 ∧
        b'.flt.due = b.flt.due ++ [{ Assertion.plain src.toNat with forced := true }]) ∧
      (∀ t g, logicTile src.toNat = some t → b.activeTile t.val = true → b.flt.fenced = false → b.net.migration = some g →
        Leaves (.forcedAssertion src) s fun b' => b'.struck t.val = true ∧
          b'.net.retireQueue = b.net.retireQueue.filter (· ≠ t) ++ [t] ∧
          ∃ a, b'.flt.due = b.flt.due ++ [a] ∧ a.source = src.toNat ∧ a.forced = true)) ∧
    (Admitted s 0x41 true r → r.length = 8 →
      (47 < rqField r 0 1 → exec (.faultAck r) s = .next (replied s r 9 [])) ∧
      (rqField r 0 1 ≤ 47 → exec (.faultAck r) s = .next (ends s s.mem
          (x.answer (replyTo s r) 0 (leBytes 4 (x.stickyWord (rqField r 0 1) &&& .ofNat 32 count).toNat))) ∧
        ∀ k, k < 32 → bitOf count k = true → (p.source (32 * rqField r 0 1 + k)).cause = false →
          (x.source (32 * rqField r 0 1 + k)).sticky = false)) ∧
    (Admitted s 0x48 true r → r.length = 4 →
      ((len = 0 ∨ 32 < len) → exec (.recorderRead r) s =
        .next (ends s s.mem ((b.accept r).2.answer (replyTo s r) 2))) ∧
      (1 ≤ len → len ≤ 32 →
        ((8192 ≤ n ∨ (4096 ≤ n ∧ q.flt.saved = none)) → exec (.recorderRead r) s = .next (replied s r 9 [])) ∧
        (n < 4096 → q.flt.ringHurt = [] → exec (.recorderRead r) s = .next (replied s r 0
          ((List.range len).flatMap fun k => leBytes 32 (mget 0 ((n + k) % 4096) q.flt.ring).toNat))))) ∧
    (Admitted s 0x49 true r → r.length = 4 →
      (rqField r 0 1 ≠ 0 →
        (u.flt.frozen = true → exec (.recorderFreeze r) s = .next (replied s r 0 [])) ∧
        (u.flt.frozen = false → Leaves (.recorderFreeze r) s fun b' => b'.flt.frozen = true ∧ b'.flt.cause = 3 ∧
          b'.flt.freezeFrame = u.frame)) ∧
      (rqField r 0 1 = 0 →
        (u.isArmed .command = false → exec (.recorderRelease r) s = .next (replied s r 5 [])) ∧
        (u.isArmed .command = true → u.flt.frozen = true → Leaves (.recorderRelease r) s fun b' =>
          b'.flt.frozen = false ∧ b'.flt.cause = 0 ∧ b'.isArmed .command = false)))

/-- R92, R96, R182, R183, R340 to R343, R483, R484, R486, R487 and R658: the commands on contexts, tokens and semaphores, whose
replies wait for the commit of their frame; a CANCEL waits for room in the trail buffer, and a context whose record cannot be read
is DAMAGED. -/
def Obligations.ContextCommands : Prop :=
  ∀ (s : State) (r : Request),
    let c := rqField r 0 2
    let o := began s r
    let x := o.ctx c
    let p := began s r
    let y := p.ctx c
    let port := rqField r 2 1
    let node := rqField r 4 4
    let t := Token.data c (.ofNat 12 (rqField r 8 2)) (.ofNat 2 port) (.ofNat 20 node) (.ofNat 64 (rqField r 12 8))
    let q := (began s r).disarm .command
    let z := q.sem c
    let u := began s r
    let v := began s r
    let late := fun (b : Blade) (status : Nat) => ends s s.mem (b.answerAtCommit (replyTo s r) status)
    (Admitted s 0x5A true r → r.length = 4 →
      (x.hurt = .sound → exec (.contextQuery r) s = .next (replied s r 0 x.bytes)) ∧
      (x.hurt = .uncorrectable → x.recordLost = false → x.state ≠ .free → Leaves (.contextQuery r) s fun b' =>
        (b'.ctx c).state = .damaged ∧ (b'.ctx c).recordLost = true)) ∧
    (Admitted s 0x5B false r → r.length = 4 → o.cancelHolds c = true → exec (.contextCancel r) s =
      .next (ends s s.mem { o with eng.cancels := o.eng.cancels ++ [(.ofNat 16 c, replyTo s r)] })) ∧
    (Admitted s 0x5B false r → r.length = 4 → x.hurt = .sound → o.cancelHolds c = false →
      (c < 256 → exec (.contextCancel r) s = .next (late o 0xD)) ∧
      (256 ≤ c → x.state = .free → exec (.contextCancel r) s = .next (late o 0xA)) ∧
      (256 ≤ c → x.state = .closed → exec (.contextCancel r) s = .next (late o 8)) ∧
      (256 ≤ c → x.state = .live ∨ x.state = .damaged → x.recordLost = false → o.ord.flows = [] → o.led.parking = none →
        Leaves (.contextCancel r) s fun b' => (b'.ctx c).causeCancel = true ∧
          (b'.ctx c).state = (if x.balance = 0 then .closed else .draining))) ∧
    (Admitted s 0x60 false r → r.length = 20 →
      ((y.state = .free ∨ y.state = .closed ∨ s.mem.nodeCount (p.slotOf c) ≤ node ∨ 3 ≤ port) →
        exec (.post r) s = .next (late p 9)) ∧
      (y.state ≠ .free → y.state ≠ .closed → node < s.mem.nodeCount (p.slotOf c) → port < 3 → rqField r 8 2 < 4096 →
        (y.flow = none → exec (.post r) s = .next (ends s s.mem
          ((p.inject s.mem t).answerAtCommit (replyTo s r) 0 (leBytes 4 0)))) ∧
        ∀ f, y.flow = some f →
          (p.flowFull f.toNat = true → exec (.post r) s = .next (late p 7)) ∧
          (p.flowFull f.toNat = false → exec (.post r) s = .next (ends s s.mem
            ((((p.setFlow f.toNat { p.flow f.toNat with next := (p.flow f.toNat).next + 1 }).inject s.mem
              { t with ordered := true, flow := f, sequence := (p.flow f.toNat).next })).answerAtCommit (replyTo s r) 0
                (leBytes 4 (p.flow f.toNat).next.toNat)))))) ∧
    (Admitted s 0x68 false r → r.length = 4 →
      (¬Armed s r → exec (.semForce r) s = .next (late (began s r) 5)) ∧
      (Armed s r →
        (1023 < c → exec (.semForce r) s = .next (late q 9)) ∧
        (c ≤ 1023 → q.semAllowed 2 c = false → exec (.semForce r) s = .next (late q 0xD)) ∧
        (c ≤ 1023 → q.semAllowed 2 c = true → (z.held = false ∨ z.generation.toNat ≠ rqField r 2 2) →
          exec (.semForce r) s = .next (late q 0xA)) ∧
        (c ≤ 1023 → q.semAllowed 2 c = true → z.held = true → z.generation.toNat = rqField r 2 2 →
          Leaves (.semForce r) s fun b' => b'.sem c =
            { held := false, cls := 0, unit := 0, context := 0, generation := z.generation + 1 }))) ∧
    (Admitted s 0x58 false r → r.length = 4 → HasRoom s 0x58 r →
      (c < 256 → exec (.parkCommand r) s = .next (late u 0xD)) ∧
      (256 ≤ c → ((u.ctx c).state ≠ .live ∨ u.parkFits c = false) → exec (.parkCommand r) s = .next (late u 0xA)) ∧
      (256 ≤ c → (u.ctx c).state = .live → u.parkFits c = true →
        (u.led.parking ≠ none → exec (.parkCommand r) s = .next (late u 7)) ∧
        (u.led.parking = none → Leaves (.parkCommand r) s fun b' =>
          b'.led.parkRequests = u.led.parkRequests ++ [(.ofNat 16 c, .command (replyTo s r))] ∧
          b'.led.contexts = u.led.contexts))) ∧
    (Admitted s 0x59 false r → r.length = 4 → HasRoom s 0x59 r →
      ((c < 256 ∨ (v.ctx c).state ≠ .parked) → exec (.unpark r) s = .next (late v 0xD)) ∧
      (256 ≤ c → (v.ctx c).state = .parked →
        ((v.net.throttling = true ∨ v.led.parking ≠ none) → exec (.unpark r) s = .next (late v 7)) ∧
        (v.net.throttling = false → v.led.parking = none → 
          ((v.image c).stored = true → v.anyCarrier = false → exec (.unpark r) s = .next (late v 0xA)) ∧
          ((v.image c).stored = false ∨ v.anyCarrier = true → Leaves (.unpark r) s fun b' =>
            b'.led.parking = some (Parking.mk (.ofNat 16 c) (.command (replyTo s r)) true false []) ∧
            b'.led.contexts = v.led.contexts))))

/-- R162 to R186: parking and unparking as they begin, go on and end, the deadlock monitor, and a stalled context. -/
def Obligations.ParkingEvents : Prop :=
  ∀ (s : State) (c : BitVec 16) (p : Parking) (r : BitVec 16 × ParkCause) (k : Nat),
    let b := s.blade
    let n := b.net.stallFrames
    let limit := (b.reg 0x02040008).toNat % 16
    let perFrame := (b.reg 0x02040008).toNat / 256 % 256
    let begun := fun (c : BitVec 16) (cause : ParkCause) (b' : Blade) => 
      ∃ w, b'.led.parking = some (Parking.mk c cause false w [])
    let unresolved := fun b' : Blade => b'.net.stallUnresolved = true ∧ b'.net.stallFrames = 0 ∧
      b'.led.parking = b.led.parking
    ((b.led.parking ≠ none ∨ n < limit ∨ n = 0) → exec .globalStall s = .next (ends s s.mem b)) ∧
    (b.led.parking = none → limit ≤ n → n ≠ 0 →
      (b.flag 0x02040000 0 = false → exec .globalStall s = .next (ends s s.mem { b with net.stallFrames := 0 })) ∧
      (b.flag 0x02040000 0 = true →
        (b.parkChoice = some k → b.parkFits k = true → Leaves .globalStall s (begun (.ofNat 16 k) .monitor)) ∧
        (b.parkChoice = some k → b.parkFits k = false → Leaves .globalStall s unresolved) ∧
        (b.parkChoice = none → Leaves .globalStall s unresolved))) ∧
    ((b.flag 0x02040000 1 = false ∨ perFrame ≤ b.net.stallTokens ∨ (b.net.stallWaiting.filter b.stalled).head? ≠ some c.toNat) →
      exec (.perContextStall c) s = .next (ends s s.mem b)) ∧
    (b.flag 0x02040000 1 = true → b.net.stallTokens < perFrame →
      (b.net.stallWaiting.filter b.stalled).head? = some c.toNat → Leaves (.perContextStall c) s fun b' =>
        (b'.ctx c.toNat).reported = true ∧ b'.net.stallTokens = b.net.stallTokens + 1 ∧
        b'.net.stallWaiting = b.net.stallWaiting.filter (· ≠ c.toNat)) ∧
    (b.led.parking ≠ none → exec .parkingBegin s = .next (ends s s.mem b)) ∧
    (b.led.parking = none → b.led.parkRequests.find? (fun r => b.parkDue r.1.toNat) = none →
      exec .parkingBegin s = .next (ends s s.mem b)) ∧
    (b.led.parking = none → b.led.parkRequests.find? (fun r => b.parkDue r.1.toNat) = some r →
      ((b.ctx r.1.toNat).state = .live → b.parkFits r.1.toNat = true → Leaves .parkingBegin s (begun r.1 r.2)) ∧
      ((b.ctx r.1.toNat).state ≠ .live → Leaves .parkingBegin s fun b' => b'.led.parking = none ∧
        b'.led.parkRequests = dropFirst (· = r) b.led.parkRequests)) ∧
    (b.led.parking = none → ∀ i ∈ [Instr.parkingComplete, .parkStagingResume, .unparkComplete],
      exec i s = .next (ends s s.mem b)) ∧
    (b.led.parking = some p →
      (p.unparking = false →
        (b.outside p.context.toNat ≠ 0 → exec .parkingComplete s = .next (ends s s.mem b)) ∧
        (b.outside p.context.toNat = 0 → (b.ctx p.context.toNat).state = .live → Leaves .parkingComplete s fun b' =>
          b'.led.parking = none ∧ (b'.ctx p.context.toNat).state = .parked ∧
          (b'.image p.context.toNat).records = (b.image p.context.toNat).records ∧
          (b'.image p.context.toNat).parkFrame = b.frame) ∧
        (b.outside p.context.toNat = 0 → (b.ctx p.context.toNat).state ≠ .live → Leaves .parkingComplete s fun b' =>
          b'.led.parking = none ∧ (b'.image p.context.toNat).records = []) ∧
        (b.stagingFull = true → exec .parkStagingResume s = .next (ends s s.mem b)) ∧
        (b.stagingFull = false → exec .parkStagingResume s = .next (ends s s.mem (b.captureAll s.mem p.context.toNat))) ∧
        exec .unparkComplete s = .next (ends s s.mem b)) ∧
      (p.unparking = true →
        exec .parkingComplete s = .next (ends s s.mem b) ∧ exec .parkStagingResume s = .next (ends s s.mem b) ∧
        (b.resendHolds s.mem p.context.toNat = true → exec .unparkComplete s = .next (ends s s.mem b)) ∧
        (b.trailFull = false → (b.ctx p.context.toNat).state ≠ .parked → Leaves .unparkComplete s fun b' => b'.led.parking = none ∧
          b'.led.contexts = b.led.contexts) ∧
        (b.trailFull = false → (b.ctx p.context.toNat).state = .parked → (b.image p.context.toNat).stored = false →
          Leaves .unparkComplete s fun b' => b'.led.parking = none ∧
          ((b'.ctx p.context.toNat).state = .live ∨ (b'.ctx p.context.toNat).state = .damaged) ∧
          (b'.image p.context.toNat).records = []) ∧
        (b.trailFull = false → (b.ctx p.context.toNat).state = .parked → (b.image p.context.toNat).stored = true →
          b.anyCarrier = false →
          (b.stagingShort p.waiting.length = false → Leaves .unparkComplete s fun b' => b'.led.parking = none ∧
            b'.led.contexts = b.led.contexts) ∧
          (b.stagingShort p.waiting.length = true → exec .unparkComplete s = .next (ends s s.mem b)))))

/-- R132 to R140, R144 to R152 and R263: what a matching unit does with the token at the head of its home channel, and its
searches, pushes, refills, compactions, sweeps and removals. -/
def Obligations.MatchingEvents : Prop :=
  ∀ (s : State) (t : TileId) (tok : Token) (rest : List Token) (e : MatchEntry) (i : Nat),
    let b := s.blade
    let x := b.tile t.val
    let d := s.mem.desc (b.slotOf tok.context.toNat) tok.node.toNat
    let p : Token := { tok with sequence := 0, flow := 0, kind := 0, cls := if tok.kind = 0 then tok.cls else 0 }
    let v := b.mset t.val tok.set
    let hit := v.filter.getLsbD (filterBit tok.context.toNat tok.iteration.toNat tok.node.toNat)
    let still := fun i => exec i s = .next (ends s s.mem b)
    (mget [] t.val b.net.home = [] ∨ b.readyFull t.val = true ∨ 16 ≤ x.waiting.length → still (.tokenAccept t)) ∧
    (mget [] t.val b.net.home = tok :: rest → b.trailFull = true → b.formsRecord s.mem tok = true →
      still (.tokenAccept t)) ∧
    (mget [] t.val b.net.home = tok :: rest → b.readyFull t.val = false → x.waiting = [] → b.trailFull = false →
      Arrives b tok → DescriptorSound s tok → TileUnharmed b t.val → b.net.migration = none →
      (d.arity ≤ tok.port.toNat → (b.ctx tok.context.toNat).balance ≠ 0 → Leaves (.tokenAccept t) s fun b' =>
        mget [] t.val b'.net.home = rest ∧
        (b'.ctx tok.context.toNat).discarded = (b.ctx tok.context.toNat).discarded + 1 ∧
        (b'.ctx tok.context.toNat).balance = (b.ctx tok.context.toNat).balance - 1) ∧
      (tok.port.toNat < d.arity → d.arity = 1 → Leaves (.tokenAccept t) s fun b' =>
        mget [] t.val b'.net.home = rest ∧ (b'.tile t.val).ready = x.ready ++ [readied b [tok]]) ∧
      (tok.port.toNat < d.arity → d.arity ≠ 1 → tok.ordered = false →
        (v.lock ≠ none → Leaves (.tokenAccept t) s fun b' => mget [] t.val b'.net.home = rest ∧
          (b'.tile t.val).waiting = [p]) ∧
        (v.lock = none → v.ways.all (·.damage = 0) = true →
          (0 < v.live → hit = true → x.spillOps < 8 → Leaves (.tokenAccept t) s fun b' =>
              b'.mset t.val tok.set = { v with lock := some (.search p) } ∧
              (b'.tile t.val).spillOps = x.spillOps + 1) ∧
          (v.live = 0 ∨ hit = false →
            (joinIndex v.ways p = some i → v.ways[i]? = some e →
              ((e.fill p).complete = true → Leaves (.tokenAccept t) s fun b' =>
                b'.mset t.val tok.set = { v with ways := v.ways.eraseIdx i } ∧
                (b'.tile t.val).ready = x.ready ++ [readied b (e.fill p).tokens]) ∧
              ((e.fill p).complete = false → Leaves (.tokenAccept t) s fun b' =>
                b'.mset t.val tok.set = { v with ways := v.ways.set i (e.fill p) })) ∧
            (joinIndex v.ways p = none →
              (v.ways.length < 8 → Leaves (.tokenAccept t) s fun b' =>
                b'.mset t.val tok.set = { v with ways := v.ways ++ [.new p d.arity b.frame b.net.stamp] }) ∧
              (∀ ws, v.ways = e :: ws → ws.length = 7 → b.cancelling e.context.toNat = true → Leaves (.tokenAccept t) s
                fun b' => (b'.mset t.val tok.set).lock = none ∧ (b'.mset t.val tok.set).stack = v.stack ∧
                  (b'.mset t.val tok.set).ways = ws ++ [.new p d.arity b.frame b.net.stamp] ∧
                  (b'.ctx e.context.toNat).cancelled = (b.ctx e.context.toNat).cancelled + .ofNat 64 e.tokens.length) ∧
              (∀ ws, v.ways = e :: ws → ws.length = 7 → b.cancelling e.context.toNat = false → v.stack = [] →
                e.presence ≠ 0 → x.spillOps < 8 → b.spillBlocks < 2097152 → b.armed (srcWide 2 3) 1 = false →
                Leaves (.tokenAccept t) s fun b' => (b'.mset t.val tok.set).lock = some .push ∧
                  (b'.mset t.val tok.set).ways = ws ++ [.new p d.arity b.frame b.net.stamp] ∧
                  (b'.mset t.val tok.set).stack = [e] ∧ (b'.tile t.val).spillOps = x.spillOps + 1)))))) ∧
    (b.tileBlocked t.val = false → still (.blockedSetAccept t)) ∧
    (b.tileBlocked t.val = true → x.waiting = [tok] → v.lock = none → b.readyFull t.val = false → Arrives b tok →
      v.ways.all (·.damage = 0) = true → v.live = 0 ∨ hit = false → joinIndex v.ways tok = none → TileUnharmed b t.val →
      b.net.migration = none →
      (v.blocked = true → b.noBlock v = true → Leaves (.blockedSetAccept t) s fun b' =>
        (b'.tile t.val).waiting = [tok] ∧ b'.mset t.val tok.set = v) ∧
      (v.ways.length < 8 → Leaves (.blockedSetAccept t) s fun b' => (b'.tile t.val).waiting = [] ∧
        b'.mset t.val tok.set =
          { v with blocked := false, ways := v.ways ++ [.new tok d.arity b.frame b.net.stamp] }) ∧
      (∀ ws, v.ways = e :: ws → ws.length = 7 → b.cancelling e.context.toNat = false → b.noBlock v = false →
        e.presence ≠ 0 → x.spillOps < 8 → b.armed (srcWide 2 3) 1 = false → Leaves (.blockedSetAccept t) s fun b' => (b'.tile t.val).waiting = [] ∧
          (b'.mset t.val tok.set).lock = some .push ∧
          (b'.mset t.val tok.set).ways = ws ++ [.new tok d.arity b.frame b.net.stamp] ∧
          (b'.mset t.val tok.set).stack = v.stack ++ [e] ∧ (b'.mset t.val tok.set).blocked = false))

/-- R140, R145 to R150: the ends of searches and pushes, refills, compactions, the spill sweep, and the removal of entries of
cancelled contexts. -/
def Obligations.SpillEvents : Prop :=
  ∀ (s : State) (t : TileId) (k : Fin 512) (way : Fin 8) (tok : Token) (e : MatchEntry) (i : Nat) (below tombs : List MatchEntry),
    let b := s.blade
    let x := b.tile t.val
    let w := b.mset t.val k.val
    let freed : MatchSet := { w with lock := none, blocked := false, dirBad := false }
    let c := e.context.toNat
    let d := s.mem.desc (b.slotOf tok.context.toNat) tok.node.toNat
    let swept := fun y : MatchEntry => if b.cancelling y.context.toNat = true then { y with presence := 0 } else y
    let still := fun i => exec i s = .next (ends s s.mem b)
    ((∀ q, w.lock ≠ some (.search q)) ∨ b.readyFull t.val = true → still (.spillSearchComplete t k)) ∧
    (w.lock = some (.search tok) → b.cancelling tok.context.toNat = true → b.trailFull = true →
      still (.spillSearchComplete t k)) ∧
    (w.lock = some (.search tok) → b.readyFull t.val = false → x.waiting = [] → TileUnharmed b t.val →
      b.net.migration = none → w.stack.all (·.damage = 0) = true → b.cancelling tok.context.toNat = true →
      b.trailFull = false → joinIndex w.stack tok = some i → w.stack[i]? = some e →
      Leaves (.spillSearchComplete t k) s fun b' =>
        b'.mset t.val k.val = ({ freed with stack := w.stack.set i { e with presence := 0 } } : MatchSet).tidy ∧
        (b'.ctx tok.context.toNat).cancelled =
          (b.ctx tok.context.toNat).cancelled + .ofNat 64 (e.tokens.length + 1)) ∧
    (w.lock = some (.search tok) → b.readyFull t.val = false → x.waiting = [] → TileUnharmed b t.val →
      b.net.migration = none → w.stack.all (·.damage = 0) = true → b.cancelling tok.context.toNat = false →
      (joinIndex w.stack tok = some i → w.stack[i]? = some e →
        ((e.fill tok).complete = true → Leaves (.spillSearchComplete t k) s fun b' =>
          b'.mset t.val k.val =
            ({ freed with stack := w.stack.set i { e with presence := 0 } } : MatchSet).tidy ∧
          (b'.tile t.val).ready = x.ready ++ [readied b (e.fill tok).tokens] ∧
          (b'.tile t.val).spillOps = x.spillOps - 1) ∧
        ((e.fill tok).complete = false → Leaves (.spillSearchComplete t k) s fun b' =>
          b'.mset t.val k.val = ({ freed with stack := w.stack.set i (e.fill tok) } : MatchSet).tidy)) ∧
      (joinIndex w.stack tok = none → joinIndex w.ways tok = none → w.ways.length < 8 →
        Leaves (.spillSearchComplete t k) s fun b' =>
          b'.mset t.val k.val = { freed with ways := w.ways ++ [.new tok d.arity b.frame b.net.stamp] } ∧
          (b'.tile t.val).spillOps = x.spillOps - 1)) ∧
    (w.lock ≠ some .push → still (.spillPushComplete t k)) ∧
    (w.lock = some .push → x.waiting = [] → b.net.migration = none → Leaves (.spillPushComplete t k) s fun b' =>
      b'.mset t.val k.val = ({ w with lock := none } : MatchSet).tidy ∧ (b'.tile t.val).spillOps = x.spillOps - 1) ∧
    (w.lock ≠ none ∨ 4 < w.ways.length ∨ w.live = 0 ∨ 8 ≤ x.spillOps → still (.refill t k)) ∧
    (w.lock = none → w.ways.length ≤ 4 → x.spillOps < 8 → x.waiting = [] → w.stack = below ++ e :: tombs →
      (∀ y ∈ tombs, y.presence = 0) → e.presence ≠ 0 → e.damage = 0 → b.trailFull = false →
      (b.cancelling c = false → Leaves (.refill t k) s fun b' =>
        b'.mset t.val k.val =
          { ({ w with stack := below ++ tombs, dirBad := false } : MatchSet).tidy with ways := e :: w.ways }) ∧
      (b.cancelling c = true → Leaves (.refill t k) s fun b' =>
        b'.mset t.val k.val = ({ w with stack := below ++ tombs, dirBad := false } : MatchSet).tidy ∧
        (b'.ctx c).cancelled = (b.ctx c).cancelled + .ofNat 64 e.tokens.length)) ∧
    (w.sparse = false ∨ w.lock ≠ none ∨ 8 ≤ x.spillOps → still (.compaction t k)) ∧
    (w.sparse = true → w.lock = none → x.spillOps < 8 → x.waiting = [] → w.stack.all (·.damage = 0) = true → Leaves (.compaction t k) s fun b' =>
      b'.mset t.val k.val = ({ w with stack := w.stack.filter (·.presence ≠ 0), dirBad := false } : MatchSet).tidy) ∧
    (b.led.parking = none → x.waiting = [] → w.stack.all (·.damage = 0) = true →
      b.led.trail.length + (w.stack.flatMap (·.tokens)).length ≤ 256 →
      (∀ y ∈ w.stack, b.cancelling y.context.toNat = true →
        ((w.stack.filter (·.context = y.context)).flatMap (·.tokens)).length ≤ (b.ctx y.context.toNat).balance.toNat) →
      Leaves (.spillSweep t k) s fun b' =>
        b'.mset t.val k.val = ({ w with stack := w.stack.map swept, dirBad := false } : MatchSet).tidy) ∧
    (w.ways[way.val]? = none → still (.cancelRemoval t k way)) ∧
    (w.ways[way.val]? = some e →
      (b.cancelling c = false → still (.cancelRemoval t k way)) ∧
      (b.cancelling c = true → b.trailHolds e.tokens = true → still (.cancelRemoval t k way)) ∧
      (b.cancelling c = true → x.waiting = [] → e.damage = 0 → b.trailFull = false →
        Leaves (.cancelRemoval t k way) s fun b' =>
        b'.mset t.val k.val = { w with ways := w.ways.eraseIdx way.val } ∧
        (b'.ctx c).cancelled = (b.ctx c).cancelled + .ofNat 64 e.tokens.length ∧
        (b'.ctx c).balance = (b.ctx c).balance - .ofNat 32 e.tokens.length))

/-- R264 to R268, R282, R284, R296, R298, R407 to R409, R565 and R576: dispatch, which the throttle of an overlong LOG and a
hand-over of the active role stop, the release unit's two inputs, and the injectors. How much LOG waits while the blade mirrors is a free value (log entry 48). -/
def Obligations.DispatchAndRelease : Prop :=
  ∀ (s : State) (t : TileId) (f : Firing) (fs : List Firing) (e : ReadyEntry) (pre post : List ReadyEntry) (tok : Token)
    (rest : List ReleaseItem) (fl : BitVec 12) (q : BitVec 16) (c : ClusterId) (h : Nat) (y : HeldToken),
    let b := s.blade
    let x := b.tile t.val
    let g := b.flow tok.flow.toNat
    let v := b.flow fl.toNat
    let still := fun i => exec i s = .next (ends s s.mem b)
    let w := b.sampleLog
    let home := (b.homeTile s.mem 43 tok).1
    let off := { b with net.release := rest }
    let l := 16 * c.val + h
    ((w.pair.throttled = if b.active && b.mirrors then (0x4000000 < w.pair.logUnsent || (0x2000000 < w.pair.logUnsent &&
      b.pair.throttled)) else false) ∧ w.net = b.net ∧ w.csr = b.csr ∧ w.led = b.led) ∧
    ((∀ y ∈ x.ready, b.cancelling y.context = false ∧ (b.ctx y.context).recordLost = false) →
      (b.struck (fnTile t.val) = true ∨ w.pair.throttled = true ∨ b.stopped = true ∨
          (x.firing.isSome = true ∧ x.prefetched.isSome = true) →
        exec (.dispatch t) s = .next (ends s s.mem w)) ∧
      (b.struck (fnTile t.val) = false → x.firing = none → w.pair.throttled = false → b.stopped = false →
        (x.reruns = f :: fs → Leaves (.dispatch t) s fun b' => (b'.tile t.val).firing = some f ∧
          (b'.tile t.val).reruns = fs) ∧
        (x.reruns = [] → x.ready = [] → exec (.dispatch t) s = .next (ends s s.mem w)) ∧
        (x.reruns = [] → x.prefetched = some e.age → x.ready.find? (·.age = e.age) = some e →
          b.parkHeld e.context = false → e.unreadable = false → e.tokens.all (fun k => !k.poison) = true →
          Leaves (.dispatch t) s fun b' => (b'.tile t.val).firing.map (·.inputs) = some e.tokens ∧
            (b'.tile t.val).ready = x.ready.filter (·.age ≠ e.age)) ∧
        (x.reruns = [] → x.prefetched = none → x.ready = pre ++ e :: post →
          (∀ y ∈ x.ready, y.sequence = none ∧ b.parkHeld y.context = false) →
          (∀ y ∈ pre, b.level s.mem e < b.level s.mem y ∧ y.age ≠ e.age) →
          (∀ y ∈ post, b.level s.mem e ≤ b.level s.mem y ∧ y.age ≠ e.age) →
          (e.unreadable = false → e.tokens.all (fun k => !k.poison) = true → Leaves (.dispatch t) s fun b' =>
            (b'.tile t.val).firing = some (w.newFiring s.mem e) ∧ (b'.tile t.val).ready = pre ++ post) ∧
          (e.unreadable = false → e.tokens.any (·.poison) = true → b.trailFull = false → Leaves (.dispatch t) s fun b' =>
            (b'.tile t.val).firing = none ∧ (b'.reg (rTILE t.val + 0xC)).toNat = min ((b.reg (rTILE t.val + 0xC)).toNat + 1) 0xFFFFFFFF)))) ∧
    ((∀ k r, b.net.release ≠ .emission k :: r) → still .orderedEmission) ∧
    (b.net.release = .emission tok :: rest →
      (b.trailFull = true → b.receiveForms tok = true → still .orderedEmission) ∧
      (Arrives b tok → SendsUnharmed b → b.net.migration = none →
        (tok.sequence = g.head → b.struck fnRelease = false → b.trailFull = false ∨ (∀ z ∈ g.held, z.due = false) →
          tok.node.toNat < s.mem.nodeCount (b.slotOf tok.context.toNat) → Leaves .orderedEmission s fun b' =>
            b'.net.release = rest ∧ mget [] home b'.net.home =
              mget [] home b.net.home ++ [{ tok with ordered := false, sequence := 0, flow := 0 }]) ∧
        ((tok.sequence ≠ g.head ∨ b.struck fnRelease = true) →
          (∀ r, g.booked.find? (fun y => y.1 = tok.sequence && 0 < y.2.left) = some r →
            tok.sequence ≠ g.head ∨ g.held = [] →
            Leaves .orderedEmission s fun b' => b'.net.release = rest ∧ (b'.flow tok.flow.toNat).held = g.held ++
              [{ token := tok, cancelled := false, ofHeads := r.2.ofHeads, due := tok.sequence = g.head }]) ∧
          (g.booked.find? (fun y => y.1 = tok.sequence && 0 < y.2.left) = none →
            exec .orderedEmission s = .next (ends s s.mem (off.raise 3)))))) ∧
    ((∀ k j r, b.net.release ≠ .marker k j :: r) → still .retireMarker) ∧
    (b.net.release = .marker fl q :: rest →
      (v.outstanding q = false → exec .retireMarker s = .next (ends s s.mem (off.raise 3))) ∧
      (v.outstanding q = true →
        (q = v.head → v.retired = [] → v.held = [] → Leaves .retireMarker s fun b' =>
          b'.net.release = rest ∧ (b'.flow fl.toNat).head = v.head + 1 ∧ (b'.flow fl.toNat).retired = [] ∧
          (b'.flow fl.toNat).booked = v.booked.filter (·.1 ≠ q)) ∧
        (q = v.head → v.retired = [] → b.trailFull = false → v.held = [y] → y.token.sequence = v.head + 1 → y.due = false → y.cancelled = false →
          Leaves .retireMarker s fun b' => b'.net.release = rest ∧ (b'.flow fl.toNat).head = v.head + 1 ∧
            (b'.flow fl.toNat).held = if b.struck fnRelease = true then [{ y with due := true }] else []) ∧
        (q ≠ v.head → v.retired.contains v.head = false →
          Leaves .retireMarker s fun b' => b'.net.release = rest ∧ (b'.flow fl.toNat).head = v.head ∧
            (b'.flow fl.toNat).retired = v.retired ++ [q]))) ∧
    ((∀ h < 16, b.laneNotice (16 * c.val + h) = none) → still (.injectorNotice c)) ∧
    (((List.range 16).map fun k => ((b.cluster c.val).injectNext + k) % 16).find?
        (fun h => (b.laneNotice (16 * c.val + h)).isSome) = some h → ∀ k o, b.laneNotice l = some (k, o) →
      let n := k.context.toNat
      Leaves (.injectorNotice c) s fun b' => (b'.halyard l).notices = (b.halyard l).notices.drop 1 ∧
        (b'.cluster c.val).injectNext = (h + 1) % 16 ∧
        ((b.ctx n).state ≠ .free → (b.ctx n).state ≠ .closed → (b'.ctx n).tokensIn = (b.ctx n).tokensIn + 1))

/-- R285 to R292 and R297: insertions into delay lists, maturity, and the removal of a cancelled context's entries. R372,
R374, R375 and R658: waiting writes that a cell ends, a stall that has lasted too long, the audit trail's buffer, and expired
packets. -/
def Obligations.DelayAndWaiting : Prop :=
  (∀ (s : State) (r : DelayRequest) (rest : List DelayRequest) (n : Fin 4) (i : Nat) (e : DelayEntry),
    let b := s.blade
    let x := b.delay r.list.val
    let d := b.delay n.val
    let c := e.token.context.toNat
    let home := (b.homeTile s.mem 42 e.token).1
    let still := fun i => exec i s = .next (ends s s.mem b)
    (b.net.delayIn = [] → still .delayInsert) ∧
    (b.net.delayIn = r :: rest →
      (b.delayFull r.list.val = true →
        (x.fullEpisode = true → still .delayInsert) ∧
        (x.fullEpisode = false → Leaves .delayInsert s fun b' => b'.net.delayIn = r :: rest ∧
          b'.delay r.list.val = { x with fullEpisode := true } ∧ b'.eng.notices = b.eng.notices + 1)) ∧
      (b.delayFull r.list.val = false → b.trailFull = true → b.receiveForms r.token = true → still .delayInsert) ∧
      (b.delayFull r.list.val = false → Arrives b r.token → b.armed srcDelayEcc 1 = false →
        Leaves .delayInsert s fun b' => b'.net.delayIn = rest ∧ (b'.delay r.list.val).onChip.length ≤ 4096 ∧
          (b'.delay r.list.val).all =
            insertByKey { token := r.token, left := r.amount, stamp := b.net.stamp, unreadable := false } x.all)) ∧
    ((∀ k, k ≤ n.val → b.struck (fnDelay k) = true ∨ (b.delay k).hold = []) → still (.delayMaturity n)) ∧
    ((∀ k, k < n.val → b.struck (fnDelay k) = true ∨ (b.delay k).hold = []) → b.struck (fnDelay n.val) = false →
      d.hold = [e] → b.trailFull = false → b.capturing c = false → b.net.migration = none →
      (b.cancelling c = true → Leaves (.delayMaturity n) s fun b' => (b'.delay n.val).hold = [] ∧
        (b'.ctx c).cancelled = (b.ctx c).cancelled + 1) ∧
      (b.cancelling c = false → e.token.node.toNat < s.mem.nodeCount (b.slotOf c) → SendsUnharmed b →
        Leaves (.delayMaturity n) s fun b' => (b'.delay n.val).hold = [] ∧
          mget [] home b'.net.home = mget [] home b.net.home ++ [e.token])) ∧
    ((d.all ++ d.hold)[i]? = none → still (.delayCancelRemoval n i)) ∧
    ((d.all ++ d.hold)[i]? = some e →
      (b.cancelling c = false ∨ b.trailHolds [e.token] = true → still (.delayCancelRemoval n i)) ∧
      (b.cancelling c = true → b.trailHolds [e.token] = false → e.unreadable = false →
        Leaves (.delayCancelRemoval n i) s fun b' =>
          (b'.delay n.val).all ++ (b'.delay n.val).hold = (d.all ++ d.hold).eraseIdx i ∧
          (b'.ctx c).cancelled = (b.ctx c).cancelled + 1))) ∧
  (∀ (s : State) (t : TileId) (c : ClusterId) (h : HalyardId) (q : QueueId) (f : Firing) (w : QueueStall) (r : TrailRecord)
    (b1 : Blade) (v : QWord) (i : Nat),
    let b := s.blade
    let l := laneNo c h
    let y := b.halyard l
    let still := fun i => exec i s = .next (ends s s.mem b)
    let ch := b.channel (q.toNat - 8256)
    let needs := b.needsCell (.halyard c h) q.toNat
    (y.waitsFor ≠ some q ∨ (b.cellFree q.toNat = false ∧ needs = true) ∨ b.struck (fnQueue q.toNat) = true →
      still (.cellGrant (.halyard c h) q)) ∧
    (y.waitsFor = some q → (b.cellFree q.toNat = true ∨ needs = false) → b.struck (fnQueue q.toNat) = false →
      exec (.cellGrant (.halyard c h) q) s = .next (ends s s.mem (b.setHalyard l { y with waitsFor := none }))) ∧
    ((b.tile t.val).firing = none → still (.cellGrant (.tile t) q) ∧ still (.qfull t)) ∧
    ((b.tile t.val).firing = some f →
      (f.stall = none → still (.cellGrant (.tile t) q) ∧ still (.qfull t)) ∧
      (f.stall = some w →
        let store := b.queueStore (.tile t) q.toNat (if w.sealing then qSEAL else qDATA) w.value w.poison
        (w.queue ≠ q ∨ store = none → still (.cellGrant (.tile t) q)) ∧
        (w.queue = q → store = some b1 → exec (.cellGrant (.tile t) q) s = .next (ends s s.mem (b1.putFiring t
          (if w.instruction = true then { f with stall := none, pc := f.pc + 4, executed := f.executed + 1 }
           else { f with stall := none })))) ∧
        ((b.frame - w.since).toNat < (b.queue w.queue.toNat).stallFrames.toNat ∨
          (b.trailFull = true ∧ f.trapForms = true) → still (.qfull t)) ∧
        ((b.queue w.queue.toNat).stallFrames.toNat ≤ (b.frame - w.since).toNat → b.trailFull = false →
          exec (.qfull t) s = .next (ends s s.mem (b.trap s.mem t { f with stall := none } 0x06 0))))) ∧
    ((q.toNat < 8256 ∨ 8288 ≤ q.toNat ∨ (ch.waitingWords = [] ∧ ch.waitingSeal = none)) →
      (b.storesWait q.toNat = false → still (.cellGrant .command q)) ∧
      (b.pool.waiting = [(q.toNat, .word v.value v.bad)] →
        ({ b with pool.waiting := [] } : Blade).append (.requester .command) q.toNat v.value v.bad = some b1 →
        exec (.cellGrant .command q) s = .next (ends s s.mem b1))) ∧
    (8256 ≤ q.toNat → q.toNat < 8288 → ch.waitingWords = [v] → ch.waitingSeal = none → b.pool.waiting = [] →
      (b.append (.requester .command) q.toNat v.value v.bad = none → still (.cellGrant .command q)) ∧
      (b.append (.requester .command) q.toNat v.value v.bad = some b1 → b1.pool.waiting = [] → exec (.cellGrant .command q) s =
        .next (ends s s.mem (b1.setChannel (q.toNat - 8256) { ch with waitingWords := [] })))) ∧
    (b.pair.unreleased = [] → b.eng.cancels = [] → (∀ x ∈ b.ord.flows, ∀ z ∈ x.2.held, z.due = false) →
      let packet := ({ b with frame := r.frame } : Blade).writePacket .ledger 8192 r.bytes
      (b.led.trail = [] → still .trailBufferDrain) ∧
      (b.led.trail = [r] → packet = none → still .trailBufferDrain) ∧
      (b.led.trail = [r] → packet = some b1 → Leaves .trailBufferDrain s fun b' =>
        b'.led.trail = [] ∧ b'.pool = b1.pool ∧ b'.frame = b.frame)) ∧
    (b.flag rQPOOL 1 = false ∨ (∀ k ∈ (b.queue q.toNat).order, b.expired q.toNat k = false) → still (.queueExpiry q)) ∧
    (b.flag rQPOOL 1 = true → (b.queue q.toNat).order.filter (b.expired q.toNat) = [i] → b.noticeChannel = none →
      (b.packet i).descBad = false → Leaves (.queueExpiry q) s fun b' => (b'.packet i).state = .released ∧
        b'.eng.notices = b.eng.notices + 1 ∧ ∀ x ∈ b'.net.port44, x.notice ≠ some (q, i)))

/-- R426, R433, R434, R439 to R443, R448, R449, R460 and Table 10.8: what a lane port does with received DATA, MGMT and
URGENT pennants, with bad pennants and those of an undefined type, and with line errors. -/
def Obligations.ReceivedPennants : Prop :=
  ∀ (s : State) (l : LaneId) (p : Pennant) (type : BitVec 4),
    let b := s.blade
    let q := b.port l.val
    let g := q.grant p.endpoint.toNat
    let cost := blocksOf p.payload
    let still := fun i => exec i s = .next (ends s s.mem b)
    let stored := fun u : Bool =>
      ({ urgent := u, endpoint := p.endpoint, sequence := p.sequence, payload := p.payload, weak := 0, lost := false } :
        RxPennant)
    let kept := fun b' : Blade => (b'.port l.val).rx = q.rx ∧ (b'.port l.val).rxExpected = q.rxExpected ∧
      (b'.port l.val).uExpected = q.uExpected
    let naks := fun (r : BitVec 8) (b' : Blade) => kept b' ∧
      (b'.port l.val).nakDue =
        if (b.frame, q.rxExpected) ∈ q.nakedAt ∨ (∃ e ∈ q.nakDue, e.2 = (false, q.rxExpected)) then q.nakDue
        else q.nakDue ++ [(r, false, q.rxExpected)]
    let unaks := fun (r : BitVec 8) (b' : Blade) => kept b' ∧
      (b'.port l.val).nakDue = q.nakDue ++ [(r, true, q.uExpected)]
    let broken : Bool := p.codeGroupError || p.innerStart || decide (p.crc ≠ crc32 (pennantBody type.toNat p))
    (∀ i ∈ [Instr.dataPennant l p, .mgmtPennant l p, .urgentPennant l p, .ackPennant l p, .nakPennant l p,
        .creditPennant l p, .auditReply l p, .fillPennant l p, .undefinedPennant l type p, .codeGroupError l],
      b.hears l.val = false → still i) ∧
    still (.pennantAbort l) ∧
    (∀ i ∈ [(Instr.dataPennant l p, 1), (Instr.mgmtPennant l p, 7)], GoodPennant b l.val i.2 p →
      (q.full = false → exec i.1 s = .next (ends s s.mem (heard b l.val p))) ∧
      (q.full = true →
        (p.sequence = q.rxExpected → cost ≤ g.outstanding → b.armed (srcPktCorr l.val) 1 = false →
          b.armed (srcPktUncorr l.val) 1 = false → Leaves i.1 s fun b' =>
            (b'.port l.val).rx = q.rx ++ [stored false] ∧ (b'.port l.val).rxExpected = q.rxExpected + 1 ∧
            ((b'.port l.val).grant p.endpoint.toNat).consumed = g.consumed + .ofNat 16 cost) ∧
        (p.sequence = q.rxExpected → g.outstanding < cost → Leaves i.1 s (naks 3)) ∧
        (p.sequence ≠ q.rxExpected → (q.rxExpected - p.sequence).toNat < 32768 → Leaves i.1 s fun b' => kept b' ∧
          (b'.port l.val).ackAlone = true) ∧
        (32768 ≤ (q.rxExpected - p.sequence).toNat → Leaves i.1 s (naks 2)))) ∧
    (GoodPennant b l.val 2 p →
      (q.state = 2 → Leaves (.urgentPennant l p) s (unaks 4)) ∧
      (q.full = false → q.state ≠ 2 → exec (.urgentPennant l p) s = .next (ends s s.mem (heard b l.val p))) ∧
      (q.full = true →
        (p.sequence = q.uExpected → b.urgentInUse l.val < b.urgentSlots l.val → b.armed (srcPktCorr l.val) 1 = false →
          b.armed (srcPktUncorr l.val) 1 = false → Leaves (.urgentPennant l p) s fun b' =>
            (b'.port l.val).rx = q.rx ++ [stored true] ∧ (b'.port l.val).uExpected = q.uExpected + 1 ∧
            (b'.port l.val).urgent.consumed = q.urgent.consumed + 1) ∧
        (p.sequence = q.uExpected → b.urgentSlots l.val ≤ b.urgentInUse l.val → Leaves (.urgentPennant l p) s (unaks 4)) ∧
        (p.sequence ≠ q.uExpected → (q.uExpected - p.sequence).toNat < 32768 → Leaves (.urgentPennant l p) s fun b' =>
          kept b' ∧ (b'.port l.val).nakDue = q.nakDue ∧ (b'.port l.val).sentThisFrame = true) ∧
        (32768 ≤ (q.uExpected - p.sequence).toNat → Leaves (.urgentPennant l p) s (unaks 2)))) ∧
    (b.hears l.val = true →
      (∀ i ∈ [(Instr.dataPennant l p, 1), (.mgmtPennant l p, 7), (.ackPennant l p, 3), (.nakPennant l p, 4)],
        (type.toNat = i.2 → broken = true → Leaves i.1 s fun b' => kept b' ∧
          (b'.port l.val).windowErrors = q.windowErrors + 1) ∧
        (type.toNat = i.2 → broken = false → b.armed (srcPort l.val 0) 1 = false → headerValid i.2 p = false →
          q.full = true → Leaves i.1 s (naks 6))) ∧
      (1 ≤ type.toNat → type.toNat ≤ 8 → still (.undefinedPennant l type p)) ∧
      ((type = 0 ∨ 8 < type.toNat) →
        (broken = true → Leaves (.undefinedPennant l type p) s fun b' => kept b' ∧
          (b'.port l.val).windowErrors = q.windowErrors + 1) ∧
        (broken = false → q.full = true → Leaves (.undefinedPennant l type p) s (naks 5)) ∧
        (broken = false → q.full = false → Leaves (.undefinedPennant l type p) s fun b' => b'.port l.val = q)) ∧
      Leaves (.codeGroupError l) s fun b' => kept b' ∧ (b'.port l.val).windowErrors = q.windowErrors + 1)

/-- R450, R451, R454 to R457, R459 and Tables 10.4 and 10.11: what a lane port does with a pod's ACK, NAK, CREDIT, AUDIT and
FILL. A CREDIT that completes SYNC moves the link to UP, which sets its limits to zero (R455). -/
def Obligations.PodMessages : Prop :=
  ∀ (s : State) (l : LaneId) (p : Pennant) (a : AuditSent) (b0 b1 b2 b3 : Byte) (t : TxPennant),
    let b := s.blade
    let h := heard b l.val p
    let g := h.port l.val
    let alone := fun i => exec i s = .next (ends s s.mem h)
    let sent := g.tx.any fun t => t.sent && t.sequence = p.sequence
    let e := b0.toNat % 32
    let f := BitVec.ofNat 16 (fieldAt p.payload 0 2)
    let gone := fun t : TxPennant => t.sent && (p.sequence - t.sequence).toNat < 32768
    let opens : Bool := g.lock && decide (g.lockSince + 1000 ≤ b.now)
    let since := (f - BitVec.ofNat 16 g.syncFrame.toNat).toNat
    let near : Prop := 1 ≤ since ∧ since ≤ (b.frame - g.syncFrame).toNat
    (GoodPennant b l.val 3 p →
      ((g.full = false ∨ p.uspace = true ∨ sent = false) → alone (.ackPennant l p)) ∧
      (g.full = true → p.uspace = false → sent = true → Leaves (.ackPennant l p) s fun b' =>
        (b'.port l.val).tx = g.tx.filter (fun t => !gone t) ∧ (b'.port l.val).txAcked = p.sequence ∧
        (b'.port l.val).lastProgress = b.frame ∧
        (g.tx.filter gone = [t] → ((b'.port l.val).credit t.endpoint.toNat).acked =
          (g.credit t.endpoint.toNat).acked + .ofNat 16 (blocksOf t.payload)))) ∧
    (GoodPennant b l.val 4 p →
      (g.full = false → exec (.nakPennant l p) s = .next (ends s s.mem (h.portCount l.val 0x4C))) ∧
      (g.full = true → Leaves (.nakPennant l p) s fun b' => (b'.port l.val).tx =
        if p.uspace = false ∧ sent = true then
          g.tx.map fun t => if t.sent && (t.sequence - p.sequence).toNat < 32768 then { t with resend := true } else t
        else g.tx)) ∧
    (GoodPennant b l.val 5 p →
      (g.hoisting = false → alone (.creditPennant l p)) ∧
      (g.hoisting = true →
        (g.state = 2 → g.echoed = true → Leaves (.creditPennant l p) s fun b' => (b'.port l.val).state = 3 ∧
          (b'.port l.val).down = [] ∧ b'.eng.notices = b.eng.notices + 1) ∧
        ((g.state ≠ 2 ∨ g.echoed = false) → p.payload = [b0, b1, b2, b3] → Leaves (.creditPennant l p) s fun b' =>
          (b'.port l.val).state = g.state ∧ (b'.port l.val).podCredit = true ∧
          (b'.halyard l.val).latched = (b.halyard l.val).latched ||| 0x80 ∧
          ((b'.port l.val).credit e).limit =
            if bitOf b0.toNat 5 = true then (g.credit e).limit else .ofNat 16 (leNat [b2, b3])))) ∧
    (GoodPennant b l.val 6 p →
      ((g.full = false ∨ ∀ a ∈ g.audits, a.payload.take 2 ≠ p.payload.take 2) → alone (.auditReply l p)) ∧
      (g.full = true → g.audits.find? (fun a => a.payload.take 2 = p.payload.take 2) = some a →
        (a.payload = p.payload → Leaves (.auditReply l p) s fun b' => (b'.port l.val).auditPending = false ∧
          (b'.port l.val).audits = dropFirst (· = a) g.audits) ∧
        (a.payload ≠ p.payload → g.auditPending = false → Leaves (.auditReply l p) s fun b' =>
          (b'.port l.val).auditPending = true ∧ (b'.port l.val).auditAgain = true ∧ (b'.port l.val).ackAlone = true ∧
          (b'.port l.val).creditFor = List.range 33 ∧ (b'.port l.val).state = g.state) ∧
        (a.payload ≠ p.payload → g.auditPending = true → Leaves (.auditReply l p) s fun b' =>
          (b'.port l.val).auditPending = false ∧ (b'.port l.val).audits = [] ∧ (b'.port l.val).state = 5))) ∧
    (GoodPennant b l.val 8 p → Leaves (.fillPennant l p) s fun b' =>
      (b'.port l.val).podFrame = f ∧ (b'.port l.val).podState = .ofNat 3 (fieldAt p.payload 2 1) ∧
      (g.state = 1 → (b'.port l.val).fills = (if opens then (if 1 ≤ g.fills then (b'.port l.val).fills else 1) else g.fills) ∧
        (b'.port l.val).state = if opens = true ∧ 1 ≤ g.fills then 2 else 1) ∧
      (g.state = 2 → (b'.port l.val).state =
        if near ∧ g.podCredit = true ∧ (g.echoed = true ∨ g.lastEcho = some (f - 1)) then 3 else 2) ∧
      (g.state = 2 → near → g.podCredit = false → (b'.port l.val).lastEcho = some f) ∧
      (g.state ≠ 1 → g.state ≠ 2 → (b'.port l.val).state = g.state))

/-- R429, R436, R437, R450, R456, R457, R459 to R462 and Tables 10.9 and 10.11: what a port sends at a pennant boundary, and
the events of its link. -/
def Obligations.LinkEvents : Prop :=
  ∀ (s : State) (l : LaneId) (t : TxPennant) (a : AuditSent) (n : Nat) (reason : BitVec 8) (uspace : Bool) (q : BitVec 16)
    (rest : List (BitVec 8 × Bool × BitVec 16)),
    let b := s.blade
    let p := b.port l.val
    let still := fun i => exec i s = .next (ends s s.mem b)
    let fill := Output.pennant l (fillOf b l.val)
    let young : Prop := ∀ m, p.ackDue = some m → b.now < m + 20
    let quiet : Prop := p.creditDue = none ∧ p.auditDue = none ∧ p.uackDue = none
    let idle : Prop := quiet ∧ young ∧ p.ackAlone = false
    let waited := min (b.frame - t.sentFrame).toNat (b.frame - p.lastProgress).toNat
    let good := if p.windowErrors ≤ b.degradeThr l.val then p.goodWindows + 1 else 0
    ((p.hoisting = false ∨ b.onLane l.val = false) → still (.pennantBoundary l)) ∧
    (p.hoisting = true → b.onLane l.val = true →
      (p.nakDue = (reason, uspace, q) :: rest → Leaves (.pennantBoundary l) s fun b' => (b'.port l.val).nakDue = rest ∧
        b'.outputs = (b.out (.pennant l
          (({ TxHeader.of 4 0 q.toNat with uspace := uspace }).bytes (some p.rxAcked) [reason, 0, 0, 0]))).outputs) ∧
      (p.nakDue = [] → (p.full = false ∨ (idle ∧ p.tx = [])) →
        (p.sentThisFrame = true → still (.pennantBoundary l)) ∧
        (p.sentThisFrame = false → Leaves (.pennantBoundary l) s fun b' => b'.outputs = (b.out fill).outputs ∧
          (b'.port l.val).sentThisFrame = true)) ∧
      (p.nakDue = [] → p.full = true → p.creditDue = some n → n + 20 ≤ b.now → Leaves (.pennantBoundary l) s fun b' =>
        (b'.port l.val).creditDue = none ∧ (b'.port l.val).creditFor = []) ∧
      (p.nakDue = [] → p.full = true → p.creditDue = none → p.auditDue = some n → Leaves (.pennantBoundary l) s fun b' =>
        (b'.port l.val).auditDue = none ∧
        (b'.port l.val).audits = p.audits ++ [{ frame := b.frame, payload := b.auditPayload l.val }]) ∧
      (p.nakDue = [] → p.full = true → p.creditDue = none → p.auditDue = none →
        (¬young ∨ (p.ackAlone = true ∧ p.tx = [] ∧ p.uackDue = none)) →
        Leaves (.pennantBoundary l) s fun b' => (b'.port l.val).ackDue = none ∧ (b'.port l.val).ackAlone = false) ∧
      (p.nakDue = [] → p.full = true → quiet → young → p.tx = [t] → (t.resend = true ∨ t.sent = false) → p.payable t = true →
        (t.lost = false → Leaves (.pennantBoundary l) s fun b' => (b'.port l.val).tx =
          [{ t with weak := 0, paid := true, sent := true, resend := false, sentFrame := b.frame }]) ∧
        (t.lost = true → Leaves (.pennantBoundary l) s fun b' => (b'.port l.val).tx = [] ∧
          b'.outputs = (b.out (.abort l)).outputs))) ∧
    (p.tx.find? (·.sent) = none → still (.downstreamRetransmit l)) ∧
    (p.tx.find? (·.sent) = some t →
      ((p.full = false ∨ waited ≤ b.retxFrames l.val) → still (.downstreamRetransmit l)) ∧
      (p.full = true → b.retxFrames l.val < waited → Leaves (.downstreamRetransmit l) s fun b' => (b'.port l.val).tx =
        p.tx.map fun u => if u.sent && (u.sequence - t.sequence).toNat < 32768 then { u with resend := true } else u)) ∧
    ((p.full = false ∨ p.auditDue = none ∨ b.onLane l.val = false) → still (.audit l)) ∧
    (p.full = true → b.onLane l.val = true → p.auditDue = some n → Leaves (.audit l) s fun b' => (b'.port l.val).auditDue = none ∧
      (b'.port l.val).audits = p.audits ++ [{ frame := b.frame, payload := b.auditPayload l.val }]) ∧
    ((p.full = false ∨ ∀ a ∈ p.audits, (b.frame - a.frame).toNat < 4) → still (.auditTimeout l)) ∧
    (p.full = true → p.audits.find? (fun a => 4 ≤ (b.frame - a.frame).toNat) = some a →
      (p.auditPending = false → Leaves (.auditTimeout l) s fun b' => (b'.port l.val).auditPending = true ∧
        (b'.port l.val).audits = dropFirst (· = a) p.audits ∧ (b'.port l.val).state = p.state) ∧
      (p.auditPending = true → Leaves (.auditTimeout l) s fun b' => (b'.port l.val).audits = [] ∧
        (b'.port l.val).state = 5)) ∧
    ((p.state ≠ 1 ∨ b.onLane l.val = false) → still (.trainFill l)) ∧
    (p.state = 1 → b.onLane l.val = true → Leaves (.trainFill l) s fun b' => b'.outputs = (b.out fill).outputs) ∧
    (Leaves (.signalEnergy l) s fun b' => (b'.port l.val).energy = true ∧ (b'.port l.val).state =
      if b.portEnabled l.val = false then 0 else if p.state = 0 then 1 else p.state) ∧
    (Leaves (.signalLoss l) s fun b' => (b'.port l.val).energy = false ∧ (b'.port l.val).lock = false ∧
      (b'.port l.val).state = 0) ∧
    (Leaves (.codeGroupLock l) s fun b' => b'.port l.val =
      if p.energy = true ∧ p.lock = false then { p with lock := true, lockSince := b.now, fills := 0 } else p) ∧
    (Leaves (.lockLost l) s fun b' => (b'.port l.val).lock = false ∧
      (b'.port l.val).state = if p.hoisting then 5 else p.state) ∧
    ((p.hoisting = false ∨ (b.frame - p.lastValid).toNat < 8) → still (.pennantSilence l)) ∧
    (p.hoisting = true → 8 ≤ (b.frame - p.lastValid).toNat → Leaves (.pennantSilence l) s fun b' =>
      (b'.port l.val).state = 5 ∧ (b'.port l.val).rx = p.rx ∧ (b'.port l.val).tx = p.tx ∧
      (b'.port l.val).rxExpected = p.rxExpected) ∧
    (p.state ≠ 5 → still (.faultRetrain l)) ∧
    (p.state = 5 → Leaves (.faultRetrain l) s fun b' => (b'.port l.val).state = 1 ∧ (b'.port l.val).rx = p.rx ∧
      (b'.port l.val).tx = p.tx) ∧
    ((b.frame.toNat % 64 ≠ 0 ∨ p.windowFrame = b.frame) → still (.errorWindow l)) ∧
    (b.frame.toNat % 64 = 0 → p.windowFrame ≠ b.frame → Leaves (.errorWindow l) s fun b' =>
      (b'.port l.val).windowErrors = 0 ∧ (b'.port l.val).windowFrame = b.frame ∧
      (b'.port l.val).state = if p.state = 4 ∧ 4 ≤ good then 3 else p.state)

/-- R515 and R517, Tables 11.9 and 11.10, and R524: the commands on host channels, TIME_STATUS, and the resynchronization of
the USB line (R469). Acknowledgements that a channel has not had yet, and the state and uplink of a clock that follows none,
are free (log entry 4). -/
def Obligations.ChannelCommands : Prop :=
  ∀ (s : State) (r : Request) (u : UplinkId),
    let b := s.blade
    let h := rqField r 0 1
    let kind := rqField r 1 1
    let o := began s r
    let p := began s r
    let q := began s r
    let t := began s r
    let c := q.channel h
    let late := fun (b : Blade) (status : Nat) => ends s s.mem (b.answerAtCommit (replyTo s r) status)
    let time := fun (st n : Nat) => leBytes 8 t.eng.ptpTime.toNat ++ leBytes 1 st ++ leBytes 1 n ++ leBytes 2 0 ++
      leBytes 4 t.eng.ptpOffset.toNat ++ leBytes 4 t.frame.toNat
    (Admitted s 0x70 false r → r.length = 32 →
      (31 < h → exec (.channelOpen r) s = .next (late o 9)) ∧
      (h ≤ 31 → (o.channel h).isOpen = true → exec (.channelOpen r) s = .next (late o 7)) ∧
      (h ≤ 31 → (o.channel h).isOpen = false →
        (channelFields r = false → exec (.channelOpen r) s = .next (late o 9)) ∧
        (channelFields r = true →
          ((o.key (rqField r 2 1)).present = false ∨ o.kindTaken kind = true →
            exec (.channelOpen r) s = .next (late o 0xD)) ∧
          ((o.key (rqField r 2 1)).present = true → o.kindTaken kind = false →
            (kind = 2 → o.passEndpoint (rqField r 8 2) (rqField r 0xA 1) = false →
              exec (.channelOpen r) s = .next (late o 0xA)) ∧
            ((kind ≠ 2 ∨ o.passEndpoint (rqField r 8 2) (rqField r 0xA 1) = true) → exec (.channelOpen r) s =
              .next (late (o.setChannel h (openedChannel o.frame r)) 0)))))) ∧
    (Admitted s 0x71 false r → r.length = 4 →
      (31 < h → exec (.channelClose r) s = .next (late p 9)) ∧
      (h ≤ 31 → (p.channel h).isOpen = false → exec (.channelClose r) s = .next (late p 0xA)) ∧
      (h ≤ 31 → (p.channel h).isOpen = true → Leaves (.channelClose r) s fun b' => b'.channel h = Channel.init ∧
        b'.eng.heldReplies = (p.answerAtCommit (replyTo s r) 0).eng.heldReplies)) ∧
    (Admitted s 0x72 true r → r.length = 4 →
      (31 < h → exec (.channelStatus r) s = .next (replied s r 9 [])) ∧
      (h ≤ 31 → ∃ (x y : Word32) (n : Nat), (∀ v, c.txAcked = some v → x = v) ∧ (∀ v, c.rxAcked = some v → y = v) ∧
        exec (.channelStatus r) s = .next (ends s s.mem ({ q with draws := n }.answer (replyTo s r) 0
          (leBytes 1 c.code ++ leBytes 1 c.kind.toNat ++ leBytes 1 c.slot.val ++ leBytes 1 0 ++ leBytes 4 c.txNext.toNat ++
            leBytes 4 x.toNat ++ leBytes 4 c.rxExpected.toNat ++ leBytes 4 y.toNat ++ leBytes 4 c.retx.toNat ++
            leBytes 4 c.dropped.toNat ++ leBytes 4 0))))) ∧
    (Admitted s 0x78 true r → r.length = 0 →
      (t.slaveUplink = some u → exec (.timeStatus r) s =
        .next (replied s r 0 (time (t.ptpState u.val) u.val))) ∧
      (t.slaveUplink = none → ∃ st n k : Nat, st < 5 ∧ n < 3 ∧ exec (.timeStatus r) s =
        .next (ends s s.mem ({ t with draws := k }.answer (replyTo s r) 0 (time st n))))) ∧
    exec .usbResync s = .next (ends s s.mem { b with eng.usbDiscarding := false })

/-- R507 to R514: datagrams that arrive, segments and acknowledgements that leave, retransmission, and a stalled channel. -/
def Obligations.ChannelTraffic : Prop :=
  ∀ (s : State) (d : Datagram) (ch : ChannelId) (x : SentSegment) (rest : List SentSegment) (i k : Nat),
    let b := s.blade
    let h := d.channel.toNat
    let c := b.channel h
    let v := b.channel ch.val
    let still := fun i => exec i s = .next (ends s s.mem b)
    let u := d.uplink.val
    let f := b.frameIn u d.vlan d.fragment
    let n := f.2
    let bad := fun i => exec i s = .next (ends s s.mem ((n.count (rCMD + 0x44)).count (rUPLINK u + 0x70)))
    let passes := fun i => exec i s = .next (ends s s.mem n)
    let last : Bool := k + 1 = segmentCount (b.channelBytes ch.val i).length
    let went := fun b' : Blade => b.flt.fenced = false → b'.outputs.length = b.outputs.length + 1
    (b.flt.fenced = true → f = (false, b)) ∧
    (b.flt.fenced = false → f.1 = (b.uplinkOn u && b.tagFits u d.vlan && !d.fragment) ∧
      n.pair64 (rUPLINK u + 0x60) = (b.pair64 (rUPLINK u + 0x60) + 1) % 2 ^ 64 ∧
      (n.reg (rUPLINK u + 0x70)).toNat = min ((b.reg (rUPLINK u + 0x70)).toNat + b2n (!f.1)) 0xFFFFFFFF) ∧
    (d.type = 2 → still (.channelData d)) ∧ (d.type = 1 → still (.channelAck d)) ∧
    ((f.1 = false ∨ n.owns u d.dest = false ∨ d.destPort.toNat ≠ (n.reg rCMD).toNat / 2 ^ 16) →
      (d.type ≠ 2 → passes (.channelData d)) ∧ (d.type ≠ 1 → passes (.channelAck d))) ∧
    (f.1 = true → n.owns u d.dest = true → d.destPort.toNat = (n.reg rCMD).toNat / 2 ^ 16 →
      ((b.active = false ∨ b.datagramGood d = false) →
        (d.type ≠ 2 → bad (.channelData d)) ∧ (d.type ≠ 1 → bad (.channelAck d))) ∧
      (b.active = true → b.datagramGood d = true → d.type = 2 →
        (d.flags.getLsbD 2 = false ∨ (∀ y ∈ c.sent, y.sequence ≠ d.ack) → passes (.channelAck d)) ∧
        (d.flags.getLsbD 2 = true → c.sent = x :: rest → x.sequence = d.ack → Leaves (.channelAck d) s fun b' =>
          (b'.channel h).sent = rest ∧ (b'.channel h).txAcked = some d.ack ∧ (b'.channel h).stalled = false ∧
          (b'.channel h).progress = b.frame)) ∧
      (b.active = true → b.datagramGood d = true → d.type = 1 →
        ((d.sequence ≠ c.rxExpected ∨ 64 ≤ c.beyond ∨ b.channelHeld h = true) → Leaves (.channelData d) s fun b' =>
          (b'.channel h).rxExpected = c.rxExpected ∧ (b'.channel h).dropped = satInc c.dropped) ∧
        (d.sequence = c.rxExpected → c.beyond < 64 → b.channelHeld h = false → Leaves (.channelData d) s fun b' =>
          (b'.channel h).rxExpected = c.rxExpected + 1 ∧ (b'.channel h).dropped = c.dropped ∧
          (c.kind = 1 ∨ c.kind = 3 → (b'.channel h).ackables = c.ackables ++ [(d.sequence, b.frame)])))) ∧
    (b.channelReady ch.val = false → still (.channelSegmentSend ch) ∧ still (.channelAckDue ch) ∧
      still (.channelRetransmit ch)) ∧
    (b.channelReady ch.val = true →
      (v.resend = x :: rest → Leaves (.channelSegmentSend ch) s fun b' => (b'.channel ch.val).resend = rest ∧
        (b'.channel ch.val).retx = satInc v.retx ∧ went b') ∧
      (v.resend = [] → 64 ≤ v.sent.length → still (.channelSegmentSend ch)) ∧
      (v.resend = [] → v.sent.length < 64 → v.sending = none → v.kind ≠ 1 → b.oldestVisible (chanOut ch.val) = none →
        still (.channelSegmentSend ch)) ∧
      (v.resend = [] → v.sent.length < 64 → v.sending = some (i, k) → Leaves (.channelSegmentSend ch) s fun b' =>
        (b'.channel ch.val).sent = v.sent ++ [{ sequence := v.txNext, first := i, index := k, last := last }] ∧
        (b'.channel ch.val).txNext = v.txNext + 1 ∧
        (b'.channel ch.val).sending = (if last then none else some (i, k + 1)) ∧ went b') ∧
      ((v.rxAcked = none ∨ (v.ackDue = false ∧ v.duplicateAck = false)) → still (.channelAckDue ch)) ∧
      (v.rxAcked ≠ none → (v.ackDue = true ∨ v.duplicateAck = true) → Leaves (.channelAckDue ch) s fun b' =>
        (b'.channel ch.val).ackDue = false ∧ (b'.channel ch.val).duplicateAck = false ∧ went b') ∧
      ((v.sent = [] ∨ (b.frame - v.base).toNat < 4 * v.retxMs) → still (.channelRetransmit ch)) ∧
      (v.sent ≠ [] → 4 * v.retxMs ≤ (b.frame - v.base).toNat → Leaves (.channelRetransmit ch) s fun b' =>
        (b'.channel ch.val).resend = [] ∧ (b'.channel ch.val).sent = v.sent ∧ (b'.channel ch.val).base = b.frame ∧
        (b.flt.fenced = false → b'.outputs.length = b.outputs.length + v.sent.length))) ∧
    ((v.isOpen = false ∨ v.stalled = true ∨ (v.sent = [] ∧ (b.key v.slot.val).present = true) ∨
      (b.frame - v.progress).toNat < 8000) → still (.channelStalled ch)) ∧
    (v.isOpen = true → v.stalled = false → (v.sent ≠ [] ∨ (b.key v.slot.val).present = false) → 8000 ≤ (b.frame - v.progress).toNat →
      Leaves (.channelStalled ch) s fun b' => (b'.channel ch.val).stalled = true ∧ b'.eng.notices = b.eng.notices + 1)

/-- R519 to R523 and Table 12.3: what arrives at an uplink for its own protocols, the repeated announcements, and its link. -/
def Obligations.UplinkEvents : Prop :=
  ∀ (s : State) (u : UplinkId) (t4 : BitVec 32) (t6 : BitVec 128) (vlan : Option (BitVec 12)) (pay : List Byte)
    (x : PtpMessage) (up : Bool),
    let b := s.blade
    let n := b.count64 (rUPLINK u.val + 0x60)
    let sent := fun o : Output =>
      if b.flag (rUPLINK u.val) 1 then .tagged (BitVec.ofNat 12 (b.field (rUPLINK u.val) 2 12)) o else o
    let gets := fun (i : Instr) (own : Bool) (o : Output) =>
      (b.flt.fenced = true → exec i s = .next (ends s s.mem b)) ∧
      (b.flt.fenced = false → (b.uplinkOn u.val = false ∨ b.tagFits u.val vlan = false) →
        exec i s = .next (ends s s.mem (n.count (rUPLINK u.val + 0x70)))) ∧
      (b.flt.fenced = false → b.uplinkOn u.val = true → b.tagFits u.val vlan = true →
        (own = false → exec i s = .next (ends s s.mem n)) ∧
        (own = true → Leaves i s fun b' => b'.outputs = b.outputs ++ [sent o] ∧
          b'.pair64 (rUPLINK u.val + 0x68) = (b.pair64 (rUPLINK u.val + 0x68) + 1) % 2 ^ 64))
    let f := b.frameIn u.val x.vlan false
    let heard : Bool := f.1 && b.flag (rUPLINK u.val) 14 &&
      decide (x.domain.toNat = b.field (rUPLINK u.val) 16 8) && decide (x.state.toNat ≤ 4)
    gets (.arp u t4 vlan) (b.owns4 u.val t4) (.arp u (mapped4 t4) false) ∧
    gets (.neighbourSolicitation u t6 vlan) (b.owns6 u.val t6) (.arp u t6 false) ∧
    gets (.echoRequest u t6 vlan pay) (b.owns u.val t6) (.echo u pay) ∧
    (heard = false → exec (.ptpMessage u x) s = .next (ends s s.mem f.2)) ∧
    (heard = true → Leaves (.ptpMessage u x) s fun b' => b'.field (rUPLINK u.val + 4) 2 3 = x.state.toNat ∧
      b'.reg (rUPLINK u.val + 0x50) = x.offset ∧
      (b'.slaveUplink = some u → b'.eng.ptpTime = x.time ∧ b'.eng.ptpOffset = x.offset) ∧
      (b'.slaveUplink ≠ some u → b'.eng.ptpTime = b.eng.ptpTime ∧ b'.eng.ptpOffset = b.eng.ptpOffset)) ∧
    ((b.eng.announcements = 0 ∨ b.active = false) → exec .announcementRepeat s = .next (ends s s.mem b)) ∧
    (0 < b.eng.announcements → b.active = true → Leaves .announcementRepeat s fun b' =>
      b'.eng.announcements = b.eng.announcements - 1) ∧
    Leaves (.uplinkLinkChange u up) s fun b' => b'.flag (rUPLINK u.val + 4) 0 = up ∧
      (up = false → b'.field (rUPLINK u.val + 4) 2 3 = 0) ∧
      (b'.source (srcWide 7 u.val)).cause = (b.flag (rUPLINK u.val) 0 && !up)

/-- R34, R35, R41, R285, R399 and R524: the tick that ends a frame, and the fine ticks within it. R22, R308, R535, R538 to
R541: reaction timers, the window of corrected errors, the watchdog, the fence and the ALIVE outputs. -/
def Obligations.TimeEvents : Prop :=
  (∀ (s : State) (n : Fin 4) (l : LaneId),
    let b := s.blade
    let less := fun e : DelayEntry => { e with left := e.left - 1 }
    let runs : Bool := decide (4 ≤ b.hw.startStep.toNat) && !b.flt.fenced
    (runs = false → exec .tick s = .next (ends s s.mem b) ∧ exec .fineTick s = .next (ends s s.mem b)) ∧
    (runs = true →
      (b.pair.role = .starting → Leaves .tick s fun b' => b'.frame = b.frame + 1 ∧ b'.fineTicks = 0) ∧
      (b.active = true →
        (Leaves .tick s fun b' => b'.flt.moduleRuns = true ∧ b'.frame = b.frame + 1 ∧ b'.fineTicks = 0 ∧ b'.net.budgetTokens = 0 ∧
          b'.eng.ptpTime = b.eng.ptpTime + 250000 ∧
          (b.joined = true → b.struck fnToggle = false →
            b'.pair.unreleased = b.pair.unreleased ++ [(b.frame, b.eng.stamp)]) ∧
          (b.mirrors = true → b.struck fnToggle = false → b'.pair.logged = s.mem) ∧
          (1 ≤ n.val → (∀ e ∈ (b.delay n.val).all, 1 < e.left) →
            (b'.delay n.val).all.map (·.token) = (b.delay n.val).all.map (·.token) ∧
            (b'.delay n.val).all = ((b.delay n.val).all.map less)))) ∧
      ((b.pair.role = .standby ∨ (b.pair.role = .active ∧ b.pair.detected = true)) → ∃ (m' : Memory) (b' : Blade),
        exec .tick s = .next (ends s m' b') ∧
        b'.frame = b.frame + 1 ∧ b'.fineTicks = 0 ∧ b'.pair.applying = []) ∧
      (249 ≤ b.fineTicks → exec .fineTick s = .next (ends s s.mem b)) ∧
      (b.fineTicks < 249 →
        (b.active = false → exec .fineTick s = .next (ends s s.mem { b with fineTicks := b.fineTicks + 1 })) ∧
        (b.active = true → Leaves .fineTick s fun b' => b'.fineTicks = b.fineTicks + 1 ∧ b'.frame = b.frame ∧
          ((∀ e ∈ (b.delay 0).all, 1 < e.left) → (b'.delay 0).all = (b.delay 0).all.map less) ∧
          ((b.lan.halyards.map (·.1)).Nodup → (b'.halyard l.val).timer = if 1 < (b.halyard l.val).timer.toNat then (b.halyard l.val).timer - 1
            else (b.halyard l.val).timer))))) ∧
  (∀ (s : State) (src : BitVec 11),
    let b := s.blade
    let v := b.source src.toNat
    let late : Bool := v.sticky && decide (v.eff.toNat = 1) && decide (v.deadline = 1)
    let starved : Bool := decide (4 ≤ b.hw.startStep.toNat) && !b.flt.fenced && b.flag 0x02013028 8 &&
      decide ((b.reg 0x02013028).toNat % 256 < b.flt.kickFrames)
    (late = false → exec (.timerEsc src) s = .next (ends s s.mem b)) ∧
    (late = true → Leaves (.timerEsc src) s fun b' => b'.flt.fatal = true ∧ b'.flt.frozen = true ∧
      (b'.source src.toNat).eff = 2 ∧ (b'.source src.toNat).deadline = 0) ∧
    (b.flt.windowLeft ≠ 0 → exec .correctedWindow s = .next (ends s s.mem b)) ∧
    (b.flt.windowLeft = 0 → Leaves .correctedWindow s fun b' =>
      b'.flt.windowLeft = (b.reg 0x02090000).toNat / 2 ^ 16 ∧ ∀ n, (b'.source n).count = 0 ∧
        (b'.source n).thresholdPassed = false ∧ (b'.source n).sticky = (b.source n).sticky) ∧
    exec .watchdog s = .next (ends s s.mem (if starved then b.raise 290 else b)) ∧
    (b.flt.fencing = false → exec .fence s = .next (ends s s.mem b)) ∧
    (b.flt.fencing = true → Leaves .fence s fun b' => b'.flt.fenced = true ∧ b'.pair.claim = false ∧
      b'.pair.role = .starting ∧ b'.flt.moduleLevel = false ∧ b'.hw.inService = false) ∧
    (b.aliveRuns = false → exec .aliveToggle s = .next (ends s s.mem b)) ∧
    (b.aliveRuns = true → (b.active = false ∨ b.flt.moduleRuns = false) → Leaves .aliveToggle s fun b' => b'.flt.aliveLevel = (!b.flt.aliveLevel) ∧
      b'.flt.moduleLevel = b.flt.moduleLevel) ∧
    (b.aliveRuns = true → b.active = true → b.flt.moduleRuns = true → Leaves .aliveToggle s fun b' => b'.flt.aliveLevel = (!b.flt.aliveLevel) ∧
      b'.flt.moduleLevel = (!b.flt.moduleLevel)))

/-- R39, R40, R479, R555, R560, R564 to R566, R569, R570, R573 and Table 13.6: what the blocks of the toggle link do. A
standby cannot tell the bytes of the LOG blocks it holds, so the CRC-32 that a COMMIT must name is a free word (log entry 4). -/
def Obligations.ToggleBlocks : Prop :=
  ∀ (s : State) (i : InboundItem) (ws : List LogWrite) (n : BitVec 32) (st : Word64) (k : Fin 4) (sq : Word32)
    (rq rp : List Byte) (fn : BitVec 16) (addr v : Word32) (d : DumpBlock) (e : StartFacts) (blocks : Nat) (crc : BitVec 32)
    (c : ConfigItem) (r : RoleMessage) (ks : KeySlot),
    let b := s.blade
    let a := b.blockArrives
    let done := fun i => exec i s = .next (ends s s.mem a)
    let sees := fun i => exec i s = .next (ends s s.mem (a.partnerFeeds 2 16 true))
    (b.linkRuns = false → ∀ j ∈ [Instr.inboundBlock i, .logBlock ws, .commitBlock n blocks crc, .ackBlock n, .configBlock c,
      .roleBlock r, .fatalBlock, .dumpBlock d, .idleBlock], exec j s = .next (ends s s.mem b)) ∧
    (b.linkRuns = true → b.armed 192 1 = true → ∀ j ∈ [Instr.inboundBlock i, .logBlock ws, .commitBlock n blocks crc,
      .ackBlock n, .configBlock c, .roleBlock r, .fatalBlock, .dumpBlock d, .idleBlock], Leaves j s fun b' =>
        b'.pair = b.pair ∧ (b'.source 192).remaining = (b.source 192).remaining - 1) ∧
    (b.linkRuns = true → b.armed 192 1 = false →
      (done .idleBlock ∧ (b.pair.duplex = .doubt → a.pair.duplex = .joined) ∧ (b.pair.duplex ≠ .doubt → a = b)) ∧
      (a.follows = false → done (.inboundBlock i) ∧ done (.logBlock ws) ∧ done (.commitBlock n blocks crc) ∧
        done (.configBlock (.write addr v)) ∧ done (.configBlock (.strike fn))) ∧
      (a.follows = false → done (.configBlock (.key k ks))) ∧
      (a.follows = true → exec (.configBlock (.key k ks)) s = .next (ends s s.mem (a.setKeySlot k.val ks))) ∧
      (a.follows = true →
        exec (.inboundBlock i) s = .next (ends s s.mem { a with pair.inbound := a.pair.inbound ++ [(a.frame, i)] }) ∧
        exec (.logBlock ws) s = .next (ends s s.mem { a with pair.log := a.pair.log ++ [ws] }) ∧
        (a.pair.duplex = .joining → a.pair.copyDone = false → done (.commitBlock n blocks crc)) ∧
        ((a.pair.duplex = .joined ∨ a.pair.copyDone = true) → ∃ w : Word32,
          (blocks ≠ a.pair.log.length ∨ crc ≠ w → Leaves (.commitBlock n blocks crc) s fun b' =>
            b'.pair = a.pair ∧ b'.outputs = a.outputs) ∧
          (blocks = a.pair.log.length → crc = w → Leaves (.commitBlock n blocks crc) s fun b' =>
            b'.pair.applying = a.pair.applying ++ a.pair.log ∧ b'.pair.log = [] ∧
            b'.pair.inbound = a.pair.inbound.filter (fun e => !frameLe e.1 n) ∧
            b'.pair.ackedFrame = n ∧ b'.reg (rTOGGLE + 8) = n ∧ b'.pair.duplex = .joined)) ∧
        exec (.configBlock (.strike fn)) s = .next (ends s s.mem (a.setStruck fn.toNat true)) ∧
        ((a.followWrite none addr.toNat v).1 = true →
          exec (.configBlock (.write addr v)) s = .next (ends s s.mem
            ((a.followWrite none addr.toNat v).2.partnerFeed addr.toNat v))) ∧
        ((a.followWrite none addr.toNat v).1 = false → Leaves (.configBlock (.write addr v)) s fun b' =>
          b'.pair.duplex = .unjoined)) ∧
      ((a.key k.val).last.toNat < sq.toNat → Leaves (.configBlock (.sequence k sq rq rp)) s fun b' =>
        (b'.key k.val).last = sq ∧ (b'.key k.val).request = rq ∧ (b'.key k.val).reply = rp ∧
        (b'.key k.val).floor = raiseFloor (a.key k.val).floor sq ∧ (b'.key k.val).key = (a.key k.val).key) ∧
      (sq.toNat ≤ (a.key k.val).last.toNat → done (.configBlock (.sequence k sq rq rp))) ∧
      ((a.active = false ∨ a.flt.fatal = true) → done (.ackBlock n)) ∧
      (a.active = true → a.flt.fatal = false →
        (a.pair.duplex = .joining → a.pair.copyDone = false → done (.ackBlock n)) ∧
        (a.pair.duplex = .joining → a.pair.copyDone = true → Leaves (.ackBlock n) s fun b' => b'.pair.duplex = .joined) ∧
        (a.pair.duplex ≠ .joining →
          ((∀ f ∈ a.pair.unreleased.take a.pair.commitsSent, f.1 ≠ n) → done (.ackBlock n)) ∧
          (a.joined = true → a.pair.unreleased = [(n, st)] → a.pair.commitsSent = 1 → a.led.trail = [] →
            a.journalFits n = true → a.pair.handingOver = none → Leaves (.ackBlock n) s fun b' =>
              b'.pair.unreleased = [] ∧ b'.pair.commitsSent = 0 ∧ b'.reg (rTOGGLE + 8) = n))) ∧
      (done (.roleBlock .claimIntent) ∧ sees (.roleBlock (.startup false)) ∧
        (a.pair.role = .starting → a.hw.waitingPartner = true → a.hw.startFacts = some e → a.bladeB = true →
          Leaves (.roleBlock (.startup true)) s fun b' => b'.pair.role = .standby ∧ b'.pair.duplex = .unjoined) ∧
        (a.hw.waitingPartner = false → sees (.roleBlock (.startup true))) ∧
        (a.active = true → (a.joined = true ∨ a.pair.duplex = .joining) → Leaves (.roleBlock .unjoined) s fun b' =>
          b'.pair.duplex = .solo) ∧
        (a.active = false → a.follows = false → done (.roleBlock .unjoined)) ∧
        (a.follows = true → Leaves (.roleBlock .unjoined) s fun b' => b'.pair.duplex = .unjoined) ∧
        ∀ j ∈ [Instr.roleBlock .handover, .fatalBlock],
          (a.isStandby = false ∨ a.joined = false → done j) ∧
          (a.isStandby = true → a.joined = true → Leaves j s fun b' => b'.pair.detected = true ∧ b'.pair.log = [] ∧
            b'.pair.claim = (a.pair.claim || !a.partnerClaims) ∧
            b'.pair.role = if a.partnerClaims then .standby else .active)) ∧
      (a.active = false →
        exec (.dumpBlock d) s = .next (ends s s.mem { a with flt.partnerDumps := a.flt.partnerDumps ++ [d] })) ∧
      (a.active = true → exec (.dumpBlock d) s =
        .next (ends s s.mem (a.writeDump d (if a.frozeActive d then some a.pair.ackedFrame else none)))))

/-- R22 to R24, R556, R562 and R567 to R576: doubt, late acknowledgements, the alignment of ticks, the
partner's ALIVE and claim, and the muxes. -/
def Obligations.PairEvents : Prop :=
  ∀ (s : State) (skew : Int) (x : MuxId) (e : Bool) (d : Deferred),
    let b := s.blade
    let p := b.pair
    let still := fun i => exec i s = .next (ends s s.mem b)
    let solo := fun b' : Blade => b'.pair.duplex = .solo ∧ b'.pair.commitsSent = 0
    let late : Bool := b.active && b.joined && !b.flt.fenced && !p.unreleased.isEmpty
    let n := muxNo x
    let own : Bool := p.claim && !b.flt.fenced && decide (4 ≤ b.hw.startStep.toNat) && !(b.source 290).sticky
    let other : Bool := p.partnerClaim && p.partnerAlive
    let seen : Bool := p.partnerClaim && (p.partnerAlive || e)
    let claimA := if b.bladeB then seen else own
    let claimB := if b.bladeB then own else seen
    let keeps := exec (.muxSample ⟨x, e⟩) s = .next (ends s s.mem (if e then b.aliveSeen else b))
    ((p.duplex ≠ .joined ∨ b.flt.fenced = true ∨ b.struck fnToggle = true) → still .toggleSilence) ∧
    (p.duplex = .joined → b.flt.fenced = false → b.struck fnToggle = false →
      ((b.active = false ∨ p.partnerAlive = true) → Leaves .toggleSilence s fun b' => b'.pair.duplex = .doubt ∧
        b'.pair.doubtFrames = 0) ∧
      (b.active = true → p.partnerAlive = false → Leaves .toggleSilence s solo)) ∧
    ((b.isStandby = false ∨ p.duplex ≠ .doubt ∨ other = false ∨ p.doubtFrames < b.field rTOGGLE 8 8) →
      still .sbDoubtExpiry) ∧
    (b.isStandby = true → p.duplex = .doubt → other = true → b.field rTOGGLE 8 8 ≤ p.doubtFrames →
      Leaves .sbDoubtExpiry s fun b' => b'.pair.duplex = .unjoined ∧ b'.pair.log = [] ∧ b'.pair.applying = []) ∧
    ((b.active = false ∨ p.duplex ≠ .doubt ∨ p.doubtFrames < b.field rTOGGLE 16 8) → still .actDoubtExpiry) ∧
    (b.active = true → p.duplex = .doubt → b.field rTOGGLE 16 8 ≤ p.doubtFrames → Leaves .actDoubtExpiry s solo) ∧
    exec .commitTimeout s = .next (ends s s.mem (if late then (b.count (rTOGGLE + 0x24)).raise 195 else b)) ∧
    ((b.isStandby = false ∨ b.flt.fenced = true) → still (.tickAlign skew)) ∧
    (b.isStandby = true → b.flt.fenced = false →
      (skew.natAbs ≤ 20 → Leaves (.tickAlign skew) s fun b' => b'.pair.misaligned = 0 ∧ b'.pair.duplex = p.duplex) ∧
      (20 < skew.natAbs → (p.misaligned < 3 ∨ (b.joined = false ∧ p.duplex ≠ .joining)) →
        Leaves (.tickAlign skew) s fun b' => b'.pair.misaligned = p.misaligned + 1 ∧ b'.pair.duplex = p.duplex) ∧
      (20 < skew.natAbs → 3 ≤ p.misaligned → (b.joined = true ∨ p.duplex = .joining) → Leaves (.tickAlign skew) s fun b' =>
        b'.pair.misaligned = 0 ∧ b'.pair.duplex = .unjoined)) ∧
    (b.active = true →
      (p.duplex = .doubt → Leaves .partnerAliveLoss s fun b' => solo b' ∧ b'.pair.partnerAlive = false) ∧
      (p.duplex ≠ .doubt → other = true → b.flt.fenced = false → Leaves .partnerAliveLoss s fun b' =>
        b'.pair.partnerAlive = false ∧ b'.pair.claim = true) ∧
      (p.duplex ≠ .doubt → other = false → Leaves .partnerAliveLoss s fun b' => b'.pair.partnerAlive = false ∧
        b'.pair.claim = p.claim)) ∧
    (b.isStandby = true →
      (b.joined = true → Leaves .partnerAliveLoss s fun b' => b'.pair.partnerAlive = false ∧ b'.pair.detected = true ∧
        b'.pair.claim = true ∧ b'.pair.role = .active ∧ b'.pair.duplex = .solo ∧ b'.pair.log = []) ∧
      (b.joined = false → other = true → b.flt.fenced = false → p.handingOver = none → ∃ (m' : Memory) (b' : Blade),
        exec .partnerAliveLoss s = .next (ends s m' b') ∧ b'.pair.role = .active ∧ b'.pair.claim = true) ∧
      (b.joined = false → other = false → Leaves .partnerAliveLoss s fun b' => b'.pair.partnerAlive = false ∧
        b'.pair.role = p.role)) ∧
    (p.claim = true → b.bladeB = true → b.active = true → Leaves (.claimLineChange true) s fun b' =>
      b'.pair.partnerClaim = true ∧ b'.pair.claim = false ∧ b'.pair.role = .standby ∧ b'.pair.duplex = .unjoined ∧
      b'.flt.moduleLevel = false ∧ b'.pair.partnerAlive = p.partnerAlive) ∧
    ((p.claim = false ∨ b.bladeB = false) → b.active = true → Leaves (.claimLineChange true) s fun b' =>
      b'.pair.partnerClaim = true ∧ b'.pair.partnerAlive = p.partnerAlive ∧ b'.pair.claim = p.claim ∧
      b'.pair.role = p.role) ∧
    (b.isStandby = true → b.joined = false →
      (p.handingOver = none → Leaves (.claimLineChange true) s fun b' => b'.pair.partnerClaim = true ∧
        b'.pair.partnerAlive = p.partnerAlive ∧ b'.pair.role = p.role) ∧
      (p.handingOver = some d → d.data = [0] → Leaves (.claimLineChange true) s fun b' => b'.pair.handingOver = none ∧
        b'.pair.role = p.role)) ∧
    (other = false → Leaves (.claimLineChange false) s fun b' => b'.pair.partnerClaim = false ∧ b'.pair.claim = p.claim) ∧
    (other = true → b.flt.fenced = false →
      (b.active = true → Leaves (.claimLineChange false) s fun b' => b'.pair.partnerClaim = false ∧ b'.pair.claim = true) ∧
      (b.isStandby = true → b.joined = true → Leaves (.claimLineChange false) s fun b' => b'.pair.partnerClaim = false ∧
        b'.pair.detected = true ∧ b'.pair.claim = true ∧ b'.pair.role = .active)) ∧
    Leaves (.muxSample ⟨x, e⟩) s (fun b' => b'.pair.partnerAlive = (p.partnerAlive || e)) ∧
    (p.muxChosen.contains n = false →
      (claimA = true → Leaves (.muxSample ⟨x, e⟩) s fun b' => b'.pair.muxChosen = p.muxChosen ++ [n] ∧
        b'.pair.muxB = p.muxB) ∧
      (claimA = false → claimB = true → Leaves (.muxSample ⟨x, e⟩) s fun b' => b'.pair.muxChosen = p.muxChosen ++ [n] ∧
        b'.pair.muxB = p.muxB ++ [n]) ∧
      (claimA = false → claimB = false → keeps)) ∧
    (p.muxChosen.contains n = true →
      (p.muxB.contains n = true → claimB = false → claimA = true → Leaves (.muxSample ⟨x, e⟩) s fun b' =>
        b'.pair.muxB = p.muxB.filter (· ≠ n)) ∧
      (p.muxB.contains n = true → (claimB = true ∨ claimA = false) → keeps) ∧
      (p.muxB.contains n = false → claimA = false → claimB = true → Leaves (.muxSample ⟨x, e⟩) s fun b' =>
        b'.pair.muxB = p.muxB ++ [n]) ∧
      (p.muxB.contains n = false → (claimA = true ∨ claimB = false) → keeps))

/-- R555 to R559, R574, R575, R605 and Tables 13.2 and 14.1: joining, its retry, taking over, and the waits of start-up. What
the copy of a join brings is free (log entry 32). -/
def Obligations.JoinEvents : Prop :=
  ∀ (s : State) (f : PairFacts) (e : StartFacts),
    let b := s.blade
    let p := b.pair
    let still := fun i => exec i s = .next (ends s s.mem b)
    let takes : Bool := decide (p.role = .active) && p.detected && p.claim && !b.flt.fenced
    let yields := fun (i : Instr) (P : Blade → Prop) => ∃ (m' : Memory) (b' : Blade), exec i s = .next (ends s m' b') ∧ P b'
    (b.mirrors = true → b.flt.fenced = false → exec (.join f) s = .next (ends s s.mem b.relink) ∧
      b.relink.pair.duplex = p.duplex) ∧
    (b.mayJoin = false → (b.mirrors = false ∨ b.flt.fenced = true) → still (.join f)) ∧
    (b.mayJoin = true →
      (b.matchesPartner f = true → yields (.join f) fun b' => b'.pair.duplex = .joining ∧ b'.pair.copyDone = false ∧
        (b.armed 192 2 = false → b'.pair.lock = true) ∧ (b.isStandby = false → b'.frame = b.frame)) ∧
      (b.matchesPartner f = false → Leaves (.join f) s fun b' => b'.pair.duplex = p.duplex ∧
        (b.armed 192 2 = false → b'.pair.lock = true))) ∧
    ((p.joinRetry = false ∨ b.mayJoin = false ∨ p.lock = false) → still .joinRetry) ∧
    (p.joinRetry = true → b.mayJoin = true → p.lock = true →
      (∀ v, p.partnerFacts = some v → b.matchesPartner v = true → yields .joinRetry fun b' =>
        b'.pair.duplex = .joining ∧ b'.pair.joinRetry = false) ∧
      ((∀ v, p.partnerFacts = some v → b.matchesPartner v = false) → Leaves .joinRetry s fun b' =>
        b'.pair.duplex = p.duplex ∧ b'.pair.joinRetry = false)) ∧
    ((p.duplex ≠ .joining ∨ p.copyDone = true) → still .joinComplete) ∧
    (p.duplex = .joining → p.copyDone = false →
      (b.isStandby = false → exec .joinComplete s = .next (ends s s.mem { b with pair.copyDone := true })) ∧
      (b.isStandby = true → yields .joinComplete fun b' => b'.pair.copyDone = true ∧ b'.pair.log = [] ∧
        b'.pair.role = .standby)) ∧
    (p.duplex ≠ .joining → still .joinTimeout) ∧
    (p.duplex = .joining → Leaves .joinTimeout s fun b' => b'.pair.joinRetry = true ∧ b'.pair.copyDone = false ∧
      b'.pair.duplex = if b.isStandby then .unjoined else .solo) ∧
    (takes = false → still .takeover) ∧
    (takes = true → yields .takeover fun b' => b'.pair.role = .active ∧ b'.pair.duplex = .solo ∧ b'.pair.detected = false ∧
      b'.pair.inbound = [] ∧ b'.hw.startStep = 11 ∧ b'.hw.inService = true) ∧
    ((b.hw.startFacts = none ∨ b.hw.waitingPartner = false) → still .partnerWaitTimeout) ∧
    (b.hw.startFacts = some e → b.hw.waitingPartner = true →
      (e.carriersReady = 0 → Leaves .partnerWaitTimeout s fun b' => b'.pair.role = .active ∧ b'.hw.startStep = 9 ∧
        b'.hw.startFacts = some e ∧ b'.hw.waitingPartner = false) ∧
      (e.carriersReady ≠ 0 → yields .partnerWaitTimeout fun b' => b'.pair.role = .active ∧ b'.hw.startStep = 11 ∧
        b'.hw.inService = true ∧ b'.hw.startFacts = none)) ∧
    ((b.hw.startFacts = none ∨ b.active = false ∨ b.hw.startStep ≠ 9) → still .carrierReadyTimeout) ∧
    (b.hw.startFacts = some e → b.active = true → b.hw.startStep = 9 → yields .carrierReadyTimeout fun b' =>
      b'.hw.startStep = 11 ∧ b'.hw.inService = true ∧ b'.hw.startFacts = none ∧ b'.pair.role = .active)

/-- R576, R610 and R613: FAILOVER, BLADE_RESET and its form for the fabric. A standby that is asked to reset the active blade
takes over first: the model's reading (log entry 27). -/
def Obligations.RoleCommands : Prop :=
  ∀ (s : State) (r : Request),
    let o := (began s r).disarm .command
    let p := (began s r).disarm .command
    let d := replyTo s r
    let g := replyTo s r
    let blade := rqField r 0 1
    let type := rqField r 1 1
    let own : Nat := if p.bladeB then 1 else 0
    let asks := fun (o b' : Blade) (d : ReplyTo) (kind : Byte) =>
      b'.pair.handingOver = some { dest := d, operand := o.frame.toNat, data := [kind] }
    (Admitted s 0x50 false r → r.length = 0 →
      (¬Armed s r → exec (.failover r) s = .next (replied s r 5 [])) ∧
      (Armed s r → HasRoom s 0x50 r →
        ((o.pair.duplex = .joining ∨ o.pair.handingOver ≠ none) →
          exec (.failover r) s = .next (ends s s.mem (o.answer d 7))) ∧
        (o.pair.handingOver = none → o.pair.duplex ≠ .joining → o.pair.duplex ≠ .joined →
          exec (.failover r) s = .next (ends s s.mem (o.answer d 0xD))) ∧
        (o.pair.handingOver = none → o.pair.duplex = .joined → Leaves (.failover r) s fun b' => asks o b' d 0 ∧
          b'.eng.deferred = o.eng.deferred ++ [{ dest := d, operand := o.frame.toNat, data := [] }] ∧
          b'.pair.role = o.pair.role ∧ b'.outputs = o.outputs))) ∧
    ∀ i ∈ [Instr.bladeReset r, .bladeResetFabric r], Admitted s 0x53 true r → r.length = 4 →
      (¬Armed s r → exec i s = .next (replied s r 5 [])) ∧
      (Armed s r →
        ((1 < blade ∨ type = 0 ∨ 2 < type) → exec i s = .next (ends s s.mem (p.answer g 9))) ∧
        (blade ≤ 1 → (type = 1 ∨ type = 2) →
          (blade = own → p.active = true →
            ((p.pair.duplex ≠ .joined ∨ p.pair.handingOver ≠ none) →
              exec i s = .next (ends s s.mem (p.answer g 0xD))) ∧
            (p.pair.duplex = .joined → p.pair.handingOver = none → Leaves i s fun b' => asks p b' g (.ofNat 8 type))) ∧
          (blade = own → p.active = false → type = 1 → ∃ (m' : Memory) (b' : Blade), exec i s = .next (ends s m' b') ∧
            b'.hw.resetType = 1 ∧ b'.hw.resetCause = 1) ∧
          (blade = own → p.active = false → type = 2 → p.hw.startFailed = false → p.flt.fenced = false → ∃ (m' : Memory) (b' : Blade), exec i s = .next (ends s m' b') ∧
            b'.hw.resetType = 2 ∧ b'.hw.resetCause = 1) ∧
          (blade ≠ own →
            (p.pair.partnerPresent = false → exec i s = .next (ends s s.mem (p.answer g 9))) ∧
            (p.pair.partnerPresent = true →
              (p.partnerClaims = true → p.joined = false → exec i s = .next (ends s s.mem (p.answer g 0xD))) ∧
              (p.partnerClaims = true → p.joined = true → p.pair.handingOver = none →
                (type = 1 ∨ p.linkRuns = true) → Leaves i s fun b' => asks p b' g (if type = 1 then 4 else 5)) ∧
              (p.partnerClaims = true → p.joined = true →
                (p.pair.handingOver ≠ none ∨ (type = 2 ∧ p.linkRuns = false)) →
                exec i s = .next (ends s s.mem (p.answer g 0xD))) ∧
              (p.partnerClaims = false → type = 1 →
                exec i s = .next (ends s s.mem ((p.out .resetPulse).answer g 0))) ∧
              (p.partnerClaims = false → type = 2 →
                exec i s = .next (ends s s.mem (if p.linkRuns = true ∧ p.pair.partnerAlive = true then
                  (p.sendBlock 6 p.frame).answer g 0 else p.answer g 0xD)))))))

/-- R551, R555, R556, R594 to R613, Tables 14.1 and 14.6: the resets, and where start-up stops, waits and ends. What a reset
without results of its own finds is free (log entry 4). -/
def Obligations.ResetEvents : Prop :=
  ∀ (s : State) (e : StartFacts),
    let b := s.blade
    let on := Instr.powerOnReset e
    let fails := fun c : BitVec 5 => ∃ b' : Blade, exec on s = .next (ends s Memory.cleared b') ∧ b'.hw.startFailed = true ∧
      b'.hw.startCause = c ∧ b'.flt.fenced = true ∧ b'.pair.role = .starting
    let rests := fun P : Blade → Prop => ∃ b' : Blade, exec on s = .next (ends s Memory.cleared b') ∧ P b'
    let again := fun (i : Instr) (type : BitVec 2) (cause : BitVec 3) => ∃ (m' : Memory) (b' : Blade),
      exec i s = .next (ends s m' b') ∧ b'.hw.resetType = type ∧ b'.hw.resetCause = cause
    let tiles := ((List.range 34).filter e.tilePasses.getLsbD).length
    let boots : Bool := b.slotGood 0 || b.slotGood 1
    let tested : Prop := e.dramFirmwareOk = true ∧ boots = true ∧ 32 ≤ tiles ∧ e.marchWords = [] ∧ e.dramRestOk = true
    let same : Bool := e.partnerPresent && decide (e.partnerSysId = 0x8128F001)
    let differs : Bool := e.partnerPresent && decide (e.partnerSysId ≠ 0x8128F001)
    (e.dramFirmwareOk = false → fails 1) ∧
    (e.dramFirmwareOk = true → boots = false → fails 2) ∧
    (e.dramFirmwareOk = true → boots = true → tiles < 32 → fails 3) ∧
    (e.dramFirmwareOk = true → boots = true → 32 ≤ tiles → e.marchWords = [] → e.dramRestOk = false → fails 1) ∧
    (tested → differs = true → (e.partnerActive = true ∨ e.bladeB = true) → fails 4) ∧
    (tested → same = true →
      (e.partnerAlive = true → (e.partnerActive = true ∨ (e.partnerComplete = true ∧ e.bladeB = true)) →
        rests fun b' => b'.pair.role = .standby ∧ b'.pair.duplex = .unjoined ∧ b'.pair.claim = false ∧
          b'.hw.startStep = 8) ∧
      ((e.partnerAlive = false ∨ e.partnerActive = false) → e.partnerComplete = false → rests fun b' =>
        b'.pair.role = .starting ∧ b'.hw.waitingPartner = true ∧ b'.hw.startFacts = some e ∧ b'.hw.startStep = 8)) ∧
    (tested → (e.partnerPresent = false ∨ (differs = true ∧ e.partnerActive = false ∧ e.bladeB = false) ∨
        (same = true ∧ (e.partnerAlive = false ∨ e.partnerActive = false) ∧ e.partnerComplete = true ∧
          (e.partnerAlive = false ∨ e.bladeB = false))) →
      (e.carriersReady = 0 → rests fun b' => b'.pair.role = .active ∧ b'.pair.duplex = .solo ∧ b'.hw.startStep = 9 ∧
        b'.hw.startFacts = some e) ∧
      (e.carriersReady ≠ 0 → ∃ (m' : Memory) (b' : Blade), exec on s = .next (ends s m' b') ∧ b'.pair.role = .active ∧
        b'.hw.startStep = 11 ∧ b'.hw.inService = true ∧ b'.hw.resetType = 0 ∧ b'.bladeB = e.bladeB)) ∧
    again .resetPulse 1 2 ∧
    (b.hw.startFailed = false → b.flt.fenced = false → again .fabricReset 2 4) ∧
    ((b.hw.startFailed = true ∨ b.flt.fenced = true) → exec .fabricReset s = .next (ends s s.mem b)) ∧
    ((b.flt.fenced = false ∨ b.flt.soloFence = false ∨ b.flag 0x02013000 0 = false) →
      exec .soloRestart s = .next (ends s s.mem b)) ∧
    (b.flt.fenced = true → b.flt.soloFence = true → b.flag 0x02013000 0 = true → again .soloRestart 1 3) ∧
    Leaves .powerLoss s fun b' => b'.flt.frozen = true ∧ (b.flt.frozen = false → b'.flt.cause = 4) ∧
      b'.pair.role = .starting ∧ b'.hw.startStep = 1 ∧ b'.hw.domainsOn = 0x100000000 ∧ b'.hw.inService = false

/-- R587, R588 and Table 13.12: FRU_PREPARE and FRU_RESUME of each kind of FRU, by the model's numbering (log entry 25):
blades 0 and 1, port cards 2 to 9, carriers 10 and 11, supplies 12 and 13, fans 14 to 17. -/
def Obligations.FruCommands : Prop :=
  ∀ (s : State) (r : Request),
    let n := rqField r 0 1
    let o := began s r
    let p := began s r
    let d := replyTo s r
    let g := replyTo s r
    let own : Nat := if o.bladeB then 1 else 0
    let out := fun (feed : Option Nat) => Leaves (.fruPrepare r) s fun b' => b'.fru n = .prepared ∧
      ∀ k, feed = some k → (b'.feed k).command = false
    let waits := fun (feed : Option Nat) => Leaves (.fruResume r) s fun b' => b'.fru n = .present ∧
      b'.hw.fruPending = some { dest := g, operand := n, data := [] } ∧ ∀ k, feed = some k → (b'.feed k).command = true
    (Admitted s 0x51 false r → r.length = 4 → HasRoom s 0x51 r →
      (18 ≤ n ∨ o.fru n = .absent → exec (.fruPrepare r) s = .next (replied s r 9 [])) ∧
      (n < 18 → o.fru n ≠ .absent → o.fruBusy = true → exec (.fruPrepare r) s = .next (replied s r 7 [])) ∧
      (n < 18 → o.fru n ≠ .absent → o.fruBusy = false →
        (n = own →
          (o.pair.handingOver ≠ none → exec (.fruPrepare r) s = .next (replied s r 7 [])) ∧
          (o.pair.handingOver = none → o.pair.duplex ≠ .joined →
            exec (.fruPrepare r) s = .next (replied s r 0xD [])) ∧
          (o.pair.handingOver = none → o.pair.duplex = .joined → Leaves (.fruPrepare r) s fun b' =>
            b'.pair.handingOver = some { dest := d, operand := o.frame.toNat, data := [3] } ∧
            b'.eng.deferred = o.eng.deferred ++ [{ dest := d, operand := n, data := [] }])) ∧
        (n < 2 → n ≠ own → out (some n)) ∧
        (2 ≤ n → n < 10 → out (some n)) ∧
        (10 ≤ n → n < 12 →
          ((o.carrier (11 - n)).state ≠ .inService → exec (.fruPrepare r) s = .next (replied s r 0xD [])) ∧
          ((o.carrier (11 - n)).state = .inService →
            ((o.carrierTakes (n - 10) = false ∨ ∀ x ∈ o.hw.blocks, x.done.getLsbD (n - 10) = true) → out (some n)) ∧
            (o.carrierTakes (n - 10) = true → (∃ x ∈ o.hw.blocks, x.done.getLsbD (n - 10) = false) →
              Leaves (.fruPrepare r) s fun b' => (b'.carrier (n - 10)).state = .off ∧
                (b'.feed n).command = (o.feed n).command ∧ ∃ k : Fin 2, k.val = n - 10 ∧
                b'.hw.leaving = some (k, o.hw.blocks.filter (fun x => !x.done.getLsbD (n - 10)), d)))) ∧
        (12 ≤ n → n < 14 →
          (o.otherSupplyBad (n - 12) = true → exec (.fruPrepare r) s = .next (replied s r 0xD [])) ∧
          (o.otherSupplyBad (n - 12) = false → out none)) ∧
        (14 ≤ n →
          (o.fansRunning < 4 → exec (.fruPrepare r) s = .next (replied s r 0xD [])) ∧
          (4 ≤ o.fansRunning → out (some (n - 2)))))) ∧
    (Admitted s 0x52 false r → r.length = 4 → HasRoom s 0x52 r →
      (18 ≤ n ∨ p.fru n = .absent → exec (.fruResume r) s = .next (replied s r 9 [])) ∧
      (n < 18 → p.fru n = .inService → exec (.fruResume r) s = .next (replied s r 0 [])) ∧
      (n < 18 → p.fru n ≠ .absent → p.fru n ≠ .inService →
        (n < 10 → waits (some n)) ∧
        (n = 12 ∨ n = 13 → waits none) ∧
        (14 ≤ n → waits (some (n - 2))) ∧
        (n = 10 ∨ n = 11 →
          ((p.carrier (n - 10)).capacity ≠ 0 → (p.carrier (n - 10)).capacity.toNat < 256 → Leaves (.fruResume r) s fun b' => b'.fru n = .failed ∧
            b'.hw.fruPending = none ∧ (b'.feed n).command = false ∧ (b'.carrier (n - 10)).state = .off) ∧
          (256 ≤ (p.carrier (n - 10)).capacity.toNat → (p.carrier (11 - n)).state ≠ .inService →
            Leaves (.fruResume r) s fun b' => b'.fru n = .inService ∧ b'.hw.fruPending = none ∧
              (b'.carrier (n - 10)).state = .inService) ∧
          (256 ≤ (p.carrier (n - 10)).capacity.toNat → (p.carrier (11 - n)).state = .inService →
            Leaves (.fruResume r) s fun b' => (∃ k, b'.hw.resilvering = some k ∧ k.val = n - 10) ∧
              (b'.carrier (n - 10)).state = .resilvering ∧
              b'.hw.fruPending = some { dest := g, operand := n, data := [] }))))

/-- R583 to R588, R618, R619 and Table 12.3: FRUs that come and go, feeds, carriers and midplane links. -/
def Obligations.FruEvents : Prop :=
  ∀ (s : State) (n : Fin 18) (k : Fin 16) (c : ClusterId) (j : Fin 2) (x : JournalBlock) (h : Fin 16) (q : StagedRecord)
    (rest : List JournalBlock) (d : ReplyTo),
    let b := s.blade
    let f := b.feed k.val
    let y := b.carrier j.val
    let still := fun i => exec i s = .next (ends s s.mem b)
    let served : Prop := y.state = .inService ∨ y.state = .resilvering
    (b.flt.fenced = true → still (.midplaneLink c) ∧ still (.midplaneLinkLock c) ∧
      ∀ v : Bool, Leaves (.fruPresenceChange n v) s fun b' => b'.fru n.val =
        (if v = decide (b.fru n.val ≠ .absent) then b.fru n.val else if v then .present else .absent) ∧
        b'.outputs = b.outputs) ∧
    (b.flt.fenced = false →
      (Leaves (.fruPresenceChange n true) s fun b' =>
        b'.fru n.val = (if b.fru n.val = .absent then .present else b.fru n.val) ∧
        ∀ k, fruFeed n.val = some k → (b'.feed k).present = true ∧ (b'.feed k).command = (b.feed k).command) ∧
      (Leaves (.fruPresenceChange n false) s fun b' =>
        b'.fru n.val = (if (n.val = 12 ∨ n.val = 13) ∧ b.fru n.val = .prepared then .prepared else .absent) ∧
        ∀ k, fruFeed n.val = some k → (b'.feed k).present = false ∧ (b'.feed k).command = false) ∧
      ((b.hw.cards.getLsbD c.val = false ∨ (b.cluster c.val).linkLost = true) → still (.midplaneLink c)) ∧
      (b.hw.cards.getLsbD c.val = true → (b.cluster c.val).linkLost = false → Leaves (.midplaneLink c) s fun b' =>
        (b'.cluster c.val).linkLost = true ∧ (b'.port (16 * c.val + h.val)).state = 0 ∧
        (b'.port (16 * c.val + h.val)).lock = false) ∧
      ((b.hw.cards.getLsbD c.val = false ∨ (b.feed (2 + c.val)).on = false) → still (.midplaneLinkLock c)) ∧
      (b.hw.cards.getLsbD c.val = true → (b.feed (2 + c.val)).on = true → b.resuming (2 + c.val) = none →
        Leaves (.midplaneLinkLock c) s fun b' => (b'.cluster c.val).linkLost = false ∧
          (b'.source (srcMidplane c.val)).cause = false)) ∧
    ((f.on = false ∨ f.present = false) → still (.feedTrip k)) ∧
    (f.on = true → f.present = true → Leaves (.feedTrip k) s fun b' => b'.feed k.val = { f with tripped := true } ∧
      (b'.feed k.val).on = false) ∧
    ((f.tripped = false ∨ f.command = true ∨ f.partnerCommand = true) → still (.feedRearm k)) ∧
    (f.tripped = true → f.command = false → f.partnerCommand = false → Leaves (.feedRearm k) s fun b' =>
      b'.feed k.val = { f with tripped := false }) ∧
    ((b.active = false ∨ b.flt.fenced = true ∨ (b.hw.leaving = none ∧ ¬served ∧ y.state ≠ .starting)) →
      still (.carrierCommandTimeout j)) ∧
    (b.active = true → b.flt.fenced = false → b.hw.leaving = none → (served ∨ y.state = .starting) →
      Leaves (.carrierCommandTimeout j) s fun b' =>
        (b'.carrier j.val).state = .failed ∧ b'.fru (10 + j.val) = .failed) ∧
    (b.hw.leaving = some (j, x :: rest, d) → b.flt.fenced = false →
      (b.active = true → Leaves (.carrierCommandTimeout j) s fun b' => b'.hw.leaving = none ∧
        b'.fru (10 + j.val) = .prepared ∧ (b'.feed (10 + j.val)).command = false) ∧
      Leaves (.journalWriteComplete j) s fun b' => (b'.carrier j.val).written = y.written + 1 ∧
        (rest ≠ [] → b'.hw.leaving = some (j, rest, d) ∧ b'.fru (10 + j.val) = b.fru (10 + j.val)) ∧
        (rest = [] → b'.hw.leaving = none ∧ b'.fru (10 + j.val) = .prepared ∧ (b'.feed (10 + j.val)).command = false)) ∧
    (b.hw.leaving = none → (b.active = false ∨ b.flt.fenced = true ∨ b.flag rJRNL 0 = false ∨ b.struck fnJournal = true ∨ ¬served ∨
        ∀ y ∈ b.hw.blocks, y.done.getLsbD j.val = true) → still (.journalWriteComplete j)) ∧
    (b.hw.leaving = none → b.active = true → b.flt.fenced = false → b.flag rJRNL 0 = true → b.struck fnJournal = false → served →
      b.hw.blocks = [x] → x.done.getLsbD j.val = false → Leaves (.journalWriteComplete j) s fun b' =>
        (b'.carrier j.val).written = y.written + 1 ∧
        b'.outputs = b.outputs ++ [.carrierWrite j (4096 * x.seq.toNat % 200000000000) x.bytes] ∧
        ((x.done.getLsbD (1 - j.val) = true ∨ b.carrierTakes (1 - j.val) = false) → b'.hw.blocks = [] ∧
          (b.hw.journal = [q] → q.block = x.seq → b'.reg (rJRNL + 0x18) = q.frame)) ∧
        (x.done.getLsbD (1 - j.val) = false → b.carrierTakes (1 - j.val) = true →
          b'.hw.blocks.length = 1)) ∧
    (b.hw.resilvering ≠ some j → still (.resilverComplete j)) ∧
    (b.hw.resilvering = some j → Leaves (.resilverComplete j) s fun b' => b'.hw.resilvering = none ∧
      (b'.carrier j.val).state = .inService ∧ b'.fru (10 + j.val) = .inService)

/-- R219 to R221, R236, R488, R576, R610 and R611: MFS, MTS, SEM_ACQ, SEM_REL, FAILOVER and both forms of BLADE_RESET complete, and
what they leave. FAILOVER of a joined pair is carried out when the frame it was asked for in is acknowledged: the blade
then gives up its claim and its role, and its command is answered once the partner claims. -/
def Obligations.SystemFormsComplete : Prop :=
  (∀ (s : State) (t : TileId) (f : Firing) (rd ra rb : RegNo) (imm : BitVec 16), Issues s t f →
    let b := fetchedBlade s t f
    let x := b.sem (f.reg ra).toNat
    let mine : Bool := x.held && x.cls = 0 && x.unit = 0 && x.context = f.context
    let fits : Bool := mine && decide ((f.reg rb).toNat % 2 ^ 16 = x.generation.toNat)
    let owns : Prop := (f.reg ra).toNat < 1024 ∧ b.flag (rATOM + 0x100 + 4 * ((f.reg ra).toNat / 32)) 0 = true
    let done := fun (v : Word64) (u : State) => ∃ b' : Blade,
      u = ends s (fetchedMem s t f) (b'.putFiring t (wrote f rd v false)) ∧ b'.net = b.net ∧ b'.led = b.led
    (imm.toNat < 12 → RunsTo s t f (.mfs t rd 0 imm) fun u => ∃ v, done v u) ∧
    (f.bad ra = false → imm.toNat < 2 → (imm = 1 → (f.reg ra).toNat % 8 < 5) →
      Runs s t f (.mts t 0 ra imm) (.next (issued s t f (if imm = 0
        then { f with fps := (f.reg ra).setWidth 5, pc := f.pc + 4, executed := f.executed + 1 }
        else { f with fcr := (f.reg ra).setWidth 3, pc := f.pc + 4, executed := f.executed + 1 })))) ∧
    (f.bad ra = false → owns → RunsTo s t f (.semAcq t rd ra 0 0 0) fun u =>
      done (if x.held = true ∧ mine = false then 0 else .ofNat 64 (1 + x.generation.toNat * 2 ^ 16)) u) ∧
    (f.bad ra = false → f.bad rb = false → owns → RunsTo s t f (.semRel t rd ra rb 0 0) fun u =>
      done (if fits then 1 else 0) u)) ∧
  (∀ (s : State) (r : Request) (n : BitVec 32) (st : Word64) (d : Deferred),
    let b := s.blade
    let o := (began s r).disarm .command
    let g := o.answer (replyTo s r) 0
    (Admitted s 0x50 false r → r.length = 0 → Armed s r → HasRoom s 0x50 r → o.pair.duplex = .joined →
      o.pair.handingOver = none → exec (.failover r) s =
        .next (ends s s.mem { o.defer (replyTo s r) o.frame.toNat with
          pair.handingOver := some (Deferred.mk (replyTo s r) o.frame.toNat [0]) })) ∧
    (b.linkRuns = true → b.armed 192 1 = false → b.active = true → b.flt.fatal = false → b.pair.duplex = .joined →
      b.pair.unreleased = [(n, st)] → b.pair.commitsSent = 1 → b.led.trail = [] → b.journalFits n = true →
      b.pair.handingOver = some d → d.operand = n.toNat → b.frame ≠ n → Leaves (.ackBlock n) s fun b' =>
        b'.pair.role = .standby ∧ b'.pair.claim = false ∧ b'.pair.duplex = .unjoined ∧ b'.flt.frozen = true ∧
        b'.flt.moduleLevel = false ∧ b'.hw.inService = false ∧ b'.pair.handingOver = some d) ∧
    (b.isStandby = true → b.joined = false → b.pair.handingOver = some d → d.data = [0] →
      exec (.claimLineChange true) s = .next (ends s s.mem
        (({ b with pair.partnerClaim := true, pair.handingOver := none } : Blade).answerDone d.dest 0))) ∧
    (Admitted s 0x53 true r → r.length = 4 → Armed s r → rqField r 0 1 = (if o.bladeB then 1 else 0) → o.active = false →
      ∀ i ∈ [Instr.bladeReset r, .bladeResetFabric r],
        (rqField r 1 1 = 1 → exec i s = .next (ends s (g.resetBlade 1).1 (g.resetBlade 1).2)) ∧
        (rqField r 1 1 = 2 → exec i s = .next (ends s (g.resetFabric s.mem 1).1 (g.resetFabric s.mem 1).2))))

/-- R620 to R623, R636 to R642, Tables 12.3, 14.9, 14.12, 15.11 and 15.19 to 15.21: the PLLs, the sensors, the fans, the supplies
and the clock measurement; that of a clock out of lock, or of a received one, is the event's (log entry 91). -/
def Obligations.ModuleEvents : Prop :=
  ∀ (s : State) (k : Fin 5) (j : Fin 7) (t : BitVec 16) (q : Fin 4) (u : UplinkId) (r : Readings) (who : Port)
    (khz : BitVec 28) (absent : Bool) (x y : SupplyReading),
    let b := s.blade
    let still := fun i => exec i s = .next (ends s s.mem b)
    let lock := b.hw.pllLocks.getLsbD k.val
    let dom := selected b.csr.measSel who
    let locked := fun n : Nat => b.hw.pllLocks.getLsbD n = true
    let hot : Bool := overCrit j.val t.toInt && !b.flag (rTEMP j.val) 18 && !b.flt.fenced
    (lock = false → still (.pllLockLoss k)) ∧
    (lock = true → Leaves (.pllLockLoss k) s fun b' => b'.hw.pllLocks.getLsbD k.val = false ∧
      (b'.reg (rCLK + 0x10 + 4 * k.val)).toNat = min ((b.reg (rCLK + 0x10 + 4 * k.val)).toNat + 1) 0xFFFFFFFF ∧
      (k = 2 → b'.flag (rUPLINK u.val + 4) 0 = false) ∧ (k = 3 → b'.pair.lock = false ∧ ∀ c, c < 8 → (b'.cluster c).linkLost = true) ∧
      (k ≠ 2 → k ≠ 3 → (b'.source (srcWide 0 4)).cause = true)) ∧
    (lock = true → still (.pllLockRegained k)) ∧
    (lock = false → ∃ (m' : Memory) (b' : Blade), exec (.pllLockRegained k) s = .next (ends s m' b') ∧
      b'.hw.pllLocks.getLsbD k.val = true ∧
      (k = 3 → b.armed 192 2 = false → b'.pair.lock = (b.pair.partnerPresent || b.pair.lock)) ∧
      (k ≠ 3 → m' = s.mem)) ∧
    (hot = false → still (.tempCritical j t)) ∧
    (hot = true → Leaves (.tempCritical j t) s fun b' => b'.flag (rTEMP j.val) 18 = true ∧
      b'.field (rTEMP j.val) 0 16 = t.toNat ∧ (b'.source (srcWide 8 6)).cause = true) ∧
    (b.flt.fenced = true → still (.fanFault q) ∧ still (.pmbusRefresh r)) ∧
    (b.flt.fenced = false →
      (Leaves (.fanFault q) s fun b' => b'.flag (rFAN q.val) 24 = true ∧
        (b'.source (srcWide 8 (2 + q.val))).cause = true ∧
        (2 ≤ b.hw.startStep.toNat ∨ b.pair.partnerPresent = false → b'.field (rFAN q.val) 16 7 = 100)) ∧
      (Leaves (.pmbusRefresh r) s fun b' =>
        b'.reg (rPWR + 0x20) = pack [(0, 8, r.supercap.toNat), (8, 1, b2n r.saveReady)] ∧
        (b'.source (srcWide 9 4)).cause = (!r.saveReady) ∧
        (r.supplies = [x, y] → b'.reg (rCHAS + 0x104) = x.vin ∧ b'.reg (rCHAS + 0x124) = y.vin ∧
          b'.reg (rCHAS + 0x108) = x.vout ∧ b'.reg (rCHAS + 0x128) = y.vout) ∧
        ∀ v, j.val < 5 → r.temps[j.val]? = some (some v) → b'.field (rTEMP j.val) 0 16 = v.toNat)) ∧
    ∃ (found : Nat) (gone : Bool), exec (.clkMeasComplete who khz absent) s = .next (ends s s.mem { b with
        csr.measured := mput 0 (portId who) (pack [(0, 28, found), (30, 1, b2n gone), (31, 1, 1)]) b.csr.measured }) ∧
      (dom < 128 → gone = absent ∧ (absent = true → found = 0) ∧ (absent = false → 12498 ≤ found ∧ found ≤ 12502)) ∧
      (144 ≤ dom → dom < 178 → b.activeTile (dom - 144) = false → gone = true ∧ found = 0) ∧
      (144 ≤ dom → dom < 178 → b.activeTile (dom - 144) = true → b.domainOff (dom - 144) = false → locked 0 → gone = false ∧
        found = 1000000) ∧
      (178 ≤ dom → dom < 186 → b.domainOff (fnCluster (dom - 178)) = false → locked 0 → gone = false ∧ found = 500000) ∧
      (dom = 188 → locked 1 → gone = false ∧ found = 800000) ∧
      (dom = 194 → locked 2 → gone = false ∧ found = 125000) ∧
      (dom = 196 → locked 3 → gone = false ∧ found = 250000) ∧
      (dom = 199 → locked 4 → gone = false ∧ found = 100000) ∧
      (dom = 200 → gone = false ∧ 32 ≤ found ∧ found ≤ 33) ∧
      (dom = 202 → found ≤ 25000)
end

