-- ==== Sys2Proof/Laws/Encoding.lean ====
section
/-! SUPPORT. The laws of instruction words: each field of a word as it was packed, and decode of encode. -/

namespace Sys2Proof.Machine

/-! ## The fields of a packed word -/

theorem packWord_toNat (op a b low : Nat) (h0 : op < 64) (h1 : a < 32) (h2 : b < 32) (h3 : low < 65536) :
    (packWord op a b low).toNat = op * 67108864 + a * 2097152 + b * 65536 + low := by
  simp only [packWord, BitVec.toNat_ofNat]
  omega

/-- What every format shares: the opcode, [25:21], [20:16] and [15:0]. -/
theorem packWord_fields (op low : Nat) (a b : RegNo) (h0 : op < 64) (h3 : low < 65536) :
    bits (packWord op a.toNat b.toNat low).toNat 26 6 = op ∧ fieldRd (packWord op a.toNat b.toNat low) = a ∧
      fieldRa (packWord op a.toNat b.toNat low) = b ∧ (packWord op a.toNat b.toNat low).toNat % 65536 = low := by
  have ha := a.isLt
  have hb := b.isLt
  refine ⟨?_, BitVec.eq_of_toNat_eq ?_, BitVec.eq_of_toNat_eq ?_, ?_⟩ <;>
    simp only [fieldRd, fieldRa, packWord_toNat op a.toNat b.toNat low h0 ha hb h3, bits, BitVec.toNat_ofNat] <;> omega

/-- A field of [15:0] depends on these bits alone. -/
theorem bits_low (n lo len : Nat) (h : lo + len ≤ 16) : bits n lo len = bits (n % 65536) lo len := by
  simp only [bits]
  have : (2 : Nat) ^ 16 = 2 ^ lo * 2 ^ (16 - lo) := by rw [← Nat.pow_add]; congr 1; omega
  rw [show (65536 : Nat) = 2 ^ lo * 2 ^ (16 - lo) from this, Nat.mod_mul_right_div_self, Nat.mod_mod_of_dvd]
  exact Nat.pow_dvd_pow 2 (by omega)

theorem wordR_low (rb rc : RegNo) (func : Nat) (h : func < 64) : rb.toNat * 2 ^ 11 + rc.toNat * 2 ^ 6 + func < 65536 := by
  have := rb.isLt
  have := rc.isLt
  omega

/-- Format R. -/
theorem wordR_fields (op func : Nat) (rd ra rb rc : RegNo) (h0 : op < 64) (h : func < 64) :
    bits (wordR op rd ra rb rc func).toNat 26 6 = op ∧ fieldRd (wordR op rd ra rb rc func) = rd ∧
      fieldRa (wordR op rd ra rb rc func) = ra ∧ fieldRb (wordR op rd ra rb rc func) = rb ∧
      fieldRc (wordR op rd ra rb rc func) = rc ∧ (fieldFunc (wordR op rd ra rb rc func)).toNat = func := by
  obtain ⟨e0, e1, e2, e3⟩ := packWord_fields op _ rd ra h0 (wordR_low rb rc func h)
  have hb := rb.isLt
  have hc := rc.isLt
  refine ⟨e0, e1, e2, BitVec.eq_of_toNat_eq ?_, BitVec.eq_of_toNat_eq ?_, ?_⟩ <;>
    simp only [fieldRb, fieldRc, fieldFunc, wordR, BitVec.toNat_ofNat] <;>
    rw [bits_low _ _ _ (by omega), e3, bits] <;> omega

theorem wordR_func (op : Nat) (rd ra rb rc : RegNo) (func : BitVec 6) (h0 : op < 64) :
    fieldFunc (wordR op rd ra rb rc func.toNat) = func :=
  BitVec.eq_of_toNat_eq (wordR_fields op func.toNat rd ra rb rc h0 func.isLt).2.2.2.2.2

/-- Formats I and S. -/
theorem wordI_fields (op : Nat) (rd ra : RegNo) (imm : BitVec 16) (h0 : op < 64) :
    bits (wordI op rd ra imm).toNat 26 6 = op ∧ fieldRd (wordI op rd ra imm) = rd ∧
      fieldRa (wordI op rd ra imm) = ra ∧ fieldImm (wordI op rd ra imm) = imm := by
  obtain ⟨e0, e1, e2, e3⟩ := packWord_fields op _ rd ra h0 imm.isLt
  refine ⟨e0, e1, e2, BitVec.eq_of_toNat_eq ?_⟩
  simp only [fieldImm, wordI, BitVec.toNat_ofNat]
  rw [bits_low _ _ _ (by omega), e3, bits]
  have := imm.isLt
  omega

/-- Format B. -/
theorem wordB_fields (op : Nat) (ra : RegNo) (disp : BitVec 21) (h0 : op < 64) :
    bits (wordB op ra disp).toNat 26 6 = op ∧ fieldRd (wordB op ra disp) = ra ∧ fieldDisp (wordB op ra disp) = disp := by
  have ha := ra.isLt
  have hd := disp.isLt
  refine ⟨?_, BitVec.eq_of_toNat_eq ?_, BitVec.eq_of_toNat_eq ?_⟩ <;>
    simp only [fieldRd, fieldDisp, wordB, bits, BitVec.toNat_ofNat] <;> omega

/-- Format F. -/
theorem wordF_fields (f : FpFields) (func : Nat) (h : func < 64) :
    bits (wordF f func).toNat 26 6 = 0x03 ∧ fieldsF (wordF f func) = f ∧ (fieldFunc (wordF f func)).toNat = func := by
  obtain ⟨rd, ra, rb, rm, zero, size⟩ := f
  have h1 := rb.isLt
  have h2 := rm.isLt
  have h3 := zero.isLt
  have h4 := size.isLt
  obtain ⟨e0, e1, e2, e3⟩ := packWord_fields 0x03
    (rb.toNat * 2 ^ 11 + rm.toNat * 2 ^ 8 + zero.toNat * 2 ^ 7 + size.toNat * 2 ^ 6 + func) rd ra (by omega) (by omega)
  refine ⟨e0, ?_, ?_⟩
  · simp only [fieldsF, FpFields.mk.injEq]
    refine ⟨e1, e2, BitVec.eq_of_toNat_eq ?_, BitVec.eq_of_toNat_eq ?_, BitVec.eq_of_toNat_eq ?_, BitVec.eq_of_toNat_eq ?_⟩ <;>
      simp only [fieldRb, wordF, BitVec.toNat_ofNat] <;> rw [bits_low _ _ _ (by omega), e3, bits] <;> omega
  · simp only [fieldFunc, wordF, BitVec.toNat_ofNat]
    rw [bits_low _ _ _ (by omega), e3, bits]
    omega

/-- Format M. -/
theorem wordM_fields (f : FmaFields) : bits (wordM f).toNat 26 6 = 0x04 ∧ fieldsM (wordM f) = f := by
  obtain ⟨rd, ra, rb, rc, rm, zero, size⟩ := f
  have h1 := rb.isLt
  have h2 := rc.isLt
  have h3 := rm.isLt
  have h4 := zero.isLt
  have h5 := size.isLt
  obtain ⟨e0, e1, e2, e3⟩ := packWord_fields 0x04
    (rb.toNat * 2 ^ 11 + rc.toNat * 2 ^ 6 + rm.toNat * 2 ^ 3 + zero.toNat * 2 + size.toNat) rd ra (by omega) (by omega)
  refine ⟨e0, ?_⟩
  simp only [fieldsM, FmaFields.mk.injEq]
  refine ⟨e1, e2, BitVec.eq_of_toNat_eq ?_, BitVec.eq_of_toNat_eq ?_, BitVec.eq_of_toNat_eq ?_, BitVec.eq_of_toNat_eq ?_,
    BitVec.eq_of_toNat_eq ?_⟩ <;>
    simp only [fieldRb, fieldRc, wordM, BitVec.toNat_ofNat] <;> rw [bits_low _ _ _ (by omega), e3, bits] <;> omega

/-- Format N. -/
theorem wordN_fields (op : Nat) (f : SendFields) (h0 : op < 64) :
    bits (wordN op f).toNat 26 6 = op ∧ fieldsN (wordN op f) = f := by
  obtain ⟨rv, rt, rdl, port, cls, ctrl, list, zero⟩ := f
  have h1 := rdl.isLt
  have h2 := port.isLt
  have h3 := cls.isLt
  have h4 := ctrl.isLt
  have h5 := list.isLt
  have h6 := zero.isLt
  obtain ⟨e0, e1, e2, e3⟩ := packWord_fields op (rdl.toNat * 2 ^ 11 + port.toNat * 2 ^ 9 + cls.toNat * 2 ^ 6 +
    ctrl.toNat * 2 ^ 5 + list.toNat * 2 ^ 3 + zero.toNat) rv rt h0 (by omega)
  refine ⟨e0, ?_⟩
  simp only [fieldsN, SendFields.mk.injEq]
  refine ⟨e1, e2, BitVec.eq_of_toNat_eq ?_, BitVec.eq_of_toNat_eq ?_, BitVec.eq_of_toNat_eq ?_, BitVec.eq_of_toNat_eq ?_,
    BitVec.eq_of_toNat_eq ?_, BitVec.eq_of_toNat_eq ?_⟩ <;>
    simp only [fieldRb, wordN, BitVec.toNat_ofNat] <;> rw [bits_low _ _ _ (by omega), e3, bits] <;> omega

/-- END. -/
theorem endWord_fields (z : BitVec 26) :
    bits (BitVec.ofNat 32 (0x3F * 2 ^ 26 + z.toNat)).toNat 26 6 = 0x3F ∧
      BitVec.ofNat 26 (bits (BitVec.ofNat 32 (0x3F * 2 ^ 26 + z.toNat)).toNat 0 26) = z := by
  have h := z.isLt
  refine ⟨?_, BitVec.eq_of_toNat_eq ?_⟩ <;> simp only [bits, BitVec.toNat_ofNat] <;> omega

theorem decode_endWord (t : TileId) (z : BitVec 26) :
    decodeCode t (BitVec.ofNat 32 (0x3F * 2 ^ 26 + z.toNat)) = some (.endFiring t z) := by
  simp only [decodeCode, (endWord_fields z).1, (endWord_fields z).2]

/-! ## Decode of encode -/

/-- The word of a codelet instruction spells it, on its tile. -/
theorem decode_codeWord (i : Instr) (w : Word32) (h : codeWord i = some w) : ∃ t, decodeCode t w = some i := by
  cases i <;> simp only [codeWord, computeWord, Option.some.injEq, reduceCtorEq] at h <;> subst h <;>
    refine ⟨‹TileId›, ?_⟩
  case endFiring => exact decode_endWord _ _
  all_goals
    simp (disch := omega) [decodeCode, decodeAlu, decodeMulDiv, decodeFp, decodeCas, wordR_fields, wordR_func, wordI_fields,
      wordB_fields, wordF_fields, wordM_fields, wordN_fields]

end Sys2Proof.Machine
end

