-- ==== Sys2Proof/Laws/Util.lean ====
section
/-! SUPPORT. The laws of sparse arrays: a read after a write, and the canonical form. -/

namespace Sys2Proof.Machine

variable {α : Type}

theorem mget_minsert_same (d : α) (k : Nat) (v : α) (m : SMap α) : mget d k (minsert k v m) = v := by
  induction m with
  | nil => simp [minsert, mget]
  | cons e r ih =>
    obtain ⟨i, w⟩ := e
    simp only [minsert]
    split
    · have : i ≠ k := by omega
      simp [mget, this, ih]
    · split <;> simp [mget]

theorem mget_minsert_other (d : α) {j k : Nat} (v : α) (m : SMap α) (h : j ≠ k) :
    mget d j (minsert k v m) = mget d j m := by
  induction m with
  | nil => simp [minsert, mget, Ne.symm h]
  | cons e r ih =>
    obtain ⟨i, w⟩ := e
    simp only [minsert]
    split
    · simp [mget, ih]
    · split
      · subst_vars; simp [mget, Ne.symm h]
      · simp [mget, Ne.symm h]

theorem mget_filter_same (d : α) (k : Nat) (m : SMap α) : mget d k (m.filter fun e => e.1 ≠ k) = d := by
  induction m with
  | nil => simp [mget]
  | cons e r ih =>
    obtain ⟨i, w⟩ := e
    by_cases h : i = k
    · subst h; simpa using ih
    · simp [h, mget]; simpa using ih

theorem mget_filter_other (d : α) {j k : Nat} (m : SMap α) (h : j ≠ k) :
    mget d j (m.filter fun e => e.1 ≠ k) = mget d j m := by
  induction m with
  | nil => simp [mget]
  | cons e r ih =>
    obtain ⟨i, w⟩ := e
    by_cases hk : i = k
    · subst hk; simp [mget, Ne.symm h]; simpa using ih
    · simp only [List.filter, ne_eq, hk, not_false_eq_true, decide_true, mget]
      split
      · rfl
      · simpa using ih

/-- A read after a write gives the value written. -/
@[simp] theorem mget_mput_same [DecidableEq α] (d : α) (k : Nat) (v : α) (m : SMap α) : mget d k (mput d k v m) = v := by
  simp only [mput]
  split
  · next h => rw [mget_filter_same, h]
  · exact mget_minsert_same d k v m

/-- A write leaves every other index alone. -/
theorem mget_mput_other [DecidableEq α] (d : α) {j k : Nat} (v : α) (m : SMap α) (h : j ≠ k) :
    mget d j (mput d k v m) = mget d j m := by
  simp only [mput]
  split
  · exact mget_filter_other d m h
  · exact mget_minsert_other d v m h

theorem mget_mput [DecidableEq α] (d : α) (j k : Nat) (v : α) (m : SMap α) :
    mget d j (mput d k v m) = if j = k then v else mget d j m := by
  split
  · next h => rw [h, mget_mput_same]
  · next h => exact mget_mput_other d v m h

/-! ## The canonical form -/

/-- Every listed index is above `n`. -/
def above (n : Nat) (m : SMap α) : Prop := ∀ e ∈ m, n < e.1

theorem canon_cons [DecidableEq α] (d : α) (i : Nat) (v : α) (r : SMap α) :
    canon d ((i, v) :: r) = true ↔ v ≠ d ∧ above i r ∧ canon d r = true := by
  induction r generalizing i v with
  | nil => simp [canon, above]
  | cons e r ih =>
    obtain ⟨j, w⟩ := e
    simp only [canon, Bool.and_eq_true, decide_eq_true_eq, above, List.mem_cons, forall_eq_or_imp]
    constructor
    · rintro ⟨⟨hv, hij⟩, hc⟩
      obtain ⟨_, ha, _⟩ := (ih j w).1 hc
      exact ⟨by simpa using hv, ⟨hij, fun e he => Nat.lt_trans hij (ha e he)⟩, hc⟩
    · rintro ⟨hv, ⟨hij, _⟩, hc⟩
      exact ⟨⟨by simpa using hv, hij⟩, hc⟩

theorem canon_filter [DecidableEq α] (d : α) (p : Nat × α → Bool) (m : SMap α) (h : canon d m = true) :
    canon d (m.filter p) = true := by
  induction m with
  | nil => rfl
  | cons e r ih =>
    obtain ⟨i, v⟩ := e
    obtain ⟨hv, ha, hc⟩ := (canon_cons d i v r).1 h
    simp only [List.filter]
    split
    · exact (canon_cons d i v _).2 ⟨hv, fun e he => ha e (List.mem_of_mem_filter he), ih hc⟩
    · exact ih hc

theorem above_minsert (n k : Nat) (v : α) (m : SMap α) (hk : n < k) (h : above n m) : above n (minsert k v m) := by
  induction m with
  | nil => simpa [minsert, above] using hk
  | cons e r ih =>
    obtain ⟨i, w⟩ := e
    have hi : n < i := h (i, w) (by simp)
    have hr : above n r := fun e he => h e (by simp [he])
    simp only [minsert]
    split
    · intro e he
      rcases List.mem_cons.1 he with rfl | he
      · exact hi
      · exact ih hr e he
    · split
      · intro e he
        rcases List.mem_cons.1 he with rfl | he
        · exact hk
        · exact hr e he
      · intro e he
        rcases List.mem_cons.1 he with rfl | he
        · exact hk
        · exact h e he

theorem canon_minsert [DecidableEq α] (d : α) (k : Nat) (v : α) (m : SMap α) (hv : v ≠ d) (h : canon d m = true) :
    canon d (minsert k v m) = true := by
  induction m with
  | nil => simpa [minsert, canon] using hv
  | cons e r ih =>
    obtain ⟨i, w⟩ := e
    obtain ⟨hw, ha, hc⟩ := (canon_cons d i w r).1 h
    simp only [minsert]
    split
    · next hik => exact (canon_cons d i w _).2 ⟨hw, above_minsert i k v r hik ha, ih hc⟩
    · split
      · next hik => subst hik; exact (canon_cons d i v r).2 ⟨hv, ha, hc⟩
      · next h1 h2 =>
        refine (canon_cons d k v _).2 ⟨hv, ?_, h⟩
        intro e he
        rcases List.mem_cons.1 he with rfl | he
        · simp only; omega
        · have := ha e he; omega

/-- A write keeps the canonical form. -/
theorem canon_mput [DecidableEq α] (d : α) (k : Nat) (v : α) (m : SMap α) (h : canon d m = true) :
    canon d (mput d k v m) = true := by
  simp only [mput]
  split
  · exact canon_filter d _ m h
  · next hv => exact canon_minsert d k v m hv h

end Sys2Proof.Machine
end

