-- ==== Sys2Proof/Laws/Memory.lean ====
section
/-! SUPPORT. The laws of memory: every memory operation keeps the canonical form, a byte read after a write, and byte
strings as they are read back. -/

namespace Sys2Proof.Machine

/-! ## The canonical form -/

theorem Memory.wf_iff (m : Memory) :
    m.wf = true ↔ canon (0 : Byte) m.cells = true ∧ canon WordMark.sound m.marks = true := by
  simp [Memory.wf]

theorem Memory.wf_setByte (m : Memory) (k : Nat) (v : Byte) (h : m.wf = true) : (m.setByte k v).wf = true := by
  rw [wf_iff] at h ⊢
  exact ⟨canon_mput 0 k v _ h.1, h.2⟩

theorem Memory.wf_setMark (m : Memory) (k : Nat) (v : WordMark) (h : m.wf = true) : (m.setMark k v).wf = true := by
  rw [wf_iff] at h ⊢
  exact ⟨h.1, canon_mput WordMark.sound _ v _ h.2⟩

theorem Memory.wf_write (m : Memory) (k : Nat) (bs : List Byte) (h : m.wf = true) : (m.write k bs).wf = true := by
  induction bs generalizing m k with
  | nil => exact h
  | cons v r ih => exact ih _ _ (wf_setByte m k v h)

theorem Memory.wf_fill (m : Memory) (a : Nat) (bs : List Byte) (h : m.wf = true) : (m.fill a bs).wf = true := by
  unfold Memory.fill
  generalize List.range _ = l
  have hw := wf_write m a bs h
  revert hw
  generalize m.write a bs = x
  induction l generalizing x with
  | nil => exact id
  | cons i r ih => exact fun hx => ih _ (wf_setMark x _ _ hx)

theorem Memory.wf_cleared : Memory.cleared.wf = true := rfl

theorem Memory.wf_zeroBank (m : Memory) (bank : Nat) (h : m.wf = true) : (m.zeroBank bank).wf = true := by
  rw [wf_iff] at h ⊢
  exact ⟨canon_filter 0 _ _ h.1, canon_filter WordMark.sound _ _ h.2⟩

theorem Memory.wf_fabricKept (m : Memory) (h : m.wf = true) : m.fabricKept.wf = true := by
  rw [wf_iff] at h ⊢
  exact ⟨canon_filter 0 _ _ h.1, canon_filter WordMark.sound _ _ h.2⟩

/-- Whatever entries a sparse array is built from, the result is in canonical form. -/
theorem canon_canonize {α : Type} [DecidableEq α] (d : α) (l : SMap α) : canon d (canonize d l) = true := by
  unfold canonize
  have h : canon d ([] : SMap α) = true := rfl
  revert h
  generalize ([] : SMap α) = s
  induction l generalizing s with
  | nil => exact id
  | cons e r ih => exact fun hs => ih _ (canon_mput d e.1 e.2 s hs)

theorem Memory.wf_canonize (m : Memory) : m.canonize.wf = true := by
  rw [wf_iff]
  exact ⟨canon_canonize 0 _, canon_canonize WordMark.sound _⟩

/-! ## Loads and stores keep it -/

theorem Blade.loadWord_wf (b : Blade) (m : Memory) (a : Nat) (h : m.wf = true) : (b.loadWord m a).mem.wf = true := by
  unfold Blade.loadWord
  split
  · exact h
  · dsimp only
    split
    · exact h
    · exact Memory.wf_setMark m _ _ h
    · exact h
    · exact Memory.wf_setMark m _ _ h

theorem Blade.load_wf (b : Blade) (m : Memory) (a n : Nat) (h : m.wf = true) : (b.load m a n).mem.wf = true := by
  unfold Blade.load
  split
  · exact b.loadWord_wf m _ h
  · exact h
  · exact h
  · exact h

theorem Blade.writeWord64_wf (b : Blade) (m : Memory) (a : Nat) (v : Word64) (p : Bool) (h : m.wf = true) :
    (b.writeWord64 m a v p).1.wf = true :=
  Memory.wf_setMark _ _ _ (Memory.wf_write m _ _ h)

theorem Blade.store64_wf (b : Blade) (m : Memory) (a : Nat) (v : Word64) (p : Bool) (h : m.wf = true) :
    (b.store64 m a v p).1.wf = true := by
  unfold Blade.store64
  split
  · exact h
  · exact b.writeWord64_wf m a v p h

theorem Blade.merge8_wf (b : Blade) (m : Memory) (a n v : Nat) (p : Bool) (h : m.wf = true) :
    (b.merge8 m a n v p).1.wf = true := by
  unfold Blade.merge8
  split
  · exact h
  · have hl := b.loadWord_wf m (a / 8 * 8) h
    dsimp only
    split
    · exact hl
    · exact Blade.writeWord64_wf _ _ _ _ _ hl

theorem Blade.store_wf (b : Blade) (m : Memory) (a n : Nat) (v : Word64) (p : Bool) (h : m.wf = true) :
    (b.store m a n v p).1.wf = true := by
  unfold Blade.store
  split
  · exact b.store64_wf m a v p h
  · exact b.merge8_wf m a n _ p h

theorem Blade.cas_wf (b : Blade) (m : Memory) (a n : Nat) (x y : Word64) (h : m.wf = true) :
    (b.cas m a n x y).mem.wf = true := by
  unfold Blade.cas
  dsimp only
  generalize (if a < sramSize then b.count64 rATOM else b.count64 (rATOM + 0x10)) = c
  have hl := c.load_wf m a n h
  split
  · exact hl
  · split
    · exact Blade.store_wf _ _ _ _ _ _ hl
    · exact hl

theorem Blade.copyWord_wf (bank row spare : Nat) (x : Memory × Blade) (w : Nat) (h : x.1.wf = true) :
    (Blade.copyWord bank row spare x w).1.wf = true :=
  Memory.wf_setMark _ _ _ (Memory.wf_write _ _ _ (x.2.loadWord_wf x.1 _ h))

theorem foldl_wf {α : Type} (step : Memory × Blade → α → Memory × Blade)
    (keeps : ∀ x i, x.1.wf = true → (step x i).1.wf = true) (l : List α) (x : Memory × Blade) (h : x.1.wf = true) :
    (l.foldl step x).1.wf = true := by
  induction l generalizing x with
  | nil => exact h
  | cons i r ih => exact ih _ (keeps x i h)

theorem Blade.fillPart_wf (b : Blade) (m : Memory) (a : Nat) (bs : List Byte) (h : m.wf = true) :
    (b.fillPart m a bs).1.wf = true :=
  foldl_wf _ (fun x _ hx => x.2.merge8_wf x.1 _ _ _ _ hx) _ _ h

theorem Blade.fillWords_wf (b : Blade) (m : Memory) (a : Nat) (bs : List Byte) (h : m.wf = true) :
    (b.fillWords m a bs).1.wf = true := by
  unfold Blade.fillWords
  dsimp only
  split
  · exact foldl_wf _ (fun x _ hx => Memory.wf_setMark x.1 _ _ hx) _ _ (Memory.wf_fill m a bs h)
  · exact Memory.wf_fill m a bs h

theorem applyLog_wf (x : Memory × Blade) (w : LogWrite) (h : x.1.wf = true) : (applyLog x w).1.wf = true := by
  unfold applyLog
  split
  · exact Memory.wf_setMark _ _ _ (Memory.wf_setByte _ _ _ h)
  · exact Memory.wf_setMark _ _ _ h
  all_goals exact h

theorem Blade.applyFrames_wf (b : Blade) (m : Memory) (h : m.wf = true) : (b.applyFrames m).1.wf = true :=
  foldl_wf _ applyLog_wf _ _ h

/-! ## Reads after writes -/

@[simp] theorem Memory.byte_setByte_same (m : Memory) (k : Nat) (v : Byte) : (m.setByte k v).byte k = v :=
  mget_mput_same _ k v _

theorem Memory.byte_setByte (m : Memory) (k j : Nat) (v : Byte) :
    (m.setByte k v).byte j = if j = k then v else m.byte j :=
  mget_mput _ j k v _

@[simp] theorem Memory.byte_setMark (m : Memory) (k j : Nat) (v : WordMark) : (m.setMark k v).byte j = m.byte j := rfl

@[simp] theorem Memory.mark_setByte (m : Memory) (k j : Nat) (v : Byte) : (m.setByte k v).mark j = m.mark j := rfl

@[simp] theorem Memory.mark_setMark_same (m : Memory) (k : Nat) (v : WordMark) : (m.setMark k v).mark k = v :=
  mget_mput_same _ _ v _

/-- Storing bytes from a place on changes exactly their places. -/
theorem Memory.byte_write (m : Memory) (k j : Nat) (bs : List Byte) :
    (m.write k bs).byte j = if k ≤ j ∧ j < k + bs.length then bs.getD (j - k) 0 else m.byte j := by
  induction bs generalizing m k with
  | nil => simp [Memory.write]
  | cons v r ih =>
    simp only [Memory.write, ih, List.length_cons, byte_setByte]
    by_cases h : j = k
    · subst h; simp
    · by_cases h2 : k + 1 ≤ j ∧ j < k + 1 + r.length
      · have h3 : k ≤ j ∧ j < k + (r.length + 1) := by omega
        have h4 : j - k = (j - (k + 1)) + 1 := by omega
        simp only [h2, and_self, if_true, h3, h4, List.getD_cons_succ]
      · have h3 : ¬(k ≤ j ∧ j < k + (r.length + 1)) := by omega
        simp only [h2, if_false, h, h3]

@[simp] theorem Memory.mark_write (m : Memory) (k j : Nat) (bs : List Byte) : (m.write k bs).mark j = m.mark j := by
  induction bs generalizing m k with
  | nil => rfl
  | cons v r ih => simp [Memory.write, ih]

@[simp] theorem Memory.length_read (m : Memory) (k n : Nat) : (m.read k n).length = n := by
  induction n generalizing k with
  | zero => rfl
  | succ n ih => simp [Memory.read, ih]

theorem Memory.drop_read (m : Memory) (k n i : Nat) : (m.read k n).drop i = m.read (k + i) (n - i) := by
  induction i generalizing k n with
  | zero => simp
  | succ i ih =>
    cases n with
    | zero => simp [Memory.read]
    | succ n =>
      simp only [Memory.read, List.drop_succ_cons, ih]
      congr 1
      · omega
      · omega

theorem Memory.take_read (m : Memory) (k n i : Nat) (h : i ≤ n) : (m.read k n).take i = m.read k i := by
  induction i generalizing k n with
  | zero => simp [Memory.read]
  | succ i ih =>
    cases n with
    | zero => omega
    | succ n => simp only [Memory.read, List.take_succ_cons, ih (k + 1) n (by omega)]

/-- A slice of a run of bytes is the run of bytes at its place. -/
theorem Memory.sliceBytes_read (m : Memory) (k n off len : Nat) (h : off + len ≤ n) :
    sliceBytes (m.read k n) off len = m.read (k + off) len := by
  simp only [sliceBytes, drop_read, take_read m (k + off) (n - off) len (by omega), length_read, Nat.sub_self,
    List.replicate_zero, List.append_nil]

/-- A field of a run of bytes is the little-endian number at its place. -/
theorem Memory.fieldAt_read (m : Memory) (k n off len : Nat) (h : off + len ≤ n) :
    fieldAt (m.read k n) off len = m.nat (k + off) len := by
  rw [fieldAt, sliceBytes_read m k n off len h, Memory.nat]

/-- A store changes bytes of its word alone, and marks of its word alone. -/
theorem Blade.writeWord64_frame (b : Blade) (m : Memory) (a : Nat) (v : Word64) (p : Bool) (j : Nat)
    (h : j < b.place a ∨ b.place a + 8 ≤ j) : (b.writeWord64 m a v p).1.byte j = m.byte j := by
  have hl : (leBytes 8 v.toNat).length = 8 := rfl
  simp only [Blade.writeWord64, Memory.byte_setMark, Memory.byte_write, hl]
  rw [if_neg (by omega)]

end Sys2Proof.Machine
end

