-- ==== Sys2Proof/Laws/State.lean ====
section
/-! SUPPORT. The laws of the named updates of a blade: what each writes, and, field by field, what it leaves. -/

namespace Sys2Proof.Machine

/-! ### setReg -/

@[simp] theorem Blade.setReg_same (b : Blade) (a : Nat) (v : Word32) : (b.setReg a v).reg a = v := mget_mput_same _ a v _

theorem Blade.setReg_other (b : Blade) (a : Nat) (v : Word32) (j : Nat) (h : j ≠ a) : (b.setReg a v).reg j = b.reg j := by
  simp only [Blade.reg, Blade.setReg, mput]
  split
  · exact mget_filter_other _ _ h
  · exact mget_minsert_other _ _ _ h

@[simp] theorem Blade.setReg_draws (b : Blade) (a : Nat) (v : Word32) : (b.setReg a v).draws = b.draws := rfl
@[simp] theorem Blade.setReg_bladeB (b : Blade) (a : Nat) (v : Word32) : (b.setReg a v).bladeB = b.bladeB := rfl
@[simp] theorem Blade.setReg_frame (b : Blade) (a : Nat) (v : Word32) : (b.setReg a v).frame = b.frame := rfl
@[simp] theorem Blade.setReg_fineTicks (b : Blade) (a : Nat) (v : Word32) : (b.setReg a v).fineTicks = b.fineTicks := rfl
@[simp] theorem Blade.setReg_response (b : Blade) (a : Nat) (v : Word32) : (b.setReg a v).response = b.response := rfl
@[simp] theorem Blade.setReg_outputs (b : Blade) (a : Nat) (v : Word32) : (b.setReg a v).outputs = b.outputs := rfl
@[simp] theorem Blade.setReg_net (b : Blade) (a : Nat) (v : Word32) : (b.setReg a v).net = b.net := rfl
@[simp] theorem Blade.setReg_led (b : Blade) (a : Nat) (v : Word32) : (b.setReg a v).led = b.led := rfl
@[simp] theorem Blade.setReg_ord (b : Blade) (a : Nat) (v : Word32) : (b.setReg a v).ord = b.ord := rfl
@[simp] theorem Blade.setReg_bank (b : Blade) (a : Nat) (v : Word32) : (b.setReg a v).bank = b.bank := rfl
@[simp] theorem Blade.setReg_pool (b : Blade) (a : Nat) (v : Word32) : (b.setReg a v).pool = b.pool := rfl
@[simp] theorem Blade.setReg_lan (b : Blade) (a : Nat) (v : Word32) : (b.setReg a v).lan = b.lan := rfl
@[simp] theorem Blade.setReg_eng (b : Blade) (a : Nat) (v : Word32) : (b.setReg a v).eng = b.eng := rfl
@[simp] theorem Blade.setReg_flt (b : Blade) (a : Nat) (v : Word32) : (b.setReg a v).flt = b.flt := rfl
@[simp] theorem Blade.setReg_pair (b : Blade) (a : Nat) (v : Word32) : (b.setReg a v).pair = b.pair := rfl
@[simp] theorem Blade.setReg_hw (b : Blade) (a : Nat) (v : Word32) : (b.setReg a v).hw = b.hw := rfl
@[simp] theorem Blade.setReg_csr_staged (b : Blade) (a : Nat) (v : Word32) : (b.setReg a v).csr.staged = b.csr.staged := rfl
@[simp] theorem Blade.setReg_csr_struck (b : Blade) (a : Nat) (v : Word32) : (b.setReg a v).csr.struck = b.csr.struck := rfl
@[simp] theorem Blade.setReg_csr_striking (b : Blade) (a : Nat) (v : Word32) : (b.setReg a v).csr.striking = b.csr.striking := rfl
@[simp] theorem Blade.setReg_csr_arms (b : Blade) (a : Nat) (v : Word32) : (b.setReg a v).csr.arms = b.csr.arms := rfl
@[simp] theorem Blade.setReg_csr_armSource (b : Blade) (a : Nat) (v : Word32) : (b.setReg a v).csr.armSource = b.csr.armSource := rfl
@[simp] theorem Blade.setReg_csr_queueSel (b : Blade) (a : Nat) (v : Word32) : (b.setReg a v).csr.queueSel = b.csr.queueSel := rfl
@[simp] theorem Blade.setReg_csr_recSel (b : Blade) (a : Nat) (v : Word32) : (b.setReg a v).csr.recSel = b.csr.recSel := rfl
@[simp] theorem Blade.setReg_csr_injSel (b : Blade) (a : Nat) (v : Word32) : (b.setReg a v).csr.injSel = b.csr.injSel := rfl
@[simp] theorem Blade.setReg_csr_measSel (b : Blade) (a : Nat) (v : Word32) : (b.setReg a v).csr.measSel = b.csr.measSel := rfl
@[simp] theorem Blade.setReg_csr_measured (b : Blade) (a : Nat) (v : Word32) : (b.setReg a v).csr.measured = b.csr.measured := rfl
@[simp] theorem Blade.setReg_csr_latches (b : Blade) (a : Nat) (v : Word32) : (b.setReg a v).csr.latches = b.csr.latches := rfl
@[simp] theorem Blade.setReg_csr_posted (b : Blade) (a : Nat) (v : Word32) : (b.setReg a v).csr.posted = b.csr.posted := rfl
@[simp] theorem Blade.setReg_csr_postDropped (b : Blade) (a : Nat) (v : Word32) : (b.setReg a v).csr.postDropped = b.csr.postDropped := rfl

/-- setReg leaves every other family of the blade as it was. -/
@[simp] theorem Blade.setReg_others (b : Blade) (a : Nat) (v : Word32) :
    (∀ j, (b.setReg a v).struck j = b.struck j) ∧ (∀ j, (b.setReg a v).source j = b.source j) ∧
    (∀ j, (b.setReg a v).ctx j = b.ctx j) ∧ (∀ j, (b.setReg a v).tile j = b.tile j) ∧
    (∀ j, (b.setReg a v).flow j = b.flow j) ∧ (∀ j, (b.setReg a v).delay j = b.delay j) ∧
    (∀ j, (b.setReg a v).sem j = b.sem j) ∧ (∀ j, (b.setReg a v).halyard j = b.halyard j) ∧
    (∀ j, (b.setReg a v).cluster j = b.cluster j) ∧ (∀ j, (b.setReg a v).port j = b.port j) ∧
    (∀ j, (b.setReg a v).queue j = b.queue j) ∧ (∀ j, (b.setReg a v).packet j = b.packet j) ∧
    (∀ j, (b.setReg a v).key j = b.key j) ∧ (∀ j, (b.setReg a v).channel j = b.channel j) ∧
    (∀ j, (b.setReg a v).image j = b.image j) ∧ (∀ j, (b.setReg a v).carrier j = b.carrier j) ∧
    (∀ j, (b.setReg a v).feed j = b.feed j) ∧ (∀ j, (b.setReg a v).fru j = b.fru j) :=
  ⟨fun _ => rfl, fun _ => rfl, fun _ => rfl, fun _ => rfl, fun _ => rfl, fun _ => rfl, fun _ => rfl, fun _ => rfl,
  fun _ => rfl, fun _ => rfl, fun _ => rfl, fun _ => rfl, fun _ => rfl, fun _ => rfl, fun _ => rfl, fun _ => rfl,
  fun _ => rfl, fun _ => rfl⟩

/-! ### setStruck -/

@[simp] theorem Blade.setStruck_same (b : Blade) (fn : Nat) (v : Bool) : (b.setStruck fn v).struck fn = v := mget_mput_same _ fn v _

theorem Blade.setStruck_other (b : Blade) (fn : Nat) (v : Bool) (j : Nat) (h : j ≠ fn) : (b.setStruck fn v).struck j = b.struck j := by
  simp only [Blade.struck, Blade.setStruck, mput]
  split
  · exact mget_filter_other _ _ h
  · exact mget_minsert_other _ _ _ h

@[simp] theorem Blade.setStruck_draws (b : Blade) (fn : Nat) (v : Bool) : (b.setStruck fn v).draws = b.draws := rfl
@[simp] theorem Blade.setStruck_bladeB (b : Blade) (fn : Nat) (v : Bool) : (b.setStruck fn v).bladeB = b.bladeB := rfl
@[simp] theorem Blade.setStruck_frame (b : Blade) (fn : Nat) (v : Bool) : (b.setStruck fn v).frame = b.frame := rfl
@[simp] theorem Blade.setStruck_fineTicks (b : Blade) (fn : Nat) (v : Bool) : (b.setStruck fn v).fineTicks = b.fineTicks := rfl
@[simp] theorem Blade.setStruck_response (b : Blade) (fn : Nat) (v : Bool) : (b.setStruck fn v).response = b.response := rfl
@[simp] theorem Blade.setStruck_outputs (b : Blade) (fn : Nat) (v : Bool) : (b.setStruck fn v).outputs = b.outputs := rfl
@[simp] theorem Blade.setStruck_net (b : Blade) (fn : Nat) (v : Bool) : (b.setStruck fn v).net = b.net := rfl
@[simp] theorem Blade.setStruck_led (b : Blade) (fn : Nat) (v : Bool) : (b.setStruck fn v).led = b.led := rfl
@[simp] theorem Blade.setStruck_ord (b : Blade) (fn : Nat) (v : Bool) : (b.setStruck fn v).ord = b.ord := rfl
@[simp] theorem Blade.setStruck_bank (b : Blade) (fn : Nat) (v : Bool) : (b.setStruck fn v).bank = b.bank := rfl
@[simp] theorem Blade.setStruck_pool (b : Blade) (fn : Nat) (v : Bool) : (b.setStruck fn v).pool = b.pool := rfl
@[simp] theorem Blade.setStruck_lan (b : Blade) (fn : Nat) (v : Bool) : (b.setStruck fn v).lan = b.lan := rfl
@[simp] theorem Blade.setStruck_eng (b : Blade) (fn : Nat) (v : Bool) : (b.setStruck fn v).eng = b.eng := rfl
@[simp] theorem Blade.setStruck_flt (b : Blade) (fn : Nat) (v : Bool) : (b.setStruck fn v).flt = b.flt := rfl
@[simp] theorem Blade.setStruck_pair (b : Blade) (fn : Nat) (v : Bool) : (b.setStruck fn v).pair = b.pair := rfl
@[simp] theorem Blade.setStruck_hw (b : Blade) (fn : Nat) (v : Bool) : (b.setStruck fn v).hw = b.hw := rfl
@[simp] theorem Blade.setStruck_csr_words (b : Blade) (fn : Nat) (v : Bool) : (b.setStruck fn v).csr.words = b.csr.words := rfl
@[simp] theorem Blade.setStruck_csr_staged (b : Blade) (fn : Nat) (v : Bool) : (b.setStruck fn v).csr.staged = b.csr.staged := rfl
@[simp] theorem Blade.setStruck_csr_striking (b : Blade) (fn : Nat) (v : Bool) : (b.setStruck fn v).csr.striking = b.csr.striking := rfl
@[simp] theorem Blade.setStruck_csr_arms (b : Blade) (fn : Nat) (v : Bool) : (b.setStruck fn v).csr.arms = b.csr.arms := rfl
@[simp] theorem Blade.setStruck_csr_armSource (b : Blade) (fn : Nat) (v : Bool) : (b.setStruck fn v).csr.armSource = b.csr.armSource := rfl
@[simp] theorem Blade.setStruck_csr_queueSel (b : Blade) (fn : Nat) (v : Bool) : (b.setStruck fn v).csr.queueSel = b.csr.queueSel := rfl
@[simp] theorem Blade.setStruck_csr_recSel (b : Blade) (fn : Nat) (v : Bool) : (b.setStruck fn v).csr.recSel = b.csr.recSel := rfl
@[simp] theorem Blade.setStruck_csr_injSel (b : Blade) (fn : Nat) (v : Bool) : (b.setStruck fn v).csr.injSel = b.csr.injSel := rfl
@[simp] theorem Blade.setStruck_csr_measSel (b : Blade) (fn : Nat) (v : Bool) : (b.setStruck fn v).csr.measSel = b.csr.measSel := rfl
@[simp] theorem Blade.setStruck_csr_measured (b : Blade) (fn : Nat) (v : Bool) : (b.setStruck fn v).csr.measured = b.csr.measured := rfl
@[simp] theorem Blade.setStruck_csr_latches (b : Blade) (fn : Nat) (v : Bool) : (b.setStruck fn v).csr.latches = b.csr.latches := rfl
@[simp] theorem Blade.setStruck_csr_posted (b : Blade) (fn : Nat) (v : Bool) : (b.setStruck fn v).csr.posted = b.csr.posted := rfl
@[simp] theorem Blade.setStruck_csr_postDropped (b : Blade) (fn : Nat) (v : Bool) : (b.setStruck fn v).csr.postDropped = b.csr.postDropped := rfl

/-- setStruck leaves every other family of the blade as it was. -/
@[simp] theorem Blade.setStruck_others (b : Blade) (fn : Nat) (v : Bool) :
    (∀ j, (b.setStruck fn v).reg j = b.reg j) ∧ (∀ j, (b.setStruck fn v).source j = b.source j) ∧
    (∀ j, (b.setStruck fn v).ctx j = b.ctx j) ∧ (∀ j, (b.setStruck fn v).tile j = b.tile j) ∧
    (∀ j, (b.setStruck fn v).flow j = b.flow j) ∧ (∀ j, (b.setStruck fn v).delay j = b.delay j) ∧
    (∀ j, (b.setStruck fn v).sem j = b.sem j) ∧ (∀ j, (b.setStruck fn v).halyard j = b.halyard j) ∧
    (∀ j, (b.setStruck fn v).cluster j = b.cluster j) ∧ (∀ j, (b.setStruck fn v).port j = b.port j) ∧
    (∀ j, (b.setStruck fn v).queue j = b.queue j) ∧ (∀ j, (b.setStruck fn v).packet j = b.packet j) ∧
    (∀ j, (b.setStruck fn v).key j = b.key j) ∧ (∀ j, (b.setStruck fn v).channel j = b.channel j) ∧
    (∀ j, (b.setStruck fn v).image j = b.image j) ∧ (∀ j, (b.setStruck fn v).carrier j = b.carrier j) ∧
    (∀ j, (b.setStruck fn v).feed j = b.feed j) ∧ (∀ j, (b.setStruck fn v).fru j = b.fru j) :=
  ⟨fun _ => rfl, fun _ => rfl, fun _ => rfl, fun _ => rfl, fun _ => rfl, fun _ => rfl, fun _ => rfl, fun _ => rfl,
  fun _ => rfl, fun _ => rfl, fun _ => rfl, fun _ => rfl, fun _ => rfl, fun _ => rfl, fun _ => rfl, fun _ => rfl,
  fun _ => rfl, fun _ => rfl⟩

/-! ### setSource -/

@[simp] theorem Blade.setSource_same (b : Blade) (s : Nat) (v : Source) : (b.setSource s v).source s = v := mget_mput_same _ s v _

theorem Blade.setSource_other (b : Blade) (s : Nat) (v : Source) (j : Nat) (h : j ≠ s) : (b.setSource s v).source j = b.source j := mget_mput_other _ v _ h

@[simp] theorem Blade.setSource_draws (b : Blade) (s : Nat) (v : Source) : (b.setSource s v).draws = b.draws := rfl
@[simp] theorem Blade.setSource_bladeB (b : Blade) (s : Nat) (v : Source) : (b.setSource s v).bladeB = b.bladeB := rfl
@[simp] theorem Blade.setSource_frame (b : Blade) (s : Nat) (v : Source) : (b.setSource s v).frame = b.frame := rfl
@[simp] theorem Blade.setSource_fineTicks (b : Blade) (s : Nat) (v : Source) : (b.setSource s v).fineTicks = b.fineTicks := rfl
@[simp] theorem Blade.setSource_response (b : Blade) (s : Nat) (v : Source) : (b.setSource s v).response = b.response := rfl
@[simp] theorem Blade.setSource_outputs (b : Blade) (s : Nat) (v : Source) : (b.setSource s v).outputs = b.outputs := rfl
@[simp] theorem Blade.setSource_csr (b : Blade) (s : Nat) (v : Source) : (b.setSource s v).csr = b.csr := rfl
@[simp] theorem Blade.setSource_net (b : Blade) (s : Nat) (v : Source) : (b.setSource s v).net = b.net := rfl
@[simp] theorem Blade.setSource_led (b : Blade) (s : Nat) (v : Source) : (b.setSource s v).led = b.led := rfl
@[simp] theorem Blade.setSource_ord (b : Blade) (s : Nat) (v : Source) : (b.setSource s v).ord = b.ord := rfl
@[simp] theorem Blade.setSource_bank (b : Blade) (s : Nat) (v : Source) : (b.setSource s v).bank = b.bank := rfl
@[simp] theorem Blade.setSource_pool (b : Blade) (s : Nat) (v : Source) : (b.setSource s v).pool = b.pool := rfl
@[simp] theorem Blade.setSource_lan (b : Blade) (s : Nat) (v : Source) : (b.setSource s v).lan = b.lan := rfl
@[simp] theorem Blade.setSource_eng (b : Blade) (s : Nat) (v : Source) : (b.setSource s v).eng = b.eng := rfl
@[simp] theorem Blade.setSource_pair (b : Blade) (s : Nat) (v : Source) : (b.setSource s v).pair = b.pair := rfl
@[simp] theorem Blade.setSource_hw (b : Blade) (s : Nat) (v : Source) : (b.setSource s v).hw = b.hw := rfl
@[simp] theorem Blade.setSource_flt_due (b : Blade) (s : Nat) (v : Source) : (b.setSource s v).flt.due = b.flt.due := rfl
@[simp] theorem Blade.setSource_flt_fatal (b : Blade) (s : Nat) (v : Source) : (b.setSource s v).flt.fatal = b.flt.fatal := rfl
@[simp] theorem Blade.setSource_flt_fencing (b : Blade) (s : Nat) (v : Source) : (b.setSource s v).flt.fencing = b.flt.fencing := rfl
@[simp] theorem Blade.setSource_flt_fenced (b : Blade) (s : Nat) (v : Source) : (b.setSource s v).flt.fenced = b.flt.fenced := rfl
@[simp] theorem Blade.setSource_flt_soloFence (b : Blade) (s : Nat) (v : Source) : (b.setSource s v).flt.soloFence = b.flt.soloFence := rfl
@[simp] theorem Blade.setSource_flt_kickFrames (b : Blade) (s : Nat) (v : Source) : (b.setSource s v).flt.kickFrames = b.flt.kickFrames := rfl
@[simp] theorem Blade.setSource_flt_windowLeft (b : Blade) (s : Nat) (v : Source) : (b.setSource s v).flt.windowLeft = b.flt.windowLeft := rfl
@[simp] theorem Blade.setSource_flt_aliveLevel (b : Blade) (s : Nat) (v : Source) : (b.setSource s v).flt.aliveLevel = b.flt.aliveLevel := rfl
@[simp] theorem Blade.setSource_flt_moduleLevel (b : Blade) (s : Nat) (v : Source) : (b.setSource s v).flt.moduleLevel = b.flt.moduleLevel := rfl
@[simp] theorem Blade.setSource_flt_moduleRuns (b : Blade) (s : Nat) (v : Source) : (b.setSource s v).flt.moduleRuns = b.flt.moduleRuns := rfl
@[simp] theorem Blade.setSource_flt_noSpareRow (b : Blade) (s : Nat) (v : Source) : (b.setSource s v).flt.noSpareRow = b.flt.noSpareRow := rfl
@[simp] theorem Blade.setSource_flt_ring (b : Blade) (s : Nat) (v : Source) : (b.setSource s v).flt.ring = b.flt.ring := rfl
@[simp] theorem Blade.setSource_flt_ringHurt (b : Blade) (s : Nat) (v : Source) : (b.setSource s v).flt.ringHurt = b.flt.ringHurt := rfl
@[simp] theorem Blade.setSource_flt_head (b : Blade) (s : Nat) (v : Source) : (b.setSource s v).flt.head = b.flt.head := rfl
@[simp] theorem Blade.setSource_flt_number (b : Blade) (s : Nat) (v : Source) : (b.setSource s v).flt.number = b.flt.number := rfl
@[simp] theorem Blade.setSource_flt_firstNumber (b : Blade) (s : Nat) (v : Source) : (b.setSource s v).flt.firstNumber = b.flt.firstNumber := rfl
@[simp] theorem Blade.setSource_flt_frozen (b : Blade) (s : Nat) (v : Source) : (b.setSource s v).flt.frozen = b.flt.frozen := rfl
@[simp] theorem Blade.setSource_flt_cause (b : Blade) (s : Nat) (v : Source) : (b.setSource s v).flt.cause = b.flt.cause := rfl
@[simp] theorem Blade.setSource_flt_freezeFrame (b : Blade) (s : Nat) (v : Source) : (b.setSource s v).flt.freezeFrame = b.flt.freezeFrame := rfl
@[simp] theorem Blade.setSource_flt_lost (b : Blade) (s : Nat) (v : Source) : (b.setSource s v).flt.lost = b.flt.lost := rfl
@[simp] theorem Blade.setSource_flt_saved (b : Blade) (s : Nat) (v : Source) : (b.setSource s v).flt.saved = b.flt.saved := rfl
@[simp] theorem Blade.setSource_flt_saveFailed (b : Blade) (s : Nat) (v : Source) : (b.setSource s v).flt.saveFailed = b.flt.saveFailed := rfl
@[simp] theorem Blade.setSource_flt_dumpDue (b : Blade) (s : Nat) (v : Source) : (b.setSource s v).flt.dumpDue = b.flt.dumpDue := rfl
@[simp] theorem Blade.setSource_flt_partnerDumps (b : Blade) (s : Nat) (v : Source) : (b.setSource s v).flt.partnerDumps = b.flt.partnerDumps := rfl

/-- setSource leaves every other family of the blade as it was. -/
@[simp] theorem Blade.setSource_others (b : Blade) (s : Nat) (v : Source) :
    (∀ j, (b.setSource s v).reg j = b.reg j) ∧ (∀ j, (b.setSource s v).struck j = b.struck j) ∧
    (∀ j, (b.setSource s v).ctx j = b.ctx j) ∧ (∀ j, (b.setSource s v).tile j = b.tile j) ∧
    (∀ j, (b.setSource s v).flow j = b.flow j) ∧ (∀ j, (b.setSource s v).delay j = b.delay j) ∧
    (∀ j, (b.setSource s v).sem j = b.sem j) ∧ (∀ j, (b.setSource s v).halyard j = b.halyard j) ∧
    (∀ j, (b.setSource s v).cluster j = b.cluster j) ∧ (∀ j, (b.setSource s v).port j = b.port j) ∧
    (∀ j, (b.setSource s v).queue j = b.queue j) ∧ (∀ j, (b.setSource s v).packet j = b.packet j) ∧
    (∀ j, (b.setSource s v).key j = b.key j) ∧ (∀ j, (b.setSource s v).channel j = b.channel j) ∧
    (∀ j, (b.setSource s v).image j = b.image j) ∧ (∀ j, (b.setSource s v).carrier j = b.carrier j) ∧
    (∀ j, (b.setSource s v).feed j = b.feed j) ∧ (∀ j, (b.setSource s v).fru j = b.fru j) :=
  ⟨fun _ => rfl, fun _ => rfl, fun _ => rfl, fun _ => rfl, fun _ => rfl, fun _ => rfl, fun _ => rfl, fun _ => rfl,
  fun _ => rfl, fun _ => rfl, fun _ => rfl, fun _ => rfl, fun _ => rfl, fun _ => rfl, fun _ => rfl, fun _ => rfl,
  fun _ => rfl, fun _ => rfl⟩

/-! ### setCtx -/

@[simp] theorem Blade.setCtx_same (b : Blade) (c : Nat) (v : Ctx) : (b.setCtx c v).ctx c = v := mget_mput_same _ c v _

theorem Blade.setCtx_other (b : Blade) (c : Nat) (v : Ctx) (j : Nat) (h : j ≠ c) : (b.setCtx c v).ctx j = b.ctx j := mget_mput_other _ v _ h

@[simp] theorem Blade.setCtx_draws (b : Blade) (c : Nat) (v : Ctx) : (b.setCtx c v).draws = b.draws := rfl
@[simp] theorem Blade.setCtx_bladeB (b : Blade) (c : Nat) (v : Ctx) : (b.setCtx c v).bladeB = b.bladeB := rfl
@[simp] theorem Blade.setCtx_frame (b : Blade) (c : Nat) (v : Ctx) : (b.setCtx c v).frame = b.frame := rfl
@[simp] theorem Blade.setCtx_fineTicks (b : Blade) (c : Nat) (v : Ctx) : (b.setCtx c v).fineTicks = b.fineTicks := rfl
@[simp] theorem Blade.setCtx_response (b : Blade) (c : Nat) (v : Ctx) : (b.setCtx c v).response = b.response := rfl
@[simp] theorem Blade.setCtx_outputs (b : Blade) (c : Nat) (v : Ctx) : (b.setCtx c v).outputs = b.outputs := rfl
@[simp] theorem Blade.setCtx_csr (b : Blade) (c : Nat) (v : Ctx) : (b.setCtx c v).csr = b.csr := rfl
@[simp] theorem Blade.setCtx_net (b : Blade) (c : Nat) (v : Ctx) : (b.setCtx c v).net = b.net := rfl
@[simp] theorem Blade.setCtx_ord (b : Blade) (c : Nat) (v : Ctx) : (b.setCtx c v).ord = b.ord := rfl
@[simp] theorem Blade.setCtx_bank (b : Blade) (c : Nat) (v : Ctx) : (b.setCtx c v).bank = b.bank := rfl
@[simp] theorem Blade.setCtx_pool (b : Blade) (c : Nat) (v : Ctx) : (b.setCtx c v).pool = b.pool := rfl
@[simp] theorem Blade.setCtx_lan (b : Blade) (c : Nat) (v : Ctx) : (b.setCtx c v).lan = b.lan := rfl
@[simp] theorem Blade.setCtx_eng (b : Blade) (c : Nat) (v : Ctx) : (b.setCtx c v).eng = b.eng := rfl
@[simp] theorem Blade.setCtx_flt (b : Blade) (c : Nat) (v : Ctx) : (b.setCtx c v).flt = b.flt := rfl
@[simp] theorem Blade.setCtx_pair (b : Blade) (c : Nat) (v : Ctx) : (b.setCtx c v).pair = b.pair := rfl
@[simp] theorem Blade.setCtx_hw (b : Blade) (c : Nat) (v : Ctx) : (b.setCtx c v).hw = b.hw := rfl
@[simp] theorem Blade.setCtx_led_free (b : Blade) (c : Nat) (v : Ctx) : (b.setCtx c v).led.free = b.led.free := rfl
@[simp] theorem Blade.setCtx_led_trail (b : Blade) (c : Nat) (v : Ctx) : (b.setCtx c v).led.trail = b.led.trail := rfl
@[simp] theorem Blade.setCtx_led_activeSlotB (b : Blade) (c : Nat) (v : Ctx) : (b.setCtx c v).led.activeSlotB = b.led.activeSlotB := rfl
@[simp] theorem Blade.setCtx_led_slotChange (b : Blade) (c : Nat) (v : Ctx) : (b.setCtx c v).led.slotChange = b.led.slotChange := rfl
@[simp] theorem Blade.setCtx_led_lostDescriptors (b : Blade) (c : Nat) (v : Ctx) : (b.setCtx c v).led.lostDescriptors = b.led.lostDescriptors := rfl
@[simp] theorem Blade.setCtx_led_parking (b : Blade) (c : Nat) (v : Ctx) : (b.setCtx c v).led.parking = b.led.parking := rfl
@[simp] theorem Blade.setCtx_led_parkRequests (b : Blade) (c : Nat) (v : Ctx) : (b.setCtx c v).led.parkRequests = b.led.parkRequests := rfl
@[simp] theorem Blade.setCtx_led_parked (b : Blade) (c : Nat) (v : Ctx) : (b.setCtx c v).led.parked = b.led.parked := rfl

/-- setCtx leaves every other family of the blade as it was. -/
@[simp] theorem Blade.setCtx_others (b : Blade) (c : Nat) (v : Ctx) :
    (∀ j, (b.setCtx c v).reg j = b.reg j) ∧ (∀ j, (b.setCtx c v).struck j = b.struck j) ∧
    (∀ j, (b.setCtx c v).source j = b.source j) ∧ (∀ j, (b.setCtx c v).tile j = b.tile j) ∧
    (∀ j, (b.setCtx c v).flow j = b.flow j) ∧ (∀ j, (b.setCtx c v).delay j = b.delay j) ∧
    (∀ j, (b.setCtx c v).sem j = b.sem j) ∧ (∀ j, (b.setCtx c v).halyard j = b.halyard j) ∧
    (∀ j, (b.setCtx c v).cluster j = b.cluster j) ∧ (∀ j, (b.setCtx c v).port j = b.port j) ∧
    (∀ j, (b.setCtx c v).queue j = b.queue j) ∧ (∀ j, (b.setCtx c v).packet j = b.packet j) ∧
    (∀ j, (b.setCtx c v).key j = b.key j) ∧ (∀ j, (b.setCtx c v).channel j = b.channel j) ∧
    (∀ j, (b.setCtx c v).image j = b.image j) ∧ (∀ j, (b.setCtx c v).carrier j = b.carrier j) ∧
    (∀ j, (b.setCtx c v).feed j = b.feed j) ∧ (∀ j, (b.setCtx c v).fru j = b.fru j) :=
  ⟨fun _ => rfl, fun _ => rfl, fun _ => rfl, fun _ => rfl, fun _ => rfl, fun _ => rfl, fun _ => rfl, fun _ => rfl,
  fun _ => rfl, fun _ => rfl, fun _ => rfl, fun _ => rfl, fun _ => rfl, fun _ => rfl, fun _ => rfl, fun _ => rfl,
  fun _ => rfl, fun _ => rfl⟩

/-! ### setTile -/

@[simp] theorem Blade.setTile_same (b : Blade) (t : Nat) (v : Tile) : (b.setTile t v).tile t = v := mget_mput_same _ t v _

theorem Blade.setTile_other (b : Blade) (t : Nat) (v : Tile) (j : Nat) (h : j ≠ t) : (b.setTile t v).tile j = b.tile j := mget_mput_other _ v _ h

@[simp] theorem Blade.setTile_draws (b : Blade) (t : Nat) (v : Tile) : (b.setTile t v).draws = b.draws := rfl
@[simp] theorem Blade.setTile_bladeB (b : Blade) (t : Nat) (v : Tile) : (b.setTile t v).bladeB = b.bladeB := rfl
@[simp] theorem Blade.setTile_frame (b : Blade) (t : Nat) (v : Tile) : (b.setTile t v).frame = b.frame := rfl
@[simp] theorem Blade.setTile_fineTicks (b : Blade) (t : Nat) (v : Tile) : (b.setTile t v).fineTicks = b.fineTicks := rfl
@[simp] theorem Blade.setTile_response (b : Blade) (t : Nat) (v : Tile) : (b.setTile t v).response = b.response := rfl
@[simp] theorem Blade.setTile_outputs (b : Blade) (t : Nat) (v : Tile) : (b.setTile t v).outputs = b.outputs := rfl
@[simp] theorem Blade.setTile_csr (b : Blade) (t : Nat) (v : Tile) : (b.setTile t v).csr = b.csr := rfl
@[simp] theorem Blade.setTile_led (b : Blade) (t : Nat) (v : Tile) : (b.setTile t v).led = b.led := rfl
@[simp] theorem Blade.setTile_ord (b : Blade) (t : Nat) (v : Tile) : (b.setTile t v).ord = b.ord := rfl
@[simp] theorem Blade.setTile_bank (b : Blade) (t : Nat) (v : Tile) : (b.setTile t v).bank = b.bank := rfl
@[simp] theorem Blade.setTile_pool (b : Blade) (t : Nat) (v : Tile) : (b.setTile t v).pool = b.pool := rfl
@[simp] theorem Blade.setTile_lan (b : Blade) (t : Nat) (v : Tile) : (b.setTile t v).lan = b.lan := rfl
@[simp] theorem Blade.setTile_eng (b : Blade) (t : Nat) (v : Tile) : (b.setTile t v).eng = b.eng := rfl
@[simp] theorem Blade.setTile_flt (b : Blade) (t : Nat) (v : Tile) : (b.setTile t v).flt = b.flt := rfl
@[simp] theorem Blade.setTile_pair (b : Blade) (t : Nat) (v : Tile) : (b.setTile t v).pair = b.pair := rfl
@[simp] theorem Blade.setTile_hw (b : Blade) (t : Nat) (v : Tile) : (b.setTile t v).hw = b.hw := rfl
@[simp] theorem Blade.setTile_net_home (b : Blade) (t : Nat) (v : Tile) : (b.setTile t v).net.home = b.net.home := rfl
@[simp] theorem Blade.setTile_net_release (b : Blade) (t : Nat) (v : Tile) : (b.setTile t v).net.release = b.net.release := rfl
@[simp] theorem Blade.setTile_net_delayIn (b : Blade) (t : Nat) (v : Tile) : (b.setTile t v).net.delayIn = b.net.delayIn := rfl
@[simp] theorem Blade.setTile_net_port44 (b : Blade) (t : Nat) (v : Tile) : (b.setTile t v).net.port44 = b.net.port44 := rfl
@[simp] theorem Blade.setTile_net_barrierHeld (b : Blade) (t : Nat) (v : Tile) : (b.setTile t v).net.barrierHeld = b.net.barrierHeld := rfl
@[simp] theorem Blade.setTile_net_rotors (b : Blade) (t : Nat) (v : Tile) : (b.setTile t v).net.rotors = b.net.rotors := rfl
@[simp] theorem Blade.setTile_net_tiling (b : Blade) (t : Nat) (v : Tile) : (b.setTile t v).net.tiling = b.net.tiling := rfl
@[simp] theorem Blade.setTile_net_activeTiles (b : Blade) (t : Nat) (v : Tile) : (b.setTile t v).net.activeTiles = b.net.activeTiles := rfl
@[simp] theorem Blade.setTile_net_spareValid (b : Blade) (t : Nat) (v : Tile) : (b.setTile t v).net.spareValid = b.net.spareValid := rfl
@[simp] theorem Blade.setTile_net_retiredTiles (b : Blade) (t : Nat) (v : Tile) : (b.setTile t v).net.retiredTiles = b.net.retiredTiles := rfl
@[simp] theorem Blade.setTile_net_failedTiles (b : Blade) (t : Nat) (v : Tile) : (b.setTile t v).net.failedTiles = b.net.failedTiles := rfl
@[simp] theorem Blade.setTile_net_migration (b : Blade) (t : Nat) (v : Tile) : (b.setTile t v).net.migration = b.net.migration := rfl
@[simp] theorem Blade.setTile_net_retireQueue (b : Blade) (t : Nat) (v : Tile) : (b.setTile t v).net.retireQueue = b.net.retireQueue := rfl
@[simp] theorem Blade.setTile_net_stamp (b : Blade) (t : Nat) (v : Tile) : (b.setTile t v).net.stamp = b.net.stamp := rfl
@[simp] theorem Blade.setTile_net_sets (b : Blade) (t : Nat) (v : Tile) : (b.setTile t v).net.sets = b.net.sets := rfl
@[simp] theorem Blade.setTile_net_progressed (b : Blade) (t : Nat) (v : Tile) : (b.setTile t v).net.progressed = b.net.progressed := rfl
@[simp] theorem Blade.setTile_net_stallFrames (b : Blade) (t : Nat) (v : Tile) : (b.setTile t v).net.stallFrames = b.net.stallFrames := rfl
@[simp] theorem Blade.setTile_net_stallUnresolved (b : Blade) (t : Nat) (v : Tile) : (b.setTile t v).net.stallUnresolved = b.net.stallUnresolved := rfl
@[simp] theorem Blade.setTile_net_stallTokens (b : Blade) (t : Nat) (v : Tile) : (b.setTile t v).net.stallTokens = b.net.stallTokens := rfl
@[simp] theorem Blade.setTile_net_stallWaiting (b : Blade) (t : Nat) (v : Tile) : (b.setTile t v).net.stallWaiting = b.net.stallWaiting := rfl
@[simp] theorem Blade.setTile_net_throttling (b : Blade) (t : Nat) (v : Tile) : (b.setTile t v).net.throttling = b.net.throttling := rfl
@[simp] theorem Blade.setTile_net_budgetTokens (b : Blade) (t : Nat) (v : Tile) : (b.setTile t v).net.budgetTokens = b.net.budgetTokens := rfl

/-- setTile leaves every other family of the blade as it was. -/
@[simp] theorem Blade.setTile_others (b : Blade) (t : Nat) (v : Tile) :
    (∀ j, (b.setTile t v).reg j = b.reg j) ∧ (∀ j, (b.setTile t v).struck j = b.struck j) ∧
    (∀ j, (b.setTile t v).source j = b.source j) ∧ (∀ j, (b.setTile t v).ctx j = b.ctx j) ∧
    (∀ j, (b.setTile t v).flow j = b.flow j) ∧ (∀ j, (b.setTile t v).delay j = b.delay j) ∧
    (∀ j, (b.setTile t v).sem j = b.sem j) ∧ (∀ j, (b.setTile t v).halyard j = b.halyard j) ∧
    (∀ j, (b.setTile t v).cluster j = b.cluster j) ∧ (∀ j, (b.setTile t v).port j = b.port j) ∧
    (∀ j, (b.setTile t v).queue j = b.queue j) ∧ (∀ j, (b.setTile t v).packet j = b.packet j) ∧
    (∀ j, (b.setTile t v).key j = b.key j) ∧ (∀ j, (b.setTile t v).channel j = b.channel j) ∧
    (∀ j, (b.setTile t v).image j = b.image j) ∧ (∀ j, (b.setTile t v).carrier j = b.carrier j) ∧
    (∀ j, (b.setTile t v).feed j = b.feed j) ∧ (∀ j, (b.setTile t v).fru j = b.fru j) :=
  ⟨fun _ => rfl, fun _ => rfl, fun _ => rfl, fun _ => rfl, fun _ => rfl, fun _ => rfl, fun _ => rfl, fun _ => rfl,
  fun _ => rfl, fun _ => rfl, fun _ => rfl, fun _ => rfl, fun _ => rfl, fun _ => rfl, fun _ => rfl, fun _ => rfl,
  fun _ => rfl, fun _ => rfl⟩

/-! ### setFlow -/

@[simp] theorem Blade.setFlow_same (b : Blade) (f : Nat) (v : Flow) : (b.setFlow f v).flow f = v := mget_mput_same _ f v _

theorem Blade.setFlow_other (b : Blade) (f : Nat) (v : Flow) (j : Nat) (h : j ≠ f) : (b.setFlow f v).flow j = b.flow j := mget_mput_other _ v _ h

@[simp] theorem Blade.setFlow_draws (b : Blade) (f : Nat) (v : Flow) : (b.setFlow f v).draws = b.draws := rfl
@[simp] theorem Blade.setFlow_bladeB (b : Blade) (f : Nat) (v : Flow) : (b.setFlow f v).bladeB = b.bladeB := rfl
@[simp] theorem Blade.setFlow_frame (b : Blade) (f : Nat) (v : Flow) : (b.setFlow f v).frame = b.frame := rfl
@[simp] theorem Blade.setFlow_fineTicks (b : Blade) (f : Nat) (v : Flow) : (b.setFlow f v).fineTicks = b.fineTicks := rfl
@[simp] theorem Blade.setFlow_response (b : Blade) (f : Nat) (v : Flow) : (b.setFlow f v).response = b.response := rfl
@[simp] theorem Blade.setFlow_outputs (b : Blade) (f : Nat) (v : Flow) : (b.setFlow f v).outputs = b.outputs := rfl
@[simp] theorem Blade.setFlow_csr (b : Blade) (f : Nat) (v : Flow) : (b.setFlow f v).csr = b.csr := rfl
@[simp] theorem Blade.setFlow_net (b : Blade) (f : Nat) (v : Flow) : (b.setFlow f v).net = b.net := rfl
@[simp] theorem Blade.setFlow_led (b : Blade) (f : Nat) (v : Flow) : (b.setFlow f v).led = b.led := rfl
@[simp] theorem Blade.setFlow_bank (b : Blade) (f : Nat) (v : Flow) : (b.setFlow f v).bank = b.bank := rfl
@[simp] theorem Blade.setFlow_pool (b : Blade) (f : Nat) (v : Flow) : (b.setFlow f v).pool = b.pool := rfl
@[simp] theorem Blade.setFlow_lan (b : Blade) (f : Nat) (v : Flow) : (b.setFlow f v).lan = b.lan := rfl
@[simp] theorem Blade.setFlow_eng (b : Blade) (f : Nat) (v : Flow) : (b.setFlow f v).eng = b.eng := rfl
@[simp] theorem Blade.setFlow_flt (b : Blade) (f : Nat) (v : Flow) : (b.setFlow f v).flt = b.flt := rfl
@[simp] theorem Blade.setFlow_pair (b : Blade) (f : Nat) (v : Flow) : (b.setFlow f v).pair = b.pair := rfl
@[simp] theorem Blade.setFlow_hw (b : Blade) (f : Nat) (v : Flow) : (b.setFlow f v).hw = b.hw := rfl
@[simp] theorem Blade.setFlow_ord_free (b : Blade) (f : Nat) (v : Flow) : (b.setFlow f v).ord.free = b.ord.free := rfl
@[simp] theorem Blade.setFlow_ord_booked (b : Blade) (f : Nat) (v : Flow) : (b.setFlow f v).ord.booked = b.ord.booked := rfl
@[simp] theorem Blade.setFlow_ord_headBooked (b : Blade) (f : Nat) (v : Flow) : (b.setFlow f v).ord.headBooked = b.ord.headBooked := rfl
@[simp] theorem Blade.setFlow_ord_delays (b : Blade) (f : Nat) (v : Flow) : (b.setFlow f v).ord.delays = b.ord.delays := rfl

/-- setFlow leaves every other family of the blade as it was. -/
@[simp] theorem Blade.setFlow_others (b : Blade) (f : Nat) (v : Flow) :
    (∀ j, (b.setFlow f v).reg j = b.reg j) ∧ (∀ j, (b.setFlow f v).struck j = b.struck j) ∧
    (∀ j, (b.setFlow f v).source j = b.source j) ∧ (∀ j, (b.setFlow f v).ctx j = b.ctx j) ∧
    (∀ j, (b.setFlow f v).tile j = b.tile j) ∧ (∀ j, (b.setFlow f v).delay j = b.delay j) ∧
    (∀ j, (b.setFlow f v).sem j = b.sem j) ∧ (∀ j, (b.setFlow f v).halyard j = b.halyard j) ∧
    (∀ j, (b.setFlow f v).cluster j = b.cluster j) ∧ (∀ j, (b.setFlow f v).port j = b.port j) ∧
    (∀ j, (b.setFlow f v).queue j = b.queue j) ∧ (∀ j, (b.setFlow f v).packet j = b.packet j) ∧
    (∀ j, (b.setFlow f v).key j = b.key j) ∧ (∀ j, (b.setFlow f v).channel j = b.channel j) ∧
    (∀ j, (b.setFlow f v).image j = b.image j) ∧ (∀ j, (b.setFlow f v).carrier j = b.carrier j) ∧
    (∀ j, (b.setFlow f v).feed j = b.feed j) ∧ (∀ j, (b.setFlow f v).fru j = b.fru j) :=
  ⟨fun _ => rfl, fun _ => rfl, fun _ => rfl, fun _ => rfl, fun _ => rfl, fun _ => rfl, fun _ => rfl, fun _ => rfl,
  fun _ => rfl, fun _ => rfl, fun _ => rfl, fun _ => rfl, fun _ => rfl, fun _ => rfl, fun _ => rfl, fun _ => rfl,
  fun _ => rfl, fun _ => rfl⟩

/-! ### setDelay -/

@[simp] theorem Blade.setDelay_same (b : Blade) (n : Nat) (v : DelayList) : (b.setDelay n v).delay n = v := mget_mput_same _ n v _

theorem Blade.setDelay_other (b : Blade) (n : Nat) (v : DelayList) (j : Nat) (h : j ≠ n) : (b.setDelay n v).delay j = b.delay j := mget_mput_other _ v _ h

@[simp] theorem Blade.setDelay_draws (b : Blade) (n : Nat) (v : DelayList) : (b.setDelay n v).draws = b.draws := rfl
@[simp] theorem Blade.setDelay_bladeB (b : Blade) (n : Nat) (v : DelayList) : (b.setDelay n v).bladeB = b.bladeB := rfl
@[simp] theorem Blade.setDelay_frame (b : Blade) (n : Nat) (v : DelayList) : (b.setDelay n v).frame = b.frame := rfl
@[simp] theorem Blade.setDelay_fineTicks (b : Blade) (n : Nat) (v : DelayList) : (b.setDelay n v).fineTicks = b.fineTicks := rfl
@[simp] theorem Blade.setDelay_response (b : Blade) (n : Nat) (v : DelayList) : (b.setDelay n v).response = b.response := rfl
@[simp] theorem Blade.setDelay_outputs (b : Blade) (n : Nat) (v : DelayList) : (b.setDelay n v).outputs = b.outputs := rfl
@[simp] theorem Blade.setDelay_csr (b : Blade) (n : Nat) (v : DelayList) : (b.setDelay n v).csr = b.csr := rfl
@[simp] theorem Blade.setDelay_net (b : Blade) (n : Nat) (v : DelayList) : (b.setDelay n v).net = b.net := rfl
@[simp] theorem Blade.setDelay_led (b : Blade) (n : Nat) (v : DelayList) : (b.setDelay n v).led = b.led := rfl
@[simp] theorem Blade.setDelay_bank (b : Blade) (n : Nat) (v : DelayList) : (b.setDelay n v).bank = b.bank := rfl
@[simp] theorem Blade.setDelay_pool (b : Blade) (n : Nat) (v : DelayList) : (b.setDelay n v).pool = b.pool := rfl
@[simp] theorem Blade.setDelay_lan (b : Blade) (n : Nat) (v : DelayList) : (b.setDelay n v).lan = b.lan := rfl
@[simp] theorem Blade.setDelay_eng (b : Blade) (n : Nat) (v : DelayList) : (b.setDelay n v).eng = b.eng := rfl
@[simp] theorem Blade.setDelay_flt (b : Blade) (n : Nat) (v : DelayList) : (b.setDelay n v).flt = b.flt := rfl
@[simp] theorem Blade.setDelay_pair (b : Blade) (n : Nat) (v : DelayList) : (b.setDelay n v).pair = b.pair := rfl
@[simp] theorem Blade.setDelay_hw (b : Blade) (n : Nat) (v : DelayList) : (b.setDelay n v).hw = b.hw := rfl
@[simp] theorem Blade.setDelay_ord_flows (b : Blade) (n : Nat) (v : DelayList) : (b.setDelay n v).ord.flows = b.ord.flows := rfl
@[simp] theorem Blade.setDelay_ord_free (b : Blade) (n : Nat) (v : DelayList) : (b.setDelay n v).ord.free = b.ord.free := rfl
@[simp] theorem Blade.setDelay_ord_booked (b : Blade) (n : Nat) (v : DelayList) : (b.setDelay n v).ord.booked = b.ord.booked := rfl
@[simp] theorem Blade.setDelay_ord_headBooked (b : Blade) (n : Nat) (v : DelayList) : (b.setDelay n v).ord.headBooked = b.ord.headBooked := rfl

/-- setDelay leaves every other family of the blade as it was. -/
@[simp] theorem Blade.setDelay_others (b : Blade) (n : Nat) (v : DelayList) :
    (∀ j, (b.setDelay n v).reg j = b.reg j) ∧ (∀ j, (b.setDelay n v).struck j = b.struck j) ∧
    (∀ j, (b.setDelay n v).source j = b.source j) ∧ (∀ j, (b.setDelay n v).ctx j = b.ctx j) ∧
    (∀ j, (b.setDelay n v).tile j = b.tile j) ∧ (∀ j, (b.setDelay n v).flow j = b.flow j) ∧
    (∀ j, (b.setDelay n v).sem j = b.sem j) ∧ (∀ j, (b.setDelay n v).halyard j = b.halyard j) ∧
    (∀ j, (b.setDelay n v).cluster j = b.cluster j) ∧ (∀ j, (b.setDelay n v).port j = b.port j) ∧
    (∀ j, (b.setDelay n v).queue j = b.queue j) ∧ (∀ j, (b.setDelay n v).packet j = b.packet j) ∧
    (∀ j, (b.setDelay n v).key j = b.key j) ∧ (∀ j, (b.setDelay n v).channel j = b.channel j) ∧
    (∀ j, (b.setDelay n v).image j = b.image j) ∧ (∀ j, (b.setDelay n v).carrier j = b.carrier j) ∧
    (∀ j, (b.setDelay n v).feed j = b.feed j) ∧ (∀ j, (b.setDelay n v).fru j = b.fru j) :=
  ⟨fun _ => rfl, fun _ => rfl, fun _ => rfl, fun _ => rfl, fun _ => rfl, fun _ => rfl, fun _ => rfl, fun _ => rfl,
  fun _ => rfl, fun _ => rfl, fun _ => rfl, fun _ => rfl, fun _ => rfl, fun _ => rfl, fun _ => rfl, fun _ => rfl,
  fun _ => rfl, fun _ => rfl⟩

/-! ### setSem -/

@[simp] theorem Blade.setSem_same (b : Blade) (n : Nat) (v : Semaphore) : (b.setSem n v).sem n = v := mget_mput_same _ n v _

theorem Blade.setSem_other (b : Blade) (n : Nat) (v : Semaphore) (j : Nat) (h : j ≠ n) : (b.setSem n v).sem j = b.sem j := mget_mput_other _ v _ h

@[simp] theorem Blade.setSem_draws (b : Blade) (n : Nat) (v : Semaphore) : (b.setSem n v).draws = b.draws := rfl
@[simp] theorem Blade.setSem_bladeB (b : Blade) (n : Nat) (v : Semaphore) : (b.setSem n v).bladeB = b.bladeB := rfl
@[simp] theorem Blade.setSem_frame (b : Blade) (n : Nat) (v : Semaphore) : (b.setSem n v).frame = b.frame := rfl
@[simp] theorem Blade.setSem_fineTicks (b : Blade) (n : Nat) (v : Semaphore) : (b.setSem n v).fineTicks = b.fineTicks := rfl
@[simp] theorem Blade.setSem_response (b : Blade) (n : Nat) (v : Semaphore) : (b.setSem n v).response = b.response := rfl
@[simp] theorem Blade.setSem_outputs (b : Blade) (n : Nat) (v : Semaphore) : (b.setSem n v).outputs = b.outputs := rfl
@[simp] theorem Blade.setSem_csr (b : Blade) (n : Nat) (v : Semaphore) : (b.setSem n v).csr = b.csr := rfl
@[simp] theorem Blade.setSem_net (b : Blade) (n : Nat) (v : Semaphore) : (b.setSem n v).net = b.net := rfl
@[simp] theorem Blade.setSem_led (b : Blade) (n : Nat) (v : Semaphore) : (b.setSem n v).led = b.led := rfl
@[simp] theorem Blade.setSem_ord (b : Blade) (n : Nat) (v : Semaphore) : (b.setSem n v).ord = b.ord := rfl
@[simp] theorem Blade.setSem_pool (b : Blade) (n : Nat) (v : Semaphore) : (b.setSem n v).pool = b.pool := rfl
@[simp] theorem Blade.setSem_lan (b : Blade) (n : Nat) (v : Semaphore) : (b.setSem n v).lan = b.lan := rfl
@[simp] theorem Blade.setSem_eng (b : Blade) (n : Nat) (v : Semaphore) : (b.setSem n v).eng = b.eng := rfl
@[simp] theorem Blade.setSem_flt (b : Blade) (n : Nat) (v : Semaphore) : (b.setSem n v).flt = b.flt := rfl
@[simp] theorem Blade.setSem_pair (b : Blade) (n : Nat) (v : Semaphore) : (b.setSem n v).pair = b.pair := rfl
@[simp] theorem Blade.setSem_hw (b : Blade) (n : Nat) (v : Semaphore) : (b.setSem n v).hw = b.hw := rfl
@[simp] theorem Blade.setSem_bank_march (b : Blade) (n : Nat) (v : Semaphore) : (b.setSem n v).bank.march = b.bank.march := rfl
@[simp] theorem Blade.setSem_bank_repair (b : Blade) (n : Nat) (v : Semaphore) : (b.setSem n v).bank.repair = b.bank.repair := rfl
@[simp] theorem Blade.setSem_bank_zeroed (b : Blade) (n : Nat) (v : Semaphore) : (b.setSem n v).bank.zeroed = b.bank.zeroed := rfl

/-- setSem leaves every other family of the blade as it was. -/
@[simp] theorem Blade.setSem_others (b : Blade) (n : Nat) (v : Semaphore) :
    (∀ j, (b.setSem n v).reg j = b.reg j) ∧ (∀ j, (b.setSem n v).struck j = b.struck j) ∧
    (∀ j, (b.setSem n v).source j = b.source j) ∧ (∀ j, (b.setSem n v).ctx j = b.ctx j) ∧
    (∀ j, (b.setSem n v).tile j = b.tile j) ∧ (∀ j, (b.setSem n v).flow j = b.flow j) ∧
    (∀ j, (b.setSem n v).delay j = b.delay j) ∧ (∀ j, (b.setSem n v).halyard j = b.halyard j) ∧
    (∀ j, (b.setSem n v).cluster j = b.cluster j) ∧ (∀ j, (b.setSem n v).port j = b.port j) ∧
    (∀ j, (b.setSem n v).queue j = b.queue j) ∧ (∀ j, (b.setSem n v).packet j = b.packet j) ∧
    (∀ j, (b.setSem n v).key j = b.key j) ∧ (∀ j, (b.setSem n v).channel j = b.channel j) ∧
    (∀ j, (b.setSem n v).image j = b.image j) ∧ (∀ j, (b.setSem n v).carrier j = b.carrier j) ∧
    (∀ j, (b.setSem n v).feed j = b.feed j) ∧ (∀ j, (b.setSem n v).fru j = b.fru j) :=
  ⟨fun _ => rfl, fun _ => rfl, fun _ => rfl, fun _ => rfl, fun _ => rfl, fun _ => rfl, fun _ => rfl, fun _ => rfl,
  fun _ => rfl, fun _ => rfl, fun _ => rfl, fun _ => rfl, fun _ => rfl, fun _ => rfl, fun _ => rfl, fun _ => rfl,
  fun _ => rfl, fun _ => rfl⟩

/-! ### setHalyard -/

@[simp] theorem Blade.setHalyard_same (b : Blade) (l : Nat) (v : Halyard) : (b.setHalyard l v).halyard l = v := mget_mput_same _ l v _

theorem Blade.setHalyard_other (b : Blade) (l : Nat) (v : Halyard) (j : Nat) (h : j ≠ l) : (b.setHalyard l v).halyard j = b.halyard j := mget_mput_other _ v _ h

@[simp] theorem Blade.setHalyard_draws (b : Blade) (l : Nat) (v : Halyard) : (b.setHalyard l v).draws = b.draws := rfl
@[simp] theorem Blade.setHalyard_bladeB (b : Blade) (l : Nat) (v : Halyard) : (b.setHalyard l v).bladeB = b.bladeB := rfl
@[simp] theorem Blade.setHalyard_frame (b : Blade) (l : Nat) (v : Halyard) : (b.setHalyard l v).frame = b.frame := rfl
@[simp] theorem Blade.setHalyard_fineTicks (b : Blade) (l : Nat) (v : Halyard) : (b.setHalyard l v).fineTicks = b.fineTicks := rfl
@[simp] theorem Blade.setHalyard_response (b : Blade) (l : Nat) (v : Halyard) : (b.setHalyard l v).response = b.response := rfl
@[simp] theorem Blade.setHalyard_outputs (b : Blade) (l : Nat) (v : Halyard) : (b.setHalyard l v).outputs = b.outputs := rfl
@[simp] theorem Blade.setHalyard_csr (b : Blade) (l : Nat) (v : Halyard) : (b.setHalyard l v).csr = b.csr := rfl
@[simp] theorem Blade.setHalyard_net (b : Blade) (l : Nat) (v : Halyard) : (b.setHalyard l v).net = b.net := rfl
@[simp] theorem Blade.setHalyard_led (b : Blade) (l : Nat) (v : Halyard) : (b.setHalyard l v).led = b.led := rfl
@[simp] theorem Blade.setHalyard_ord (b : Blade) (l : Nat) (v : Halyard) : (b.setHalyard l v).ord = b.ord := rfl
@[simp] theorem Blade.setHalyard_bank (b : Blade) (l : Nat) (v : Halyard) : (b.setHalyard l v).bank = b.bank := rfl
@[simp] theorem Blade.setHalyard_pool (b : Blade) (l : Nat) (v : Halyard) : (b.setHalyard l v).pool = b.pool := rfl
@[simp] theorem Blade.setHalyard_eng (b : Blade) (l : Nat) (v : Halyard) : (b.setHalyard l v).eng = b.eng := rfl
@[simp] theorem Blade.setHalyard_flt (b : Blade) (l : Nat) (v : Halyard) : (b.setHalyard l v).flt = b.flt := rfl
@[simp] theorem Blade.setHalyard_pair (b : Blade) (l : Nat) (v : Halyard) : (b.setHalyard l v).pair = b.pair := rfl
@[simp] theorem Blade.setHalyard_hw (b : Blade) (l : Nat) (v : Halyard) : (b.setHalyard l v).hw = b.hw := rfl
@[simp] theorem Blade.setHalyard_lan_clusters (b : Blade) (l : Nat) (v : Halyard) : (b.setHalyard l v).lan.clusters = b.lan.clusters := rfl
@[simp] theorem Blade.setHalyard_lan_ports (b : Blade) (l : Nat) (v : Halyard) : (b.setHalyard l v).lan.ports = b.lan.ports := rfl

/-- setHalyard leaves every other family of the blade as it was. -/
@[simp] theorem Blade.setHalyard_others (b : Blade) (l : Nat) (v : Halyard) :
    (∀ j, (b.setHalyard l v).reg j = b.reg j) ∧ (∀ j, (b.setHalyard l v).struck j = b.struck j) ∧
    (∀ j, (b.setHalyard l v).source j = b.source j) ∧ (∀ j, (b.setHalyard l v).ctx j = b.ctx j) ∧
    (∀ j, (b.setHalyard l v).tile j = b.tile j) ∧ (∀ j, (b.setHalyard l v).flow j = b.flow j) ∧
    (∀ j, (b.setHalyard l v).delay j = b.delay j) ∧ (∀ j, (b.setHalyard l v).sem j = b.sem j) ∧
    (∀ j, (b.setHalyard l v).cluster j = b.cluster j) ∧ (∀ j, (b.setHalyard l v).port j = b.port j) ∧
    (∀ j, (b.setHalyard l v).queue j = b.queue j) ∧ (∀ j, (b.setHalyard l v).packet j = b.packet j) ∧
    (∀ j, (b.setHalyard l v).key j = b.key j) ∧ (∀ j, (b.setHalyard l v).channel j = b.channel j) ∧
    (∀ j, (b.setHalyard l v).image j = b.image j) ∧ (∀ j, (b.setHalyard l v).carrier j = b.carrier j) ∧
    (∀ j, (b.setHalyard l v).feed j = b.feed j) ∧ (∀ j, (b.setHalyard l v).fru j = b.fru j) :=
  ⟨fun _ => rfl, fun _ => rfl, fun _ => rfl, fun _ => rfl, fun _ => rfl, fun _ => rfl, fun _ => rfl, fun _ => rfl,
  fun _ => rfl, fun _ => rfl, fun _ => rfl, fun _ => rfl, fun _ => rfl, fun _ => rfl, fun _ => rfl, fun _ => rfl,
  fun _ => rfl, fun _ => rfl⟩

/-! ### setCluster -/

@[simp] theorem Blade.setCluster_same (b : Blade) (c : Nat) (v : Cluster) : (b.setCluster c v).cluster c = v := mget_mput_same _ c v _

theorem Blade.setCluster_other (b : Blade) (c : Nat) (v : Cluster) (j : Nat) (h : j ≠ c) : (b.setCluster c v).cluster j = b.cluster j := mget_mput_other _ v _ h

@[simp] theorem Blade.setCluster_draws (b : Blade) (c : Nat) (v : Cluster) : (b.setCluster c v).draws = b.draws := rfl
@[simp] theorem Blade.setCluster_bladeB (b : Blade) (c : Nat) (v : Cluster) : (b.setCluster c v).bladeB = b.bladeB := rfl
@[simp] theorem Blade.setCluster_frame (b : Blade) (c : Nat) (v : Cluster) : (b.setCluster c v).frame = b.frame := rfl
@[simp] theorem Blade.setCluster_fineTicks (b : Blade) (c : Nat) (v : Cluster) : (b.setCluster c v).fineTicks = b.fineTicks := rfl
@[simp] theorem Blade.setCluster_response (b : Blade) (c : Nat) (v : Cluster) : (b.setCluster c v).response = b.response := rfl
@[simp] theorem Blade.setCluster_outputs (b : Blade) (c : Nat) (v : Cluster) : (b.setCluster c v).outputs = b.outputs := rfl
@[simp] theorem Blade.setCluster_csr (b : Blade) (c : Nat) (v : Cluster) : (b.setCluster c v).csr = b.csr := rfl
@[simp] theorem Blade.setCluster_net (b : Blade) (c : Nat) (v : Cluster) : (b.setCluster c v).net = b.net := rfl
@[simp] theorem Blade.setCluster_led (b : Blade) (c : Nat) (v : Cluster) : (b.setCluster c v).led = b.led := rfl
@[simp] theorem Blade.setCluster_ord (b : Blade) (c : Nat) (v : Cluster) : (b.setCluster c v).ord = b.ord := rfl
@[simp] theorem Blade.setCluster_bank (b : Blade) (c : Nat) (v : Cluster) : (b.setCluster c v).bank = b.bank := rfl
@[simp] theorem Blade.setCluster_pool (b : Blade) (c : Nat) (v : Cluster) : (b.setCluster c v).pool = b.pool := rfl
@[simp] theorem Blade.setCluster_eng (b : Blade) (c : Nat) (v : Cluster) : (b.setCluster c v).eng = b.eng := rfl
@[simp] theorem Blade.setCluster_flt (b : Blade) (c : Nat) (v : Cluster) : (b.setCluster c v).flt = b.flt := rfl
@[simp] theorem Blade.setCluster_pair (b : Blade) (c : Nat) (v : Cluster) : (b.setCluster c v).pair = b.pair := rfl
@[simp] theorem Blade.setCluster_hw (b : Blade) (c : Nat) (v : Cluster) : (b.setCluster c v).hw = b.hw := rfl
@[simp] theorem Blade.setCluster_lan_halyards (b : Blade) (c : Nat) (v : Cluster) : (b.setCluster c v).lan.halyards = b.lan.halyards := rfl
@[simp] theorem Blade.setCluster_lan_ports (b : Blade) (c : Nat) (v : Cluster) : (b.setCluster c v).lan.ports = b.lan.ports := rfl

/-- setCluster leaves every other family of the blade as it was. -/
@[simp] theorem Blade.setCluster_others (b : Blade) (c : Nat) (v : Cluster) :
    (∀ j, (b.setCluster c v).reg j = b.reg j) ∧ (∀ j, (b.setCluster c v).struck j = b.struck j) ∧
    (∀ j, (b.setCluster c v).source j = b.source j) ∧ (∀ j, (b.setCluster c v).ctx j = b.ctx j) ∧
    (∀ j, (b.setCluster c v).tile j = b.tile j) ∧ (∀ j, (b.setCluster c v).flow j = b.flow j) ∧
    (∀ j, (b.setCluster c v).delay j = b.delay j) ∧ (∀ j, (b.setCluster c v).sem j = b.sem j) ∧
    (∀ j, (b.setCluster c v).halyard j = b.halyard j) ∧ (∀ j, (b.setCluster c v).port j = b.port j) ∧
    (∀ j, (b.setCluster c v).queue j = b.queue j) ∧ (∀ j, (b.setCluster c v).packet j = b.packet j) ∧
    (∀ j, (b.setCluster c v).key j = b.key j) ∧ (∀ j, (b.setCluster c v).channel j = b.channel j) ∧
    (∀ j, (b.setCluster c v).image j = b.image j) ∧ (∀ j, (b.setCluster c v).carrier j = b.carrier j) ∧
    (∀ j, (b.setCluster c v).feed j = b.feed j) ∧ (∀ j, (b.setCluster c v).fru j = b.fru j) :=
  ⟨fun _ => rfl, fun _ => rfl, fun _ => rfl, fun _ => rfl, fun _ => rfl, fun _ => rfl, fun _ => rfl, fun _ => rfl,
  fun _ => rfl, fun _ => rfl, fun _ => rfl, fun _ => rfl, fun _ => rfl, fun _ => rfl, fun _ => rfl, fun _ => rfl,
  fun _ => rfl, fun _ => rfl⟩

/-! ### setPort -/

@[simp] theorem Blade.setPort_same (b : Blade) (l : Nat) (v : LanePort) : (b.setPort l v).port l = v := mget_mput_same _ l v _

theorem Blade.setPort_other (b : Blade) (l : Nat) (v : LanePort) (j : Nat) (h : j ≠ l) : (b.setPort l v).port j = b.port j := mget_mput_other _ v _ h

@[simp] theorem Blade.setPort_draws (b : Blade) (l : Nat) (v : LanePort) : (b.setPort l v).draws = b.draws := rfl
@[simp] theorem Blade.setPort_bladeB (b : Blade) (l : Nat) (v : LanePort) : (b.setPort l v).bladeB = b.bladeB := rfl
@[simp] theorem Blade.setPort_frame (b : Blade) (l : Nat) (v : LanePort) : (b.setPort l v).frame = b.frame := rfl
@[simp] theorem Blade.setPort_fineTicks (b : Blade) (l : Nat) (v : LanePort) : (b.setPort l v).fineTicks = b.fineTicks := rfl
@[simp] theorem Blade.setPort_response (b : Blade) (l : Nat) (v : LanePort) : (b.setPort l v).response = b.response := rfl
@[simp] theorem Blade.setPort_outputs (b : Blade) (l : Nat) (v : LanePort) : (b.setPort l v).outputs = b.outputs := rfl
@[simp] theorem Blade.setPort_csr (b : Blade) (l : Nat) (v : LanePort) : (b.setPort l v).csr = b.csr := rfl
@[simp] theorem Blade.setPort_net (b : Blade) (l : Nat) (v : LanePort) : (b.setPort l v).net = b.net := rfl
@[simp] theorem Blade.setPort_led (b : Blade) (l : Nat) (v : LanePort) : (b.setPort l v).led = b.led := rfl
@[simp] theorem Blade.setPort_ord (b : Blade) (l : Nat) (v : LanePort) : (b.setPort l v).ord = b.ord := rfl
@[simp] theorem Blade.setPort_bank (b : Blade) (l : Nat) (v : LanePort) : (b.setPort l v).bank = b.bank := rfl
@[simp] theorem Blade.setPort_pool (b : Blade) (l : Nat) (v : LanePort) : (b.setPort l v).pool = b.pool := rfl
@[simp] theorem Blade.setPort_eng (b : Blade) (l : Nat) (v : LanePort) : (b.setPort l v).eng = b.eng := rfl
@[simp] theorem Blade.setPort_flt (b : Blade) (l : Nat) (v : LanePort) : (b.setPort l v).flt = b.flt := rfl
@[simp] theorem Blade.setPort_pair (b : Blade) (l : Nat) (v : LanePort) : (b.setPort l v).pair = b.pair := rfl
@[simp] theorem Blade.setPort_hw (b : Blade) (l : Nat) (v : LanePort) : (b.setPort l v).hw = b.hw := rfl
@[simp] theorem Blade.setPort_lan_clusters (b : Blade) (l : Nat) (v : LanePort) : (b.setPort l v).lan.clusters = b.lan.clusters := rfl
@[simp] theorem Blade.setPort_lan_halyards (b : Blade) (l : Nat) (v : LanePort) : (b.setPort l v).lan.halyards = b.lan.halyards := rfl

/-- setPort leaves every other family of the blade as it was. -/
@[simp] theorem Blade.setPort_others (b : Blade) (l : Nat) (v : LanePort) :
    (∀ j, (b.setPort l v).reg j = b.reg j) ∧ (∀ j, (b.setPort l v).struck j = b.struck j) ∧
    (∀ j, (b.setPort l v).source j = b.source j) ∧ (∀ j, (b.setPort l v).ctx j = b.ctx j) ∧
    (∀ j, (b.setPort l v).tile j = b.tile j) ∧ (∀ j, (b.setPort l v).flow j = b.flow j) ∧
    (∀ j, (b.setPort l v).delay j = b.delay j) ∧ (∀ j, (b.setPort l v).sem j = b.sem j) ∧
    (∀ j, (b.setPort l v).halyard j = b.halyard j) ∧ (∀ j, (b.setPort l v).cluster j = b.cluster j) ∧
    (∀ j, (b.setPort l v).queue j = b.queue j) ∧ (∀ j, (b.setPort l v).packet j = b.packet j) ∧
    (∀ j, (b.setPort l v).key j = b.key j) ∧ (∀ j, (b.setPort l v).channel j = b.channel j) ∧
    (∀ j, (b.setPort l v).image j = b.image j) ∧ (∀ j, (b.setPort l v).carrier j = b.carrier j) ∧
    (∀ j, (b.setPort l v).feed j = b.feed j) ∧ (∀ j, (b.setPort l v).fru j = b.fru j) :=
  ⟨fun _ => rfl, fun _ => rfl, fun _ => rfl, fun _ => rfl, fun _ => rfl, fun _ => rfl, fun _ => rfl, fun _ => rfl,
  fun _ => rfl, fun _ => rfl, fun _ => rfl, fun _ => rfl, fun _ => rfl, fun _ => rfl, fun _ => rfl, fun _ => rfl,
  fun _ => rfl, fun _ => rfl⟩

/-! ### setQueue -/

@[simp] theorem Blade.setQueue_same (b : Blade) (q : Nat) (v : Queue) : (b.setQueue q v).queue q = v := mget_mput_same _ q v _

theorem Blade.setQueue_other (b : Blade) (q : Nat) (v : Queue) (j : Nat) (h : j ≠ q) : (b.setQueue q v).queue j = b.queue j := by
  simp only [Blade.queue, Blade.setQueue, mput]
  split
  · exact mget_filter_other _ _ h
  · exact mget_minsert_other _ _ _ h

@[simp] theorem Blade.setQueue_draws (b : Blade) (q : Nat) (v : Queue) : (b.setQueue q v).draws = b.draws := rfl
@[simp] theorem Blade.setQueue_bladeB (b : Blade) (q : Nat) (v : Queue) : (b.setQueue q v).bladeB = b.bladeB := rfl
@[simp] theorem Blade.setQueue_frame (b : Blade) (q : Nat) (v : Queue) : (b.setQueue q v).frame = b.frame := rfl
@[simp] theorem Blade.setQueue_fineTicks (b : Blade) (q : Nat) (v : Queue) : (b.setQueue q v).fineTicks = b.fineTicks := rfl
@[simp] theorem Blade.setQueue_response (b : Blade) (q : Nat) (v : Queue) : (b.setQueue q v).response = b.response := rfl
@[simp] theorem Blade.setQueue_outputs (b : Blade) (q : Nat) (v : Queue) : (b.setQueue q v).outputs = b.outputs := rfl
@[simp] theorem Blade.setQueue_csr (b : Blade) (q : Nat) (v : Queue) : (b.setQueue q v).csr = b.csr := rfl
@[simp] theorem Blade.setQueue_net (b : Blade) (q : Nat) (v : Queue) : (b.setQueue q v).net = b.net := rfl
@[simp] theorem Blade.setQueue_led (b : Blade) (q : Nat) (v : Queue) : (b.setQueue q v).led = b.led := rfl
@[simp] theorem Blade.setQueue_ord (b : Blade) (q : Nat) (v : Queue) : (b.setQueue q v).ord = b.ord := rfl
@[simp] theorem Blade.setQueue_bank (b : Blade) (q : Nat) (v : Queue) : (b.setQueue q v).bank = b.bank := rfl
@[simp] theorem Blade.setQueue_lan (b : Blade) (q : Nat) (v : Queue) : (b.setQueue q v).lan = b.lan := rfl
@[simp] theorem Blade.setQueue_eng (b : Blade) (q : Nat) (v : Queue) : (b.setQueue q v).eng = b.eng := rfl
@[simp] theorem Blade.setQueue_flt (b : Blade) (q : Nat) (v : Queue) : (b.setQueue q v).flt = b.flt := rfl
@[simp] theorem Blade.setQueue_pair (b : Blade) (q : Nat) (v : Queue) : (b.setQueue q v).pair = b.pair := rfl
@[simp] theorem Blade.setQueue_hw (b : Blade) (q : Nat) (v : Queue) : (b.setQueue q v).hw = b.hw := rfl
@[simp] theorem Blade.setQueue_pool_free (b : Blade) (q : Nat) (v : Queue) : (b.setQueue q v).pool.free = b.pool.free := rfl
@[simp] theorem Blade.setQueue_pool_packets (b : Blade) (q : Nat) (v : Queue) : (b.setQueue q v).pool.packets = b.pool.packets := rfl
@[simp] theorem Blade.setQueue_pool_next (b : Blade) (q : Nat) (v : Queue) : (b.setQueue q v).pool.next = b.pool.next := rfl
@[simp] theorem Blade.setQueue_pool_cursors (b : Blade) (q : Nat) (v : Queue) : (b.setQueue q v).pool.cursors = b.pool.cursors := rfl
@[simp] theorem Blade.setQueue_pool_waiting (b : Blade) (q : Nat) (v : Queue) : (b.setQueue q v).pool.waiting = b.pool.waiting := rfl
@[simp] theorem Blade.setQueue_pool_lost (b : Blade) (q : Nat) (v : Queue) : (b.setQueue q v).pool.lost = b.pool.lost := rfl

/-- setQueue leaves every other family of the blade as it was. -/
@[simp] theorem Blade.setQueue_others (b : Blade) (q : Nat) (v : Queue) :
    (∀ j, (b.setQueue q v).reg j = b.reg j) ∧ (∀ j, (b.setQueue q v).struck j = b.struck j) ∧
    (∀ j, (b.setQueue q v).source j = b.source j) ∧ (∀ j, (b.setQueue q v).ctx j = b.ctx j) ∧
    (∀ j, (b.setQueue q v).tile j = b.tile j) ∧ (∀ j, (b.setQueue q v).flow j = b.flow j) ∧
    (∀ j, (b.setQueue q v).delay j = b.delay j) ∧ (∀ j, (b.setQueue q v).sem j = b.sem j) ∧
    (∀ j, (b.setQueue q v).halyard j = b.halyard j) ∧ (∀ j, (b.setQueue q v).cluster j = b.cluster j) ∧
    (∀ j, (b.setQueue q v).port j = b.port j) ∧ (∀ j, (b.setQueue q v).packet j = b.packet j) ∧
    (∀ j, (b.setQueue q v).key j = b.key j) ∧ (∀ j, (b.setQueue q v).channel j = b.channel j) ∧
    (∀ j, (b.setQueue q v).image j = b.image j) ∧ (∀ j, (b.setQueue q v).carrier j = b.carrier j) ∧
    (∀ j, (b.setQueue q v).feed j = b.feed j) ∧ (∀ j, (b.setQueue q v).fru j = b.fru j) :=
  ⟨fun _ => rfl, fun _ => rfl, fun _ => rfl, fun _ => rfl, fun _ => rfl, fun _ => rfl, fun _ => rfl, fun _ => rfl,
  fun _ => rfl, fun _ => rfl, fun _ => rfl, fun _ => rfl, fun _ => rfl, fun _ => rfl, fun _ => rfl, fun _ => rfl,
  fun _ => rfl, fun _ => rfl⟩

/-! ### setPacket -/

@[simp] theorem Blade.setPacket_same (b : Blade) (i : Nat) (v : Packet) : (b.setPacket i v).packet i = v := mget_mput_same _ i v _

theorem Blade.setPacket_other (b : Blade) (i : Nat) (v : Packet) (j : Nat) (h : j ≠ i) : (b.setPacket i v).packet j = b.packet j := mget_mput_other _ v _ h

@[simp] theorem Blade.setPacket_draws (b : Blade) (i : Nat) (v : Packet) : (b.setPacket i v).draws = b.draws := rfl
@[simp] theorem Blade.setPacket_bladeB (b : Blade) (i : Nat) (v : Packet) : (b.setPacket i v).bladeB = b.bladeB := rfl
@[simp] theorem Blade.setPacket_frame (b : Blade) (i : Nat) (v : Packet) : (b.setPacket i v).frame = b.frame := rfl
@[simp] theorem Blade.setPacket_fineTicks (b : Blade) (i : Nat) (v : Packet) : (b.setPacket i v).fineTicks = b.fineTicks := rfl
@[simp] theorem Blade.setPacket_response (b : Blade) (i : Nat) (v : Packet) : (b.setPacket i v).response = b.response := rfl
@[simp] theorem Blade.setPacket_outputs (b : Blade) (i : Nat) (v : Packet) : (b.setPacket i v).outputs = b.outputs := rfl
@[simp] theorem Blade.setPacket_csr (b : Blade) (i : Nat) (v : Packet) : (b.setPacket i v).csr = b.csr := rfl
@[simp] theorem Blade.setPacket_net (b : Blade) (i : Nat) (v : Packet) : (b.setPacket i v).net = b.net := rfl
@[simp] theorem Blade.setPacket_led (b : Blade) (i : Nat) (v : Packet) : (b.setPacket i v).led = b.led := rfl
@[simp] theorem Blade.setPacket_ord (b : Blade) (i : Nat) (v : Packet) : (b.setPacket i v).ord = b.ord := rfl
@[simp] theorem Blade.setPacket_bank (b : Blade) (i : Nat) (v : Packet) : (b.setPacket i v).bank = b.bank := rfl
@[simp] theorem Blade.setPacket_lan (b : Blade) (i : Nat) (v : Packet) : (b.setPacket i v).lan = b.lan := rfl
@[simp] theorem Blade.setPacket_eng (b : Blade) (i : Nat) (v : Packet) : (b.setPacket i v).eng = b.eng := rfl
@[simp] theorem Blade.setPacket_flt (b : Blade) (i : Nat) (v : Packet) : (b.setPacket i v).flt = b.flt := rfl
@[simp] theorem Blade.setPacket_pair (b : Blade) (i : Nat) (v : Packet) : (b.setPacket i v).pair = b.pair := rfl
@[simp] theorem Blade.setPacket_hw (b : Blade) (i : Nat) (v : Packet) : (b.setPacket i v).hw = b.hw := rfl
@[simp] theorem Blade.setPacket_pool_free (b : Blade) (i : Nat) (v : Packet) : (b.setPacket i v).pool.free = b.pool.free := rfl
@[simp] theorem Blade.setPacket_pool_next (b : Blade) (i : Nat) (v : Packet) : (b.setPacket i v).pool.next = b.pool.next := rfl
@[simp] theorem Blade.setPacket_pool_queues (b : Blade) (i : Nat) (v : Packet) : (b.setPacket i v).pool.queues = b.pool.queues := rfl
@[simp] theorem Blade.setPacket_pool_cursors (b : Blade) (i : Nat) (v : Packet) : (b.setPacket i v).pool.cursors = b.pool.cursors := rfl
@[simp] theorem Blade.setPacket_pool_waiting (b : Blade) (i : Nat) (v : Packet) : (b.setPacket i v).pool.waiting = b.pool.waiting := rfl
@[simp] theorem Blade.setPacket_pool_lost (b : Blade) (i : Nat) (v : Packet) : (b.setPacket i v).pool.lost = b.pool.lost := rfl

/-- setPacket leaves every other family of the blade as it was. -/
@[simp] theorem Blade.setPacket_others (b : Blade) (i : Nat) (v : Packet) :
    (∀ j, (b.setPacket i v).reg j = b.reg j) ∧ (∀ j, (b.setPacket i v).struck j = b.struck j) ∧
    (∀ j, (b.setPacket i v).source j = b.source j) ∧ (∀ j, (b.setPacket i v).ctx j = b.ctx j) ∧
    (∀ j, (b.setPacket i v).tile j = b.tile j) ∧ (∀ j, (b.setPacket i v).flow j = b.flow j) ∧
    (∀ j, (b.setPacket i v).delay j = b.delay j) ∧ (∀ j, (b.setPacket i v).sem j = b.sem j) ∧
    (∀ j, (b.setPacket i v).halyard j = b.halyard j) ∧ (∀ j, (b.setPacket i v).cluster j = b.cluster j) ∧
    (∀ j, (b.setPacket i v).port j = b.port j) ∧ (∀ j, (b.setPacket i v).queue j = b.queue j) ∧
    (∀ j, (b.setPacket i v).key j = b.key j) ∧ (∀ j, (b.setPacket i v).channel j = b.channel j) ∧
    (∀ j, (b.setPacket i v).image j = b.image j) ∧ (∀ j, (b.setPacket i v).carrier j = b.carrier j) ∧
    (∀ j, (b.setPacket i v).feed j = b.feed j) ∧ (∀ j, (b.setPacket i v).fru j = b.fru j) :=
  ⟨fun _ => rfl, fun _ => rfl, fun _ => rfl, fun _ => rfl, fun _ => rfl, fun _ => rfl, fun _ => rfl, fun _ => rfl,
  fun _ => rfl, fun _ => rfl, fun _ => rfl, fun _ => rfl, fun _ => rfl, fun _ => rfl, fun _ => rfl, fun _ => rfl,
  fun _ => rfl, fun _ => rfl⟩

/-! ### setKeySlot -/

@[simp] theorem Blade.setKeySlot_same (b : Blade) (k : Nat) (v : KeySlot) : (b.setKeySlot k v).key k = v := mget_mput_same _ k v _

theorem Blade.setKeySlot_other (b : Blade) (k : Nat) (v : KeySlot) (j : Nat) (h : j ≠ k) : (b.setKeySlot k v).key j = b.key j := mget_mput_other _ v _ h

@[simp] theorem Blade.setKeySlot_draws (b : Blade) (k : Nat) (v : KeySlot) : (b.setKeySlot k v).draws = b.draws := rfl
@[simp] theorem Blade.setKeySlot_bladeB (b : Blade) (k : Nat) (v : KeySlot) : (b.setKeySlot k v).bladeB = b.bladeB := rfl
@[simp] theorem Blade.setKeySlot_frame (b : Blade) (k : Nat) (v : KeySlot) : (b.setKeySlot k v).frame = b.frame := rfl
@[simp] theorem Blade.setKeySlot_fineTicks (b : Blade) (k : Nat) (v : KeySlot) : (b.setKeySlot k v).fineTicks = b.fineTicks := rfl
@[simp] theorem Blade.setKeySlot_response (b : Blade) (k : Nat) (v : KeySlot) : (b.setKeySlot k v).response = b.response := rfl
@[simp] theorem Blade.setKeySlot_outputs (b : Blade) (k : Nat) (v : KeySlot) : (b.setKeySlot k v).outputs = b.outputs := rfl
@[simp] theorem Blade.setKeySlot_csr (b : Blade) (k : Nat) (v : KeySlot) : (b.setKeySlot k v).csr = b.csr := rfl
@[simp] theorem Blade.setKeySlot_net (b : Blade) (k : Nat) (v : KeySlot) : (b.setKeySlot k v).net = b.net := rfl
@[simp] theorem Blade.setKeySlot_led (b : Blade) (k : Nat) (v : KeySlot) : (b.setKeySlot k v).led = b.led := rfl
@[simp] theorem Blade.setKeySlot_ord (b : Blade) (k : Nat) (v : KeySlot) : (b.setKeySlot k v).ord = b.ord := rfl
@[simp] theorem Blade.setKeySlot_bank (b : Blade) (k : Nat) (v : KeySlot) : (b.setKeySlot k v).bank = b.bank := rfl
@[simp] theorem Blade.setKeySlot_pool (b : Blade) (k : Nat) (v : KeySlot) : (b.setKeySlot k v).pool = b.pool := rfl
@[simp] theorem Blade.setKeySlot_lan (b : Blade) (k : Nat) (v : KeySlot) : (b.setKeySlot k v).lan = b.lan := rfl
@[simp] theorem Blade.setKeySlot_flt (b : Blade) (k : Nat) (v : KeySlot) : (b.setKeySlot k v).flt = b.flt := rfl
@[simp] theorem Blade.setKeySlot_pair (b : Blade) (k : Nat) (v : KeySlot) : (b.setKeySlot k v).pair = b.pair := rfl
@[simp] theorem Blade.setKeySlot_hw (b : Blade) (k : Nat) (v : KeySlot) : (b.setKeySlot k v).hw = b.hw := rfl
@[simp] theorem Blade.setKeySlot_eng_cancels (b : Blade) (k : Nat) (v : KeySlot) : (b.setKeySlot k v).eng.cancels = b.eng.cancels := rfl
@[simp] theorem Blade.setKeySlot_eng_deferred (b : Blade) (k : Nat) (v : KeySlot) : (b.setKeySlot k v).eng.deferred = b.eng.deferred := rfl
@[simp] theorem Blade.setKeySlot_eng_heldReplies (b : Blade) (k : Nat) (v : KeySlot) : (b.setKeySlot k v).eng.heldReplies = b.eng.heldReplies := rfl
@[simp] theorem Blade.setKeySlot_eng_usbDiscarding (b : Blade) (k : Nat) (v : KeySlot) : (b.setKeySlot k v).eng.usbDiscarding = b.eng.usbDiscarding := rfl
@[simp] theorem Blade.setKeySlot_eng_staging (b : Blade) (k : Nat) (v : KeySlot) : (b.setKeySlot k v).eng.staging = b.eng.staging := rfl
@[simp] theorem Blade.setKeySlot_eng_activation (b : Blade) (k : Nat) (v : KeySlot) : (b.setKeySlot k v).eng.activation = b.eng.activation := rfl
@[simp] theorem Blade.setKeySlot_eng_eepromWrites (b : Blade) (k : Nat) (v : KeySlot) : (b.setKeySlot k v).eng.eepromWrites = b.eng.eepromWrites := rfl
@[simp] theorem Blade.setKeySlot_eng_savedUplinks (b : Blade) (k : Nat) (v : KeySlot) : (b.setKeySlot k v).eng.savedUplinks = b.eng.savedUplinks := rfl
@[simp] theorem Blade.setKeySlot_eng_microcode (b : Blade) (k : Nat) (v : KeySlot) : (b.setKeySlot k v).eng.microcode = b.eng.microcode := rfl
@[simp] theorem Blade.setKeySlot_eng_channels (b : Blade) (k : Nat) (v : KeySlot) : (b.setKeySlot k v).eng.channels = b.eng.channels := rfl
@[simp] theorem Blade.setKeySlot_eng_notices (b : Blade) (k : Nat) (v : KeySlot) : (b.setKeySlot k v).eng.notices = b.eng.notices := rfl
@[simp] theorem Blade.setKeySlot_eng_noticesLost (b : Blade) (k : Nat) (v : KeySlot) : (b.setKeySlot k v).eng.noticesLost = b.eng.noticesLost := rfl
@[simp] theorem Blade.setKeySlot_eng_ptpTime (b : Blade) (k : Nat) (v : KeySlot) : (b.setKeySlot k v).eng.ptpTime = b.eng.ptpTime := rfl
@[simp] theorem Blade.setKeySlot_eng_stamp (b : Blade) (k : Nat) (v : KeySlot) : (b.setKeySlot k v).eng.stamp = b.eng.stamp := rfl
@[simp] theorem Blade.setKeySlot_eng_ptpOffset (b : Blade) (k : Nat) (v : KeySlot) : (b.setKeySlot k v).eng.ptpOffset = b.eng.ptpOffset := rfl
@[simp] theorem Blade.setKeySlot_eng_announcements (b : Blade) (k : Nat) (v : KeySlot) : (b.setKeySlot k v).eng.announcements = b.eng.announcements := rfl

/-- setKeySlot leaves every other family of the blade as it was. -/
@[simp] theorem Blade.setKeySlot_others (b : Blade) (k : Nat) (v : KeySlot) :
    (∀ j, (b.setKeySlot k v).reg j = b.reg j) ∧ (∀ j, (b.setKeySlot k v).struck j = b.struck j) ∧
    (∀ j, (b.setKeySlot k v).source j = b.source j) ∧ (∀ j, (b.setKeySlot k v).ctx j = b.ctx j) ∧
    (∀ j, (b.setKeySlot k v).tile j = b.tile j) ∧ (∀ j, (b.setKeySlot k v).flow j = b.flow j) ∧
    (∀ j, (b.setKeySlot k v).delay j = b.delay j) ∧ (∀ j, (b.setKeySlot k v).sem j = b.sem j) ∧
    (∀ j, (b.setKeySlot k v).halyard j = b.halyard j) ∧ (∀ j, (b.setKeySlot k v).cluster j = b.cluster j) ∧
    (∀ j, (b.setKeySlot k v).port j = b.port j) ∧ (∀ j, (b.setKeySlot k v).queue j = b.queue j) ∧
    (∀ j, (b.setKeySlot k v).packet j = b.packet j) ∧ (∀ j, (b.setKeySlot k v).channel j = b.channel j) ∧
    (∀ j, (b.setKeySlot k v).image j = b.image j) ∧ (∀ j, (b.setKeySlot k v).carrier j = b.carrier j) ∧
    (∀ j, (b.setKeySlot k v).feed j = b.feed j) ∧ (∀ j, (b.setKeySlot k v).fru j = b.fru j) :=
  ⟨fun _ => rfl, fun _ => rfl, fun _ => rfl, fun _ => rfl, fun _ => rfl, fun _ => rfl, fun _ => rfl, fun _ => rfl,
  fun _ => rfl, fun _ => rfl, fun _ => rfl, fun _ => rfl, fun _ => rfl, fun _ => rfl, fun _ => rfl, fun _ => rfl,
  fun _ => rfl, fun _ => rfl⟩

/-! ### setChannel -/

@[simp] theorem Blade.setChannel_same (b : Blade) (n : Nat) (v : Channel) : (b.setChannel n v).channel n = v := mget_mput_same _ n v _

theorem Blade.setChannel_other (b : Blade) (n : Nat) (v : Channel) (j : Nat) (h : j ≠ n) : (b.setChannel n v).channel j = b.channel j := mget_mput_other _ v _ h

@[simp] theorem Blade.setChannel_draws (b : Blade) (n : Nat) (v : Channel) : (b.setChannel n v).draws = b.draws := rfl
@[simp] theorem Blade.setChannel_bladeB (b : Blade) (n : Nat) (v : Channel) : (b.setChannel n v).bladeB = b.bladeB := rfl
@[simp] theorem Blade.setChannel_frame (b : Blade) (n : Nat) (v : Channel) : (b.setChannel n v).frame = b.frame := rfl
@[simp] theorem Blade.setChannel_fineTicks (b : Blade) (n : Nat) (v : Channel) : (b.setChannel n v).fineTicks = b.fineTicks := rfl
@[simp] theorem Blade.setChannel_response (b : Blade) (n : Nat) (v : Channel) : (b.setChannel n v).response = b.response := rfl
@[simp] theorem Blade.setChannel_outputs (b : Blade) (n : Nat) (v : Channel) : (b.setChannel n v).outputs = b.outputs := rfl
@[simp] theorem Blade.setChannel_csr (b : Blade) (n : Nat) (v : Channel) : (b.setChannel n v).csr = b.csr := rfl
@[simp] theorem Blade.setChannel_net (b : Blade) (n : Nat) (v : Channel) : (b.setChannel n v).net = b.net := rfl
@[simp] theorem Blade.setChannel_led (b : Blade) (n : Nat) (v : Channel) : (b.setChannel n v).led = b.led := rfl
@[simp] theorem Blade.setChannel_ord (b : Blade) (n : Nat) (v : Channel) : (b.setChannel n v).ord = b.ord := rfl
@[simp] theorem Blade.setChannel_bank (b : Blade) (n : Nat) (v : Channel) : (b.setChannel n v).bank = b.bank := rfl
@[simp] theorem Blade.setChannel_pool (b : Blade) (n : Nat) (v : Channel) : (b.setChannel n v).pool = b.pool := rfl
@[simp] theorem Blade.setChannel_lan (b : Blade) (n : Nat) (v : Channel) : (b.setChannel n v).lan = b.lan := rfl
@[simp] theorem Blade.setChannel_flt (b : Blade) (n : Nat) (v : Channel) : (b.setChannel n v).flt = b.flt := rfl
@[simp] theorem Blade.setChannel_pair (b : Blade) (n : Nat) (v : Channel) : (b.setChannel n v).pair = b.pair := rfl
@[simp] theorem Blade.setChannel_hw (b : Blade) (n : Nat) (v : Channel) : (b.setChannel n v).hw = b.hw := rfl
@[simp] theorem Blade.setChannel_eng_keys (b : Blade) (n : Nat) (v : Channel) : (b.setChannel n v).eng.keys = b.eng.keys := rfl
@[simp] theorem Blade.setChannel_eng_cancels (b : Blade) (n : Nat) (v : Channel) : (b.setChannel n v).eng.cancels = b.eng.cancels := rfl
@[simp] theorem Blade.setChannel_eng_deferred (b : Blade) (n : Nat) (v : Channel) : (b.setChannel n v).eng.deferred = b.eng.deferred := rfl
@[simp] theorem Blade.setChannel_eng_heldReplies (b : Blade) (n : Nat) (v : Channel) : (b.setChannel n v).eng.heldReplies = b.eng.heldReplies := rfl
@[simp] theorem Blade.setChannel_eng_usbDiscarding (b : Blade) (n : Nat) (v : Channel) : (b.setChannel n v).eng.usbDiscarding = b.eng.usbDiscarding := rfl
@[simp] theorem Blade.setChannel_eng_staging (b : Blade) (n : Nat) (v : Channel) : (b.setChannel n v).eng.staging = b.eng.staging := rfl
@[simp] theorem Blade.setChannel_eng_activation (b : Blade) (n : Nat) (v : Channel) : (b.setChannel n v).eng.activation = b.eng.activation := rfl
@[simp] theorem Blade.setChannel_eng_eepromWrites (b : Blade) (n : Nat) (v : Channel) : (b.setChannel n v).eng.eepromWrites = b.eng.eepromWrites := rfl
@[simp] theorem Blade.setChannel_eng_savedUplinks (b : Blade) (n : Nat) (v : Channel) : (b.setChannel n v).eng.savedUplinks = b.eng.savedUplinks := rfl
@[simp] theorem Blade.setChannel_eng_microcode (b : Blade) (n : Nat) (v : Channel) : (b.setChannel n v).eng.microcode = b.eng.microcode := rfl
@[simp] theorem Blade.setChannel_eng_notices (b : Blade) (n : Nat) (v : Channel) : (b.setChannel n v).eng.notices = b.eng.notices := rfl
@[simp] theorem Blade.setChannel_eng_noticesLost (b : Blade) (n : Nat) (v : Channel) : (b.setChannel n v).eng.noticesLost = b.eng.noticesLost := rfl
@[simp] theorem Blade.setChannel_eng_ptpTime (b : Blade) (n : Nat) (v : Channel) : (b.setChannel n v).eng.ptpTime = b.eng.ptpTime := rfl
@[simp] theorem Blade.setChannel_eng_stamp (b : Blade) (n : Nat) (v : Channel) : (b.setChannel n v).eng.stamp = b.eng.stamp := rfl
@[simp] theorem Blade.setChannel_eng_ptpOffset (b : Blade) (n : Nat) (v : Channel) : (b.setChannel n v).eng.ptpOffset = b.eng.ptpOffset := rfl
@[simp] theorem Blade.setChannel_eng_announcements (b : Blade) (n : Nat) (v : Channel) : (b.setChannel n v).eng.announcements = b.eng.announcements := rfl

/-- setChannel leaves every other family of the blade as it was. -/
@[simp] theorem Blade.setChannel_others (b : Blade) (n : Nat) (v : Channel) :
    (∀ j, (b.setChannel n v).reg j = b.reg j) ∧ (∀ j, (b.setChannel n v).struck j = b.struck j) ∧
    (∀ j, (b.setChannel n v).source j = b.source j) ∧ (∀ j, (b.setChannel n v).ctx j = b.ctx j) ∧
    (∀ j, (b.setChannel n v).tile j = b.tile j) ∧ (∀ j, (b.setChannel n v).flow j = b.flow j) ∧
    (∀ j, (b.setChannel n v).delay j = b.delay j) ∧ (∀ j, (b.setChannel n v).sem j = b.sem j) ∧
    (∀ j, (b.setChannel n v).halyard j = b.halyard j) ∧ (∀ j, (b.setChannel n v).cluster j = b.cluster j) ∧
    (∀ j, (b.setChannel n v).port j = b.port j) ∧ (∀ j, (b.setChannel n v).queue j = b.queue j) ∧
    (∀ j, (b.setChannel n v).packet j = b.packet j) ∧ (∀ j, (b.setChannel n v).key j = b.key j) ∧
    (∀ j, (b.setChannel n v).image j = b.image j) ∧ (∀ j, (b.setChannel n v).carrier j = b.carrier j) ∧
    (∀ j, (b.setChannel n v).feed j = b.feed j) ∧ (∀ j, (b.setChannel n v).fru j = b.fru j) :=
  ⟨fun _ => rfl, fun _ => rfl, fun _ => rfl, fun _ => rfl, fun _ => rfl, fun _ => rfl, fun _ => rfl, fun _ => rfl,
  fun _ => rfl, fun _ => rfl, fun _ => rfl, fun _ => rfl, fun _ => rfl, fun _ => rfl, fun _ => rfl, fun _ => rfl,
  fun _ => rfl, fun _ => rfl⟩

/-! ### setImage -/

@[simp] theorem Blade.setImage_same (b : Blade) (c : Nat) (v : ParkImage) : (b.setImage c v).image c = v := mget_mput_same _ c v _

theorem Blade.setImage_other (b : Blade) (c : Nat) (v : ParkImage) (j : Nat) (h : j ≠ c) : (b.setImage c v).image j = b.image j := mget_mput_other _ v _ h

@[simp] theorem Blade.setImage_draws (b : Blade) (c : Nat) (v : ParkImage) : (b.setImage c v).draws = b.draws := rfl
@[simp] theorem Blade.setImage_bladeB (b : Blade) (c : Nat) (v : ParkImage) : (b.setImage c v).bladeB = b.bladeB := rfl
@[simp] theorem Blade.setImage_frame (b : Blade) (c : Nat) (v : ParkImage) : (b.setImage c v).frame = b.frame := rfl
@[simp] theorem Blade.setImage_fineTicks (b : Blade) (c : Nat) (v : ParkImage) : (b.setImage c v).fineTicks = b.fineTicks := rfl
@[simp] theorem Blade.setImage_response (b : Blade) (c : Nat) (v : ParkImage) : (b.setImage c v).response = b.response := rfl
@[simp] theorem Blade.setImage_outputs (b : Blade) (c : Nat) (v : ParkImage) : (b.setImage c v).outputs = b.outputs := rfl
@[simp] theorem Blade.setImage_csr (b : Blade) (c : Nat) (v : ParkImage) : (b.setImage c v).csr = b.csr := rfl
@[simp] theorem Blade.setImage_net (b : Blade) (c : Nat) (v : ParkImage) : (b.setImage c v).net = b.net := rfl
@[simp] theorem Blade.setImage_ord (b : Blade) (c : Nat) (v : ParkImage) : (b.setImage c v).ord = b.ord := rfl
@[simp] theorem Blade.setImage_bank (b : Blade) (c : Nat) (v : ParkImage) : (b.setImage c v).bank = b.bank := rfl
@[simp] theorem Blade.setImage_pool (b : Blade) (c : Nat) (v : ParkImage) : (b.setImage c v).pool = b.pool := rfl
@[simp] theorem Blade.setImage_lan (b : Blade) (c : Nat) (v : ParkImage) : (b.setImage c v).lan = b.lan := rfl
@[simp] theorem Blade.setImage_eng (b : Blade) (c : Nat) (v : ParkImage) : (b.setImage c v).eng = b.eng := rfl
@[simp] theorem Blade.setImage_flt (b : Blade) (c : Nat) (v : ParkImage) : (b.setImage c v).flt = b.flt := rfl
@[simp] theorem Blade.setImage_pair (b : Blade) (c : Nat) (v : ParkImage) : (b.setImage c v).pair = b.pair := rfl
@[simp] theorem Blade.setImage_hw (b : Blade) (c : Nat) (v : ParkImage) : (b.setImage c v).hw = b.hw := rfl
@[simp] theorem Blade.setImage_led_contexts (b : Blade) (c : Nat) (v : ParkImage) : (b.setImage c v).led.contexts = b.led.contexts := rfl
@[simp] theorem Blade.setImage_led_free (b : Blade) (c : Nat) (v : ParkImage) : (b.setImage c v).led.free = b.led.free := rfl
@[simp] theorem Blade.setImage_led_trail (b : Blade) (c : Nat) (v : ParkImage) : (b.setImage c v).led.trail = b.led.trail := rfl
@[simp] theorem Blade.setImage_led_activeSlotB (b : Blade) (c : Nat) (v : ParkImage) : (b.setImage c v).led.activeSlotB = b.led.activeSlotB := rfl
@[simp] theorem Blade.setImage_led_slotChange (b : Blade) (c : Nat) (v : ParkImage) : (b.setImage c v).led.slotChange = b.led.slotChange := rfl
@[simp] theorem Blade.setImage_led_lostDescriptors (b : Blade) (c : Nat) (v : ParkImage) : (b.setImage c v).led.lostDescriptors = b.led.lostDescriptors := rfl
@[simp] theorem Blade.setImage_led_parking (b : Blade) (c : Nat) (v : ParkImage) : (b.setImage c v).led.parking = b.led.parking := rfl
@[simp] theorem Blade.setImage_led_parkRequests (b : Blade) (c : Nat) (v : ParkImage) : (b.setImage c v).led.parkRequests = b.led.parkRequests := rfl

/-- setImage leaves every other family of the blade as it was. -/
@[simp] theorem Blade.setImage_others (b : Blade) (c : Nat) (v : ParkImage) :
    (∀ j, (b.setImage c v).reg j = b.reg j) ∧ (∀ j, (b.setImage c v).struck j = b.struck j) ∧
    (∀ j, (b.setImage c v).source j = b.source j) ∧ (∀ j, (b.setImage c v).ctx j = b.ctx j) ∧
    (∀ j, (b.setImage c v).tile j = b.tile j) ∧ (∀ j, (b.setImage c v).flow j = b.flow j) ∧
    (∀ j, (b.setImage c v).delay j = b.delay j) ∧ (∀ j, (b.setImage c v).sem j = b.sem j) ∧
    (∀ j, (b.setImage c v).halyard j = b.halyard j) ∧ (∀ j, (b.setImage c v).cluster j = b.cluster j) ∧
    (∀ j, (b.setImage c v).port j = b.port j) ∧ (∀ j, (b.setImage c v).queue j = b.queue j) ∧
    (∀ j, (b.setImage c v).packet j = b.packet j) ∧ (∀ j, (b.setImage c v).key j = b.key j) ∧
    (∀ j, (b.setImage c v).channel j = b.channel j) ∧ (∀ j, (b.setImage c v).carrier j = b.carrier j) ∧
    (∀ j, (b.setImage c v).feed j = b.feed j) ∧ (∀ j, (b.setImage c v).fru j = b.fru j) :=
  ⟨fun _ => rfl, fun _ => rfl, fun _ => rfl, fun _ => rfl, fun _ => rfl, fun _ => rfl, fun _ => rfl, fun _ => rfl,
  fun _ => rfl, fun _ => rfl, fun _ => rfl, fun _ => rfl, fun _ => rfl, fun _ => rfl, fun _ => rfl, fun _ => rfl,
  fun _ => rfl, fun _ => rfl⟩

/-! ### setCarrier -/

@[simp] theorem Blade.setCarrier_same (b : Blade) (k : Nat) (v : Carrier) : (b.setCarrier k v).carrier k = v := mget_mput_same _ k v _

theorem Blade.setCarrier_other (b : Blade) (k : Nat) (v : Carrier) (j : Nat) (h : j ≠ k) : (b.setCarrier k v).carrier j = b.carrier j := mget_mput_other _ v _ h

@[simp] theorem Blade.setCarrier_draws (b : Blade) (k : Nat) (v : Carrier) : (b.setCarrier k v).draws = b.draws := rfl
@[simp] theorem Blade.setCarrier_bladeB (b : Blade) (k : Nat) (v : Carrier) : (b.setCarrier k v).bladeB = b.bladeB := rfl
@[simp] theorem Blade.setCarrier_frame (b : Blade) (k : Nat) (v : Carrier) : (b.setCarrier k v).frame = b.frame := rfl
@[simp] theorem Blade.setCarrier_fineTicks (b : Blade) (k : Nat) (v : Carrier) : (b.setCarrier k v).fineTicks = b.fineTicks := rfl
@[simp] theorem Blade.setCarrier_response (b : Blade) (k : Nat) (v : Carrier) : (b.setCarrier k v).response = b.response := rfl
@[simp] theorem Blade.setCarrier_outputs (b : Blade) (k : Nat) (v : Carrier) : (b.setCarrier k v).outputs = b.outputs := rfl
@[simp] theorem Blade.setCarrier_csr (b : Blade) (k : Nat) (v : Carrier) : (b.setCarrier k v).csr = b.csr := rfl
@[simp] theorem Blade.setCarrier_net (b : Blade) (k : Nat) (v : Carrier) : (b.setCarrier k v).net = b.net := rfl
@[simp] theorem Blade.setCarrier_led (b : Blade) (k : Nat) (v : Carrier) : (b.setCarrier k v).led = b.led := rfl
@[simp] theorem Blade.setCarrier_ord (b : Blade) (k : Nat) (v : Carrier) : (b.setCarrier k v).ord = b.ord := rfl
@[simp] theorem Blade.setCarrier_bank (b : Blade) (k : Nat) (v : Carrier) : (b.setCarrier k v).bank = b.bank := rfl
@[simp] theorem Blade.setCarrier_pool (b : Blade) (k : Nat) (v : Carrier) : (b.setCarrier k v).pool = b.pool := rfl
@[simp] theorem Blade.setCarrier_lan (b : Blade) (k : Nat) (v : Carrier) : (b.setCarrier k v).lan = b.lan := rfl
@[simp] theorem Blade.setCarrier_eng (b : Blade) (k : Nat) (v : Carrier) : (b.setCarrier k v).eng = b.eng := rfl
@[simp] theorem Blade.setCarrier_flt (b : Blade) (k : Nat) (v : Carrier) : (b.setCarrier k v).flt = b.flt := rfl
@[simp] theorem Blade.setCarrier_pair (b : Blade) (k : Nat) (v : Carrier) : (b.setCarrier k v).pair = b.pair := rfl
@[simp] theorem Blade.setCarrier_hw_journal (b : Blade) (k : Nat) (v : Carrier) : (b.setCarrier k v).hw.journal = b.hw.journal := rfl
@[simp] theorem Blade.setCarrier_hw_blocks (b : Blade) (k : Nat) (v : Carrier) : (b.setCarrier k v).hw.blocks = b.hw.blocks := rfl
@[simp] theorem Blade.setCarrier_hw_nextRecord (b : Blade) (k : Nat) (v : Carrier) : (b.setCarrier k v).hw.nextRecord = b.hw.nextRecord := rfl
@[simp] theorem Blade.setCarrier_hw_blockSeq (b : Blade) (k : Nat) (v : Carrier) : (b.setCarrier k v).hw.blockSeq = b.hw.blockSeq := rfl
@[simp] theorem Blade.setCarrier_hw_imageStore (b : Blade) (k : Nat) (v : Carrier) : (b.setCarrier k v).hw.imageStore = b.hw.imageStore := rfl
@[simp] theorem Blade.setCarrier_hw_nor (b : Blade) (k : Nat) (v : Carrier) : (b.setCarrier k v).hw.nor = b.hw.nor := rfl
@[simp] theorem Blade.setCarrier_hw_resilvering (b : Blade) (k : Nat) (v : Carrier) : (b.setCarrier k v).hw.resilvering = b.hw.resilvering := rfl
@[simp] theorem Blade.setCarrier_hw_leaving (b : Blade) (k : Nat) (v : Carrier) : (b.setCarrier k v).hw.leaving = b.hw.leaving := rfl
@[simp] theorem Blade.setCarrier_hw_frus (b : Blade) (k : Nat) (v : Carrier) : (b.setCarrier k v).hw.frus = b.hw.frus := rfl
@[simp] theorem Blade.setCarrier_hw_fruPending (b : Blade) (k : Nat) (v : Carrier) : (b.setCarrier k v).hw.fruPending = b.hw.fruPending := rfl
@[simp] theorem Blade.setCarrier_hw_boot (b : Blade) (k : Nat) (v : Carrier) : (b.setCarrier k v).hw.boot = b.hw.boot := rfl
@[simp] theorem Blade.setCarrier_hw_startStep (b : Blade) (k : Nat) (v : Carrier) : (b.setCarrier k v).hw.startStep = b.hw.startStep := rfl
@[simp] theorem Blade.setCarrier_hw_startFailed (b : Blade) (k : Nat) (v : Carrier) : (b.setCarrier k v).hw.startFailed = b.hw.startFailed := rfl
@[simp] theorem Blade.setCarrier_hw_startCause (b : Blade) (k : Nat) (v : Carrier) : (b.setCarrier k v).hw.startCause = b.hw.startCause := rfl
@[simp] theorem Blade.setCarrier_hw_startFacts (b : Blade) (k : Nat) (v : Carrier) : (b.setCarrier k v).hw.startFacts = b.hw.startFacts := rfl
@[simp] theorem Blade.setCarrier_hw_inService (b : Blade) (k : Nat) (v : Carrier) : (b.setCarrier k v).hw.inService = b.hw.inService := rfl
@[simp] theorem Blade.setCarrier_hw_waitingPartner (b : Blade) (k : Nat) (v : Carrier) : (b.setCarrier k v).hw.waitingPartner = b.hw.waitingPartner := rfl
@[simp] theorem Blade.setCarrier_hw_resetType (b : Blade) (k : Nat) (v : Carrier) : (b.setCarrier k v).hw.resetType = b.hw.resetType := rfl
@[simp] theorem Blade.setCarrier_hw_resetCause (b : Blade) (k : Nat) (v : Carrier) : (b.setCarrier k v).hw.resetCause = b.hw.resetCause := rfl
@[simp] theorem Blade.setCarrier_hw_domainsOn (b : Blade) (k : Nat) (v : Carrier) : (b.setCarrier k v).hw.domainsOn = b.hw.domainsOn := rfl
@[simp] theorem Blade.setCarrier_hw_feeds (b : Blade) (k : Nat) (v : Carrier) : (b.setCarrier k v).hw.feeds = b.hw.feeds := rfl
@[simp] theorem Blade.setCarrier_hw_pllLocks (b : Blade) (k : Nat) (v : Carrier) : (b.setCarrier k v).hw.pllLocks = b.hw.pllLocks := rfl
@[simp] theorem Blade.setCarrier_hw_cards (b : Blade) (k : Nat) (v : Carrier) : (b.setCarrier k v).hw.cards = b.hw.cards := rfl

/-- setCarrier leaves every other family of the blade as it was. -/
@[simp] theorem Blade.setCarrier_others (b : Blade) (k : Nat) (v : Carrier) :
    (∀ j, (b.setCarrier k v).reg j = b.reg j) ∧ (∀ j, (b.setCarrier k v).struck j = b.struck j) ∧
    (∀ j, (b.setCarrier k v).source j = b.source j) ∧ (∀ j, (b.setCarrier k v).ctx j = b.ctx j) ∧
    (∀ j, (b.setCarrier k v).tile j = b.tile j) ∧ (∀ j, (b.setCarrier k v).flow j = b.flow j) ∧
    (∀ j, (b.setCarrier k v).delay j = b.delay j) ∧ (∀ j, (b.setCarrier k v).sem j = b.sem j) ∧
    (∀ j, (b.setCarrier k v).halyard j = b.halyard j) ∧ (∀ j, (b.setCarrier k v).cluster j = b.cluster j) ∧
    (∀ j, (b.setCarrier k v).port j = b.port j) ∧ (∀ j, (b.setCarrier k v).queue j = b.queue j) ∧
    (∀ j, (b.setCarrier k v).packet j = b.packet j) ∧ (∀ j, (b.setCarrier k v).key j = b.key j) ∧
    (∀ j, (b.setCarrier k v).channel j = b.channel j) ∧ (∀ j, (b.setCarrier k v).image j = b.image j) ∧
    (∀ j, (b.setCarrier k v).feed j = b.feed j) ∧ (∀ j, (b.setCarrier k v).fru j = b.fru j) :=
  ⟨fun _ => rfl, fun _ => rfl, fun _ => rfl, fun _ => rfl, fun _ => rfl, fun _ => rfl, fun _ => rfl, fun _ => rfl,
  fun _ => rfl, fun _ => rfl, fun _ => rfl, fun _ => rfl, fun _ => rfl, fun _ => rfl, fun _ => rfl, fun _ => rfl,
  fun _ => rfl, fun _ => rfl⟩

/-! ### setFeed -/

@[simp] theorem Blade.setFeed_same (b : Blade) (k : Nat) (v : Feed) : (b.setFeed k v).feed k = v := by
  unfold Blade.setFeed
  dsimp only
  split <;> exact mget_mput_same _ k v _

theorem Blade.setFeed_other (b : Blade) (k : Nat) (v : Feed) (j : Nat) (h : j ≠ k) : (b.setFeed k v).feed j = b.feed j := by
  unfold Blade.setFeed
  dsimp only
  split <;> exact mget_mput_other _ v _ h

@[simp] theorem Blade.setFeed_draws (b : Blade) (k : Nat) (v : Feed) : (b.setFeed k v).draws = b.draws := by
  unfold Blade.setFeed
  dsimp only
  split <;> rfl
@[simp] theorem Blade.setFeed_bladeB (b : Blade) (k : Nat) (v : Feed) : (b.setFeed k v).bladeB = b.bladeB := by
  unfold Blade.setFeed
  dsimp only
  split <;> rfl
@[simp] theorem Blade.setFeed_frame (b : Blade) (k : Nat) (v : Feed) : (b.setFeed k v).frame = b.frame := by
  unfold Blade.setFeed
  dsimp only
  split <;> rfl
@[simp] theorem Blade.setFeed_fineTicks (b : Blade) (k : Nat) (v : Feed) : (b.setFeed k v).fineTicks = b.fineTicks := by
  unfold Blade.setFeed
  dsimp only
  split <;> rfl
@[simp] theorem Blade.setFeed_response (b : Blade) (k : Nat) (v : Feed) : (b.setFeed k v).response = b.response := by
  unfold Blade.setFeed
  dsimp only
  split <;> rfl
@[simp] theorem Blade.setFeed_outputs (b : Blade) (k : Nat) (v : Feed) : (b.setFeed k v).outputs = b.outputs := by
  unfold Blade.setFeed
  dsimp only
  split <;> rfl
@[simp] theorem Blade.setFeed_csr (b : Blade) (k : Nat) (v : Feed) : (b.setFeed k v).csr = b.csr := by
  unfold Blade.setFeed
  dsimp only
  split <;> rfl
@[simp] theorem Blade.setFeed_net (b : Blade) (k : Nat) (v : Feed) : (b.setFeed k v).net = b.net := by
  unfold Blade.setFeed
  dsimp only
  split <;> rfl
@[simp] theorem Blade.setFeed_led (b : Blade) (k : Nat) (v : Feed) : (b.setFeed k v).led = b.led := by
  unfold Blade.setFeed
  dsimp only
  split <;> rfl
@[simp] theorem Blade.setFeed_ord (b : Blade) (k : Nat) (v : Feed) : (b.setFeed k v).ord = b.ord := by
  unfold Blade.setFeed
  dsimp only
  split <;> rfl
@[simp] theorem Blade.setFeed_bank (b : Blade) (k : Nat) (v : Feed) : (b.setFeed k v).bank = b.bank := by
  unfold Blade.setFeed
  dsimp only
  split <;> rfl
@[simp] theorem Blade.setFeed_pool (b : Blade) (k : Nat) (v : Feed) : (b.setFeed k v).pool = b.pool := by
  unfold Blade.setFeed
  dsimp only
  split <;> rfl
@[simp] theorem Blade.setFeed_lan (b : Blade) (k : Nat) (v : Feed) : (b.setFeed k v).lan = b.lan := by
  unfold Blade.setFeed
  dsimp only
  split <;> rfl
@[simp] theorem Blade.setFeed_eng (b : Blade) (k : Nat) (v : Feed) : (b.setFeed k v).eng = b.eng := by
  unfold Blade.setFeed
  dsimp only
  split <;> rfl
@[simp] theorem Blade.setFeed_flt (b : Blade) (k : Nat) (v : Feed) : (b.setFeed k v).flt = b.flt := by
  unfold Blade.setFeed
  dsimp only
  split <;> rfl
@[simp] theorem Blade.setFeed_hw_carriers (b : Blade) (k : Nat) (v : Feed) : (b.setFeed k v).hw.carriers = b.hw.carriers := by
  unfold Blade.setFeed
  dsimp only
  split <;> rfl
@[simp] theorem Blade.setFeed_hw_journal (b : Blade) (k : Nat) (v : Feed) : (b.setFeed k v).hw.journal = b.hw.journal := by
  unfold Blade.setFeed
  dsimp only
  split <;> rfl
@[simp] theorem Blade.setFeed_hw_blocks (b : Blade) (k : Nat) (v : Feed) : (b.setFeed k v).hw.blocks = b.hw.blocks := by
  unfold Blade.setFeed
  dsimp only
  split <;> rfl
@[simp] theorem Blade.setFeed_hw_nextRecord (b : Blade) (k : Nat) (v : Feed) : (b.setFeed k v).hw.nextRecord = b.hw.nextRecord := by
  unfold Blade.setFeed
  dsimp only
  split <;> rfl
@[simp] theorem Blade.setFeed_hw_blockSeq (b : Blade) (k : Nat) (v : Feed) : (b.setFeed k v).hw.blockSeq = b.hw.blockSeq := by
  unfold Blade.setFeed
  dsimp only
  split <;> rfl
@[simp] theorem Blade.setFeed_hw_imageStore (b : Blade) (k : Nat) (v : Feed) : (b.setFeed k v).hw.imageStore = b.hw.imageStore := by
  unfold Blade.setFeed
  dsimp only
  split <;> rfl
@[simp] theorem Blade.setFeed_hw_nor (b : Blade) (k : Nat) (v : Feed) : (b.setFeed k v).hw.nor = b.hw.nor := by
  unfold Blade.setFeed
  dsimp only
  split <;> rfl
@[simp] theorem Blade.setFeed_hw_resilvering (b : Blade) (k : Nat) (v : Feed) : (b.setFeed k v).hw.resilvering = b.hw.resilvering := by
  unfold Blade.setFeed
  dsimp only
  split <;> rfl
@[simp] theorem Blade.setFeed_hw_leaving (b : Blade) (k : Nat) (v : Feed) : (b.setFeed k v).hw.leaving = b.hw.leaving := by
  unfold Blade.setFeed
  dsimp only
  split <;> rfl
@[simp] theorem Blade.setFeed_hw_frus (b : Blade) (k : Nat) (v : Feed) : (b.setFeed k v).hw.frus = b.hw.frus := by
  unfold Blade.setFeed
  dsimp only
  split <;> rfl
@[simp] theorem Blade.setFeed_hw_fruPending (b : Blade) (k : Nat) (v : Feed) : (b.setFeed k v).hw.fruPending = b.hw.fruPending := by
  unfold Blade.setFeed
  dsimp only
  split <;> rfl
@[simp] theorem Blade.setFeed_hw_boot (b : Blade) (k : Nat) (v : Feed) : (b.setFeed k v).hw.boot = b.hw.boot := by
  unfold Blade.setFeed
  dsimp only
  split <;> rfl
@[simp] theorem Blade.setFeed_hw_startStep (b : Blade) (k : Nat) (v : Feed) : (b.setFeed k v).hw.startStep = b.hw.startStep := by
  unfold Blade.setFeed
  dsimp only
  split <;> rfl
@[simp] theorem Blade.setFeed_hw_startFailed (b : Blade) (k : Nat) (v : Feed) : (b.setFeed k v).hw.startFailed = b.hw.startFailed := by
  unfold Blade.setFeed
  dsimp only
  split <;> rfl
@[simp] theorem Blade.setFeed_hw_startCause (b : Blade) (k : Nat) (v : Feed) : (b.setFeed k v).hw.startCause = b.hw.startCause := by
  unfold Blade.setFeed
  dsimp only
  split <;> rfl
@[simp] theorem Blade.setFeed_hw_startFacts (b : Blade) (k : Nat) (v : Feed) : (b.setFeed k v).hw.startFacts = b.hw.startFacts := by
  unfold Blade.setFeed
  dsimp only
  split <;> rfl
@[simp] theorem Blade.setFeed_hw_inService (b : Blade) (k : Nat) (v : Feed) : (b.setFeed k v).hw.inService = b.hw.inService := by
  unfold Blade.setFeed
  dsimp only
  split <;> rfl
@[simp] theorem Blade.setFeed_hw_waitingPartner (b : Blade) (k : Nat) (v : Feed) : (b.setFeed k v).hw.waitingPartner = b.hw.waitingPartner := by
  unfold Blade.setFeed
  dsimp only
  split <;> rfl
@[simp] theorem Blade.setFeed_hw_resetType (b : Blade) (k : Nat) (v : Feed) : (b.setFeed k v).hw.resetType = b.hw.resetType := by
  unfold Blade.setFeed
  dsimp only
  split <;> rfl
@[simp] theorem Blade.setFeed_hw_resetCause (b : Blade) (k : Nat) (v : Feed) : (b.setFeed k v).hw.resetCause = b.hw.resetCause := by
  unfold Blade.setFeed
  dsimp only
  split <;> rfl
@[simp] theorem Blade.setFeed_hw_domainsOn (b : Blade) (k : Nat) (v : Feed) : (b.setFeed k v).hw.domainsOn = b.hw.domainsOn := by
  unfold Blade.setFeed
  dsimp only
  split <;> rfl
@[simp] theorem Blade.setFeed_hw_pllLocks (b : Blade) (k : Nat) (v : Feed) : (b.setFeed k v).hw.pllLocks = b.hw.pllLocks := by
  unfold Blade.setFeed
  dsimp only
  split <;> rfl
@[simp] theorem Blade.setFeed_hw_cards (b : Blade) (k : Nat) (v : Feed) : (b.setFeed k v).hw.cards = b.hw.cards := by
  unfold Blade.setFeed
  dsimp only
  split <;> rfl

/-- setFeed leaves every other family of the blade as it was. -/
@[simp] theorem Blade.setFeed_others (b : Blade) (k : Nat) (v : Feed) :
    (∀ j, (b.setFeed k v).reg j = b.reg j) ∧ (∀ j, (b.setFeed k v).struck j = b.struck j) ∧
    (∀ j, (b.setFeed k v).source j = b.source j) ∧ (∀ j, (b.setFeed k v).ctx j = b.ctx j) ∧
    (∀ j, (b.setFeed k v).tile j = b.tile j) ∧ (∀ j, (b.setFeed k v).flow j = b.flow j) ∧
    (∀ j, (b.setFeed k v).delay j = b.delay j) ∧ (∀ j, (b.setFeed k v).sem j = b.sem j) ∧
    (∀ j, (b.setFeed k v).halyard j = b.halyard j) ∧ (∀ j, (b.setFeed k v).cluster j = b.cluster j) ∧
    (∀ j, (b.setFeed k v).port j = b.port j) ∧ (∀ j, (b.setFeed k v).queue j = b.queue j) ∧
    (∀ j, (b.setFeed k v).packet j = b.packet j) ∧ (∀ j, (b.setFeed k v).key j = b.key j) ∧
    (∀ j, (b.setFeed k v).channel j = b.channel j) ∧ (∀ j, (b.setFeed k v).image j = b.image j) ∧
    (∀ j, (b.setFeed k v).carrier j = b.carrier j) ∧ (∀ j, (b.setFeed k v).fru j = b.fru j) :=
  by unfold Blade.setFeed; dsimp only; split <;> exact ⟨fun _ => rfl, fun _ => rfl, fun _ => rfl, fun _ => rfl, fun
  _ => rfl, fun _ => rfl, fun _ => rfl, fun _ => rfl, fun _ => rfl, fun _ => rfl, fun _ => rfl, fun _ => rfl, fun _
  => rfl, fun _ => rfl, fun _ => rfl, fun _ => rfl, fun _ => rfl, fun _ => rfl⟩

/-! ### setFru -/

@[simp] theorem Blade.setFru_same (b : Blade) (n : Nat) (v : FruState) : (b.setFru n v).fru n = v := mget_mput_same _ n v _

theorem Blade.setFru_other (b : Blade) (n : Nat) (v : FruState) (j : Nat) (h : j ≠ n) : (b.setFru n v).fru j = b.fru j := mget_mput_other _ v _ h

@[simp] theorem Blade.setFru_draws (b : Blade) (n : Nat) (v : FruState) : (b.setFru n v).draws = b.draws := rfl
@[simp] theorem Blade.setFru_bladeB (b : Blade) (n : Nat) (v : FruState) : (b.setFru n v).bladeB = b.bladeB := rfl
@[simp] theorem Blade.setFru_frame (b : Blade) (n : Nat) (v : FruState) : (b.setFru n v).frame = b.frame := rfl
@[simp] theorem Blade.setFru_fineTicks (b : Blade) (n : Nat) (v : FruState) : (b.setFru n v).fineTicks = b.fineTicks := rfl
@[simp] theorem Blade.setFru_response (b : Blade) (n : Nat) (v : FruState) : (b.setFru n v).response = b.response := rfl
@[simp] theorem Blade.setFru_outputs (b : Blade) (n : Nat) (v : FruState) : (b.setFru n v).outputs = b.outputs := rfl
@[simp] theorem Blade.setFru_csr (b : Blade) (n : Nat) (v : FruState) : (b.setFru n v).csr = b.csr := rfl
@[simp] theorem Blade.setFru_net (b : Blade) (n : Nat) (v : FruState) : (b.setFru n v).net = b.net := rfl
@[simp] theorem Blade.setFru_led (b : Blade) (n : Nat) (v : FruState) : (b.setFru n v).led = b.led := rfl
@[simp] theorem Blade.setFru_ord (b : Blade) (n : Nat) (v : FruState) : (b.setFru n v).ord = b.ord := rfl
@[simp] theorem Blade.setFru_bank (b : Blade) (n : Nat) (v : FruState) : (b.setFru n v).bank = b.bank := rfl
@[simp] theorem Blade.setFru_pool (b : Blade) (n : Nat) (v : FruState) : (b.setFru n v).pool = b.pool := rfl
@[simp] theorem Blade.setFru_lan (b : Blade) (n : Nat) (v : FruState) : (b.setFru n v).lan = b.lan := rfl
@[simp] theorem Blade.setFru_eng (b : Blade) (n : Nat) (v : FruState) : (b.setFru n v).eng = b.eng := rfl
@[simp] theorem Blade.setFru_flt (b : Blade) (n : Nat) (v : FruState) : (b.setFru n v).flt = b.flt := rfl
@[simp] theorem Blade.setFru_pair (b : Blade) (n : Nat) (v : FruState) : (b.setFru n v).pair = b.pair := rfl
@[simp] theorem Blade.setFru_hw_carriers (b : Blade) (n : Nat) (v : FruState) : (b.setFru n v).hw.carriers = b.hw.carriers := rfl
@[simp] theorem Blade.setFru_hw_journal (b : Blade) (n : Nat) (v : FruState) : (b.setFru n v).hw.journal = b.hw.journal := rfl
@[simp] theorem Blade.setFru_hw_blocks (b : Blade) (n : Nat) (v : FruState) : (b.setFru n v).hw.blocks = b.hw.blocks := rfl
@[simp] theorem Blade.setFru_hw_nextRecord (b : Blade) (n : Nat) (v : FruState) : (b.setFru n v).hw.nextRecord = b.hw.nextRecord := rfl
@[simp] theorem Blade.setFru_hw_blockSeq (b : Blade) (n : Nat) (v : FruState) : (b.setFru n v).hw.blockSeq = b.hw.blockSeq := rfl
@[simp] theorem Blade.setFru_hw_imageStore (b : Blade) (n : Nat) (v : FruState) : (b.setFru n v).hw.imageStore = b.hw.imageStore := rfl
@[simp] theorem Blade.setFru_hw_nor (b : Blade) (n : Nat) (v : FruState) : (b.setFru n v).hw.nor = b.hw.nor := rfl
@[simp] theorem Blade.setFru_hw_resilvering (b : Blade) (n : Nat) (v : FruState) : (b.setFru n v).hw.resilvering = b.hw.resilvering := rfl
@[simp] theorem Blade.setFru_hw_leaving (b : Blade) (n : Nat) (v : FruState) : (b.setFru n v).hw.leaving = b.hw.leaving := rfl
@[simp] theorem Blade.setFru_hw_fruPending (b : Blade) (n : Nat) (v : FruState) : (b.setFru n v).hw.fruPending = b.hw.fruPending := rfl
@[simp] theorem Blade.setFru_hw_boot (b : Blade) (n : Nat) (v : FruState) : (b.setFru n v).hw.boot = b.hw.boot := rfl
@[simp] theorem Blade.setFru_hw_startStep (b : Blade) (n : Nat) (v : FruState) : (b.setFru n v).hw.startStep = b.hw.startStep := rfl
@[simp] theorem Blade.setFru_hw_startFailed (b : Blade) (n : Nat) (v : FruState) : (b.setFru n v).hw.startFailed = b.hw.startFailed := rfl
@[simp] theorem Blade.setFru_hw_startCause (b : Blade) (n : Nat) (v : FruState) : (b.setFru n v).hw.startCause = b.hw.startCause := rfl
@[simp] theorem Blade.setFru_hw_startFacts (b : Blade) (n : Nat) (v : FruState) : (b.setFru n v).hw.startFacts = b.hw.startFacts := rfl
@[simp] theorem Blade.setFru_hw_inService (b : Blade) (n : Nat) (v : FruState) : (b.setFru n v).hw.inService = b.hw.inService := rfl
@[simp] theorem Blade.setFru_hw_waitingPartner (b : Blade) (n : Nat) (v : FruState) : (b.setFru n v).hw.waitingPartner = b.hw.waitingPartner := rfl
@[simp] theorem Blade.setFru_hw_resetType (b : Blade) (n : Nat) (v : FruState) : (b.setFru n v).hw.resetType = b.hw.resetType := rfl
@[simp] theorem Blade.setFru_hw_resetCause (b : Blade) (n : Nat) (v : FruState) : (b.setFru n v).hw.resetCause = b.hw.resetCause := rfl
@[simp] theorem Blade.setFru_hw_domainsOn (b : Blade) (n : Nat) (v : FruState) : (b.setFru n v).hw.domainsOn = b.hw.domainsOn := rfl
@[simp] theorem Blade.setFru_hw_feeds (b : Blade) (n : Nat) (v : FruState) : (b.setFru n v).hw.feeds = b.hw.feeds := rfl
@[simp] theorem Blade.setFru_hw_pllLocks (b : Blade) (n : Nat) (v : FruState) : (b.setFru n v).hw.pllLocks = b.hw.pllLocks := rfl
@[simp] theorem Blade.setFru_hw_cards (b : Blade) (n : Nat) (v : FruState) : (b.setFru n v).hw.cards = b.hw.cards := rfl

/-- setFru leaves every other family of the blade as it was. -/
@[simp] theorem Blade.setFru_others (b : Blade) (n : Nat) (v : FruState) :
    (∀ j, (b.setFru n v).reg j = b.reg j) ∧ (∀ j, (b.setFru n v).struck j = b.struck j) ∧
    (∀ j, (b.setFru n v).source j = b.source j) ∧ (∀ j, (b.setFru n v).ctx j = b.ctx j) ∧
    (∀ j, (b.setFru n v).tile j = b.tile j) ∧ (∀ j, (b.setFru n v).flow j = b.flow j) ∧
    (∀ j, (b.setFru n v).delay j = b.delay j) ∧ (∀ j, (b.setFru n v).sem j = b.sem j) ∧
    (∀ j, (b.setFru n v).halyard j = b.halyard j) ∧ (∀ j, (b.setFru n v).cluster j = b.cluster j) ∧
    (∀ j, (b.setFru n v).port j = b.port j) ∧ (∀ j, (b.setFru n v).queue j = b.queue j) ∧
    (∀ j, (b.setFru n v).packet j = b.packet j) ∧ (∀ j, (b.setFru n v).key j = b.key j) ∧
    (∀ j, (b.setFru n v).channel j = b.channel j) ∧ (∀ j, (b.setFru n v).image j = b.image j) ∧
    (∀ j, (b.setFru n v).carrier j = b.carrier j) ∧ (∀ j, (b.setFru n v).feed j = b.feed j) :=
  ⟨fun _ => rfl, fun _ => rfl, fun _ => rfl, fun _ => rfl, fun _ => rfl, fun _ => rfl, fun _ => rfl, fun _ => rfl,
  fun _ => rfl, fun _ => rfl, fun _ => rfl, fun _ => rfl, fun _ => rfl, fun _ => rfl, fun _ => rfl, fun _ => rfl,
  fun _ => rfl, fun _ => rfl⟩

/-! ### setMset -/

@[simp] theorem Blade.setMset_same (b : Blade) (t k : Nat) (v : MatchSet) : (b.setMset t k v).mset t k = v := mget_mput_same _ (setKey t k) v _

@[simp] theorem Blade.setMset_draws (b : Blade) (t k : Nat) (v : MatchSet) : (b.setMset t k v).draws = b.draws := rfl
@[simp] theorem Blade.setMset_bladeB (b : Blade) (t k : Nat) (v : MatchSet) : (b.setMset t k v).bladeB = b.bladeB := rfl
@[simp] theorem Blade.setMset_frame (b : Blade) (t k : Nat) (v : MatchSet) : (b.setMset t k v).frame = b.frame := rfl
@[simp] theorem Blade.setMset_fineTicks (b : Blade) (t k : Nat) (v : MatchSet) : (b.setMset t k v).fineTicks = b.fineTicks := rfl
@[simp] theorem Blade.setMset_response (b : Blade) (t k : Nat) (v : MatchSet) : (b.setMset t k v).response = b.response := rfl
@[simp] theorem Blade.setMset_outputs (b : Blade) (t k : Nat) (v : MatchSet) : (b.setMset t k v).outputs = b.outputs := rfl
@[simp] theorem Blade.setMset_csr (b : Blade) (t k : Nat) (v : MatchSet) : (b.setMset t k v).csr = b.csr := rfl
@[simp] theorem Blade.setMset_led (b : Blade) (t k : Nat) (v : MatchSet) : (b.setMset t k v).led = b.led := rfl
@[simp] theorem Blade.setMset_ord (b : Blade) (t k : Nat) (v : MatchSet) : (b.setMset t k v).ord = b.ord := rfl
@[simp] theorem Blade.setMset_bank (b : Blade) (t k : Nat) (v : MatchSet) : (b.setMset t k v).bank = b.bank := rfl
@[simp] theorem Blade.setMset_pool (b : Blade) (t k : Nat) (v : MatchSet) : (b.setMset t k v).pool = b.pool := rfl
@[simp] theorem Blade.setMset_lan (b : Blade) (t k : Nat) (v : MatchSet) : (b.setMset t k v).lan = b.lan := rfl
@[simp] theorem Blade.setMset_eng (b : Blade) (t k : Nat) (v : MatchSet) : (b.setMset t k v).eng = b.eng := rfl
@[simp] theorem Blade.setMset_flt (b : Blade) (t k : Nat) (v : MatchSet) : (b.setMset t k v).flt = b.flt := rfl
@[simp] theorem Blade.setMset_pair (b : Blade) (t k : Nat) (v : MatchSet) : (b.setMset t k v).pair = b.pair := rfl
@[simp] theorem Blade.setMset_hw (b : Blade) (t k : Nat) (v : MatchSet) : (b.setMset t k v).hw = b.hw := rfl
@[simp] theorem Blade.setMset_net_home (b : Blade) (t k : Nat) (v : MatchSet) : (b.setMset t k v).net.home = b.net.home := rfl
@[simp] theorem Blade.setMset_net_release (b : Blade) (t k : Nat) (v : MatchSet) : (b.setMset t k v).net.release = b.net.release := rfl
@[simp] theorem Blade.setMset_net_delayIn (b : Blade) (t k : Nat) (v : MatchSet) : (b.setMset t k v).net.delayIn = b.net.delayIn := rfl
@[simp] theorem Blade.setMset_net_port44 (b : Blade) (t k : Nat) (v : MatchSet) : (b.setMset t k v).net.port44 = b.net.port44 := rfl
@[simp] theorem Blade.setMset_net_barrierHeld (b : Blade) (t k : Nat) (v : MatchSet) : (b.setMset t k v).net.barrierHeld = b.net.barrierHeld := rfl
@[simp] theorem Blade.setMset_net_rotors (b : Blade) (t k : Nat) (v : MatchSet) : (b.setMset t k v).net.rotors = b.net.rotors := rfl
@[simp] theorem Blade.setMset_net_tiling (b : Blade) (t k : Nat) (v : MatchSet) : (b.setMset t k v).net.tiling = b.net.tiling := rfl
@[simp] theorem Blade.setMset_net_activeTiles (b : Blade) (t k : Nat) (v : MatchSet) : (b.setMset t k v).net.activeTiles = b.net.activeTiles := rfl
@[simp] theorem Blade.setMset_net_spareValid (b : Blade) (t k : Nat) (v : MatchSet) : (b.setMset t k v).net.spareValid = b.net.spareValid := rfl
@[simp] theorem Blade.setMset_net_retiredTiles (b : Blade) (t k : Nat) (v : MatchSet) : (b.setMset t k v).net.retiredTiles = b.net.retiredTiles := rfl
@[simp] theorem Blade.setMset_net_failedTiles (b : Blade) (t k : Nat) (v : MatchSet) : (b.setMset t k v).net.failedTiles = b.net.failedTiles := rfl
@[simp] theorem Blade.setMset_net_migration (b : Blade) (t k : Nat) (v : MatchSet) : (b.setMset t k v).net.migration = b.net.migration := rfl
@[simp] theorem Blade.setMset_net_retireQueue (b : Blade) (t k : Nat) (v : MatchSet) : (b.setMset t k v).net.retireQueue = b.net.retireQueue := rfl
@[simp] theorem Blade.setMset_net_stamp (b : Blade) (t k : Nat) (v : MatchSet) : (b.setMset t k v).net.stamp = b.net.stamp := rfl
@[simp] theorem Blade.setMset_net_tiles (b : Blade) (t k : Nat) (v : MatchSet) : (b.setMset t k v).net.tiles = b.net.tiles := rfl
@[simp] theorem Blade.setMset_net_progressed (b : Blade) (t k : Nat) (v : MatchSet) : (b.setMset t k v).net.progressed = b.net.progressed := rfl
@[simp] theorem Blade.setMset_net_stallFrames (b : Blade) (t k : Nat) (v : MatchSet) : (b.setMset t k v).net.stallFrames = b.net.stallFrames := rfl
@[simp] theorem Blade.setMset_net_stallUnresolved (b : Blade) (t k : Nat) (v : MatchSet) : (b.setMset t k v).net.stallUnresolved = b.net.stallUnresolved := rfl
@[simp] theorem Blade.setMset_net_stallTokens (b : Blade) (t k : Nat) (v : MatchSet) : (b.setMset t k v).net.stallTokens = b.net.stallTokens := rfl
@[simp] theorem Blade.setMset_net_stallWaiting (b : Blade) (t k : Nat) (v : MatchSet) : (b.setMset t k v).net.stallWaiting = b.net.stallWaiting := rfl
@[simp] theorem Blade.setMset_net_throttling (b : Blade) (t k : Nat) (v : MatchSet) : (b.setMset t k v).net.throttling = b.net.throttling := rfl
@[simp] theorem Blade.setMset_net_budgetTokens (b : Blade) (t k : Nat) (v : MatchSet) : (b.setMset t k v).net.budgetTokens = b.net.budgetTokens := rfl

/-! ### Responses and assertions -/

@[simp] theorem Blade.respond_draws (b : Blade) (i : Item) : (b.respond i).draws = b.draws := rfl
@[simp] theorem Blade.respond_bladeB (b : Blade) (i : Item) : (b.respond i).bladeB = b.bladeB := rfl
@[simp] theorem Blade.respond_frame (b : Blade) (i : Item) : (b.respond i).frame = b.frame := rfl
@[simp] theorem Blade.respond_fineTicks (b : Blade) (i : Item) : (b.respond i).fineTicks = b.fineTicks := rfl
@[simp] theorem Blade.respond_outputs (b : Blade) (i : Item) : (b.respond i).outputs = b.outputs := rfl
@[simp] theorem Blade.respond_csr (b : Blade) (i : Item) : (b.respond i).csr = b.csr := rfl
@[simp] theorem Blade.respond_net (b : Blade) (i : Item) : (b.respond i).net = b.net := rfl
@[simp] theorem Blade.respond_led (b : Blade) (i : Item) : (b.respond i).led = b.led := rfl
@[simp] theorem Blade.respond_ord (b : Blade) (i : Item) : (b.respond i).ord = b.ord := rfl
@[simp] theorem Blade.respond_bank (b : Blade) (i : Item) : (b.respond i).bank = b.bank := rfl
@[simp] theorem Blade.respond_pool (b : Blade) (i : Item) : (b.respond i).pool = b.pool := rfl
@[simp] theorem Blade.respond_lan (b : Blade) (i : Item) : (b.respond i).lan = b.lan := rfl
@[simp] theorem Blade.respond_eng (b : Blade) (i : Item) : (b.respond i).eng = b.eng := rfl
@[simp] theorem Blade.respond_flt (b : Blade) (i : Item) : (b.respond i).flt = b.flt := rfl
@[simp] theorem Blade.respond_pair (b : Blade) (i : Item) : (b.respond i).pair = b.pair := rfl
@[simp] theorem Blade.respond_hw (b : Blade) (i : Item) : (b.respond i).hw = b.hw := rfl
@[simp] theorem Blade.respond_response (b : Blade) (i : Item) : (b.respond i).response = i := rfl

@[simp] theorem Blade.raiseWith_draws (b : Blade) (a : Assertion) : (b.raiseWith a).draws = b.draws := rfl
@[simp] theorem Blade.raiseWith_bladeB (b : Blade) (a : Assertion) : (b.raiseWith a).bladeB = b.bladeB := rfl
@[simp] theorem Blade.raiseWith_frame (b : Blade) (a : Assertion) : (b.raiseWith a).frame = b.frame := rfl
@[simp] theorem Blade.raiseWith_fineTicks (b : Blade) (a : Assertion) : (b.raiseWith a).fineTicks = b.fineTicks := rfl
@[simp] theorem Blade.raiseWith_response (b : Blade) (a : Assertion) : (b.raiseWith a).response = b.response := rfl
@[simp] theorem Blade.raiseWith_outputs (b : Blade) (a : Assertion) : (b.raiseWith a).outputs = b.outputs := rfl
@[simp] theorem Blade.raiseWith_csr (b : Blade) (a : Assertion) : (b.raiseWith a).csr = b.csr := rfl
@[simp] theorem Blade.raiseWith_net (b : Blade) (a : Assertion) : (b.raiseWith a).net = b.net := rfl
@[simp] theorem Blade.raiseWith_led (b : Blade) (a : Assertion) : (b.raiseWith a).led = b.led := rfl
@[simp] theorem Blade.raiseWith_ord (b : Blade) (a : Assertion) : (b.raiseWith a).ord = b.ord := rfl
@[simp] theorem Blade.raiseWith_bank (b : Blade) (a : Assertion) : (b.raiseWith a).bank = b.bank := rfl
@[simp] theorem Blade.raiseWith_pool (b : Blade) (a : Assertion) : (b.raiseWith a).pool = b.pool := rfl
@[simp] theorem Blade.raiseWith_lan (b : Blade) (a : Assertion) : (b.raiseWith a).lan = b.lan := rfl
@[simp] theorem Blade.raiseWith_eng (b : Blade) (a : Assertion) : (b.raiseWith a).eng = b.eng := rfl
@[simp] theorem Blade.raiseWith_pair (b : Blade) (a : Assertion) : (b.raiseWith a).pair = b.pair := rfl
@[simp] theorem Blade.raiseWith_hw (b : Blade) (a : Assertion) : (b.raiseWith a).hw = b.hw := rfl
@[simp] theorem Blade.raiseWith_due (b : Blade) (a : Assertion) : (b.raiseWith a).flt.due = b.flt.due ++ [a] := rfl

/-- An output changes the record of outputs and nothing else; a fenced blade has none (R539). -/
theorem Blade.out_eq (b : Blade) (o : Output) :
    b.out o = { b with outputs := if b.flt.fenced then b.outputs else b.outputs ++ [o] } := by
  unfold Blade.out
  split <;> rfl

end Sys2Proof.Machine
end

