-- ==== Sys2Proof/Laws/Ops.lean ====
section
/-! SUPPORT. What each shared operation can do, said once: the frame of a codelet instruction, of a microcode word, of a
request and of a pennant; and the small laws of numbers and bytes. -/

namespace Sys2Proof.Machine

open Sys2Proof.Safety

/-! ## What a command leaves -/

theorem State.after_eq (s : State) (r : Memory × Blade) : s.after r = .next (ends s r.1 r.2) := rfl

theorem State.afterBlade_eq (s : State) (b : Blade) : s.afterBlade b = .next (ends s s.mem b) := rfl

@[simp] theorem ends_mem (s : State) (m : Memory) (b : Blade) : (ends s m b).mem = m := rfl

@[simp] theorem ends_pending (s : State) (m : Memory) (b : Blade) : (ends s m b).pending = s.pending := rfl

@[simp] theorem ends_blade (s : State) (m : Memory) (b : Blade) : (ends s m b).blade = b.endStep m := rfl

/-- Where nothing waits for the end of the step, the step leaves the blade as the command left it. -/
theorem Blade.endStep_quiet (b : Blade) (m : Memory) (h : b.quiet = true) : b.endStep m = b := by
  rw [Blade.endStep, if_pos h]

/-! ## The LOG throttle (R565) -/

/-- All that a sample of the LOG can change: the draw, and the two fields that hold what it found. -/
theorem Blade.sampleLog_cases (b : Blade) :
    ∃ n u h, b.sampleLog = { b with draws := n, pair.logUnsent := u, pair.throttled := h } := by
  unfold Blade.sampleLog
  split
  · exact ⟨_, _, _, rfl⟩
  · exact ⟨_, _, _, rfl⟩

/-! ## Uplinks (R519, Table 11.22) -/

/-- A register's word written changes no more than the words of registers. -/
theorem Blade.setReg_cases (b : Blade) (a : Nat) (v : Word32) : ∃ w, b.setReg a v = { b with csr.words := w } := ⟨_, rfl⟩

/-- A counter's step changes no more than the words of registers. -/
theorem Blade.count_cases (b : Blade) (a n : Nat) : ∃ w, b.count a n = { b with csr.words := w } :=
  b.setReg_cases _ _

/-- A 64-bit counter's step changes no more than the words of registers. -/
theorem Blade.count64_cases (b : Blade) (a n : Nat) : ∃ w, b.count64 a n = { b with csr.words := w } := by
  unfold Blade.count64 Blade.setPair64
  obtain ⟨v, h⟩ := b.setReg_cases a (.ofNat 32 (b.pair64 a + n))
  obtain ⟨w, h'⟩ := Blade.setReg_cases { b with csr.words := v } (a + 4) (.ofNat 32 ((b.pair64 a + n) / 2 ^ 32))
  exact ⟨w, by rw [h, h']⟩

/-- All that a frame's arrival can change by itself: the words of registers, the uplink's counters among them. -/
theorem Blade.frameIn_cases (b : Blade) (u : Nat) (vlan : Option (BitVec 12)) (fragment : Bool) :
    ∃ w, (b.frameIn u vlan fragment).2 = { b with csr.words := w } := by
  unfold Blade.frameIn
  obtain ⟨w, h⟩ := b.count64_cases (rUPLINK u + 0x60) 1
  by_cases hf : b.flt.fenced = true
  · exact ⟨b.csr.words, by rw [if_pos hf]⟩
  · rw [if_neg hf, h]
    dsimp only
    split
    · exact ⟨_, rfl⟩
    · obtain ⟨v, hv⟩ := Blade.count_cases { b with csr.words := w } (rUPLINK u + 0x70) 1
      exact ⟨v, hv⟩

/-- All that the sending of a frame can change: nothing on a fenced blade, else the uplink's counter and the outputs. -/
theorem Blade.uplinkSend_cases (b : Blade) (u : Nat) (o : Output) :
    b.uplinkSend u o = b ∨
      ∃ w, b.flt.fenced = false ∧
        b.uplinkSend u o = { b with csr.words := w, outputs := b.outputs ++ [b.asSent u o] } := by
  unfold Blade.uplinkSend
  obtain ⟨w, h⟩ := b.count64_cases (rUPLINK u + 0x68) 1
  by_cases hf : b.flt.fenced = true
  · exact .inl (if_pos hf)
  · refine .inr ⟨w, by simpa using hf, ?_⟩
    rw [if_neg hf, h, Blade.out, if_neg hf]

/-! ## Codelet instructions (R239, R241) -/

/-- An instruction that can issue runs its body on what its fetch leaves, or traps ILLEGAL there. -/
theorem Blade.codelet_issues {s : State} {t : TileId} {f : Firing} (h : Issues s t f) (i : Instr)
    (c : codeOf s t f = some i) (legal : Bool) (body : Blade → Memory → Firing → Memory × Blade) :
    s.blade.codelet s.mem t i legal body =
      if legal then body (fetchedBlade s t f) (fetchedMem s t f) f
      else (fetchedBlade s t f).trapNow (fetchedMem s t f) t f trapILLEGAL := by
  have hfew : ¬4096 ≤ f.executed := Nat.not_le.2 h.few
  obtain ⟨w, hw, hd⟩ := Option.bind_eq_some_iff.mp c
  simp only [Blade.codelet, h.runs, h.free, h.going, h.inside, hw, hd, fetchedBlade, fetchedMem, hfew, Option.isSome_none,
    Bool.not_true, if_false, Bool.false_eq_true, ne_eq, not_true_eq_false]
  cases legal <;> rfl

/-- All that an instruction can do: nothing, one of the traps that come before it, or its body after a good fetch. -/
theorem Blade.codelet_cases (b : Blade) (m : Memory) (t : TileId) (i : Instr) (legal : Bool)
    (body : Blade → Memory → Firing → Memory × Blade) :
    b.codelet m t i legal body = (m, b) ∨
      ∃ f, (b.tile t.val).firing = some f ∧ (f.stall = none ∧ b.stopped = false) ∧
        (b.codelet m t i legal body = b.trapNow m t f trapINSN_LIMIT ∨
          b.codelet m t i legal body = b.trapNow m t f trapBAD_TARGET ∨
          b.codelet m t i legal body = (b.fetch m t f).2.2.trapNow (b.fetch m t f).2.1 t f trapFETCH ∨
          b.codelet m t i legal body = (b.fetch m t f).2.2.trapNow (b.fetch m t f).2.1 t f trapILLEGAL ∨
          b.codelet m t i legal body = body (b.fetch m t f).2.2 (b.fetch m t f).2.1 f) := by
  unfold Blade.codelet
  split
  · exact .inl rfl
  · next f hf =>
    split
    · exact .inl rfl
    · next hs =>
      dsimp only
      repeat' split
      · exact .inr ⟨f, hf, by simpa using hs, .inl rfl⟩
      · exact .inr ⟨f, hf, by simpa using hs, .inr (.inl rfl)⟩
      · exact .inr ⟨f, hf, by simpa using hs, .inr (.inr (.inl rfl))⟩
      · exact .inr ⟨f, hf, by simpa using hs, .inr (.inr (.inr (.inl rfl)))⟩
      · exact .inl rfl
      · exact .inr ⟨f, hf, by simpa using hs, .inr (.inr (.inr (.inl rfl)))⟩
      · exact .inr ⟨f, hf, by simpa using hs, .inr (.inr (.inr (.inr rfl)))⟩

/-- A trap leaves memory; one that forms a record waits while the audit trail is full (R658). -/
theorem Blade.trapNow_eq (b : Blade) (m : Memory) (t : TileId) (f : Firing) (code damage : Nat) :
    b.trapNow m t f code damage = (m, if b.trailFull && f.trapForms then b else b.trap m t f code damage) := rfl

/-- A trap that does not wait. -/
theorem trapNow_trapped {s : State} {t : TileId} {f : Firing} (code damage : Nat)
    (h : (fetchedBlade s t f).trailFull = false) :
    s.after ((fetchedBlade s t f).trapNow (fetchedMem s t f) t f code damage) = .next (trapped s t f code damage) := by
  simp only [State.after_eq, Blade.trapNow_eq, h, Bool.false_and, Bool.false_eq_true, if_false, trapped]

/-- A result written to a register and the pc past the instruction. -/
theorem Firing.advance_write (f : Firing) (rd : RegNo) (v : Word64) (p : Bool) :
    (f.write rd v p).advance = wrote f rd v p := by
  have h : (f.write rd v p).pc = f.pc ∧ (f.write rd v p).executed = f.executed := by
    unfold Firing.write
    split <;> exact ⟨rfl, rfl⟩
  simp only [Firing.advance, wrote, h.1, h.2]

/-- An instruction that computes a register writes it, with its sources' poison, and passes to the next word. -/
theorem Blade.compute_issues {s : State} {t : TileId} {f : Firing} (h : Issues s t f) (i : Instr)
    (c : codeOf s t f = some i) (rd : RegNo) (srcs : List RegNo) (v : Firing → Word64) :
    s.after (s.blade.compute s.mem t i true rd srcs v) = .next (issued s t f (wrote f rd (v f) (srcs.any f.bad))) := by
  rw [Blade.compute, Blade.codelet_issues h i c, if_pos rfl, Firing.advance_write]
  rfl

/-- A floating-point instruction writes its result and accrues its flags, or neither flag nor value of poison. -/
theorem Blade.computeFp_issues {s : State} {t : TileId} {f : Firing} (h : Issues s t f) (i : Instr)
    (c : codeOf s t f = some i) (rd : RegNo) (srcs : List RegNo) (v : Firing → FpResult) :
    s.after (s.blade.computeFp s.mem t i true rd srcs v) = .next (issued s t f
      (((f.write rd (v f).1 (srcs.any f.bad)).accrue (if srcs.any f.bad then 0 else (v f).2)).advance)) := by
  rw [Blade.computeFp, Blade.codelet_issues h i c, if_pos rfl]
  rfl

/-! ## Microcode words (R393, R398) -/

/-- A halyard that may run takes its word to its effects when the word is valid at its address. -/
theorem Blade.issue_runs {s : State} {c : ClusterId} {h : HalyardId} (r : HalyardRuns s c h) (u : Uop)
    (hv : u.valid (s.blade.halyard (laneNo c h)).pc.toNat = true) :
    s.blade.issue s.mem c h u = (s.blade.passTurn c h).runWord s.mem c h u := by
  simp [Blade.issue, r.hoisted, r.turn, r.sound, hv]

/-! ## Requests (R471 to R483) -/

/-- A request that passes checks 1 to 5, whose role and length fit, begins its command: it needs the key arm where its
opcode does (R481), and room where it is deferred (R483). -/
theorem Blade.command_admitted {s : State} {r : Request} (o : Opcode) (h : Admitted s o.code o.standby r)
    (run : Blade → ReplyTo → Memory × Blade) :
    s.blade.command s.mem o r true run =
      let b := began s r
      if o.keyed && !b.isArmed .command then (s.mem, b.conclude o (replyTo s r) stLOCKED)
      else
        let b := if o.keyed then b.disarm .command else b
        if o.deferred && b.deferBusy (BitVec.ofNat 8 o.code) then (s.mem, b.conclude o (replyTo s r) stBUSY)
        else run b (replyTo s r) := by
  have hr : (!o.standby && !(s.blade.accept r).2.active) = false := by
    rcases h.role with h | h <;> simp [h]
  simp only [Blade.command, h.passes, h.opcode, hr, decide_true, Bool.not_true, Bool.false_and, Bool.false_eq_true, if_false,
    began, replyTo]
  rfl

/-- A request of its row that fails a check leaves memory and what the check left. -/
theorem Blade.command_refused {b : Blade} {m : Memory} {r : Request} (o : Opcode) (fits : Bool)
    (own : r.opcode.toNat = o.code) (h : (b.accept r).1 = false) (run : Blade → ReplyTo → Memory × Blade) :
    b.command m o r fits run = (m, (b.accept r).2) := by
  simp [Blade.command, own, h]

/-- A request of another listed opcode is none of the row, and changes nothing. -/
theorem Blade.command_other {b : Blade} {m : Memory} {r : Request} (o : Opcode) (fits : Bool) (own : r.opcode.toNat ≠ o.code)
    (listed : opcodes.contains r.opcode.toNat = true) (run : Blade → ReplyTo → Memory × Blade) :
    b.command m o r fits run = (m, b) := by
  simp [Blade.command, own, List.contains_iff_mem.mp listed]

/-! ## Pennants (R426, R433 to R435) -/

/-- A port hands a good pennant to what its type does, once its time and its acknowledgement are taken. -/
theorem Blade.receivePennant_good {b : Blade} {l type : Nat} {p : Pennant} (g : GoodPennant b l type p)
    (own : Blade → Blade) : b.receivePennant l type p own = own (heard b l p) := by
  have hf : ((b.modPort l fun q => { q with lastValid := b.frame }).port l).full = (b.port l).full := by
    simp [Blade.modPort, LanePort.full]
  simp only [Blade.receivePennant, g.receiving, g.groups, g.whole, g.unharmed, g.header, Bool.not_true,
    Bool.false_eq_true, if_false, Bool.false_or, hf, heard, Bool.and_eq_true]
  rw [if_neg (by simp [g.crc])]

/-- A port whose receiver is off takes nothing. -/
theorem Blade.receivePennant_off {b : Blade} {l : Nat} (type : Nat) (p : Pennant) (h : b.hears l = false)
    (own : Blade → Blade) : b.receivePennant l type p own = b := by
  simp [Blade.receivePennant, h]

/-! ## Free values and free lists -/

/-- A free value lies below its bound, and advances the model's counter alone. -/
theorem Blade.draw_lt (b : Blade) (n : Nat) (h : 0 < n) : (b.draw n).1 < n := by
  have := Nat.mod_lt (Config.freeNat b.draws) (Nat.lt_of_lt_of_le h (Nat.le_max_left n 1))
  simp only [Blade.draw]
  rw [show max n 1 = n by omega] at this ⊢
  exact this

theorem Blade.draw_blade (b : Blade) (n : Nat) : (b.draw n).2 = { b with draws := b.draws + 1 } := rfl

/-- A number taken leaves one fewer; a number given makes one more. -/
theorem FreeList.size_take {l l' : FreeList} {n : Nat} (h : l.take = some (n, l')) : l'.size + 1 = l.size := by
  rcases l with ⟨head, fresh, last, tail⟩
  cases head with
  | cons x r =>
    simp only [FreeList.take, Option.some.injEq, Prod.mk.injEq] at h
    obtain ⟨_, rfl⟩ := h
    simp [FreeList.size]; omega
  | nil =>
    simp only [FreeList.take] at h
    split at h
    · simp only [Option.some.injEq, Prod.mk.injEq] at h
      obtain ⟨_, rfl⟩ := h
      simp [FreeList.size]; omega
    · cases tail with
      | nil => simp at h
      | cons x r =>
        simp only [Option.some.injEq, Prod.mk.injEq] at h
        obtain ⟨_, rfl⟩ := h
        simp [FreeList.size]; omega

theorem FreeList.size_give (l : FreeList) (n : Nat) : (l.give n).size = l.size + 1 := by
  simp [FreeList.give, FreeList.size]; omega

/-! ## Numbers and bytes -/

@[simp] theorem length_leBytes (n v : Nat) : (leBytes n v).length = n := by
  induction n generalizing v with
  | zero => rfl
  | succ n ih => simp [leBytes, ih]

/-- The number that n little-endian bytes of a number spell. -/
theorem leNat_leBytes (n v : Nat) : leNat (leBytes n v) = v % 256 ^ n := by
  induction n generalizing v with
  | zero => simp [leBytes, leNat, Nat.mod_one]
  | succ n ih =>
    simp only [leBytes, leNat, ih, BitVec.toNat_ofNat]
    rw [show (2 : Nat) ^ 8 = 256 from rfl, Nat.pow_succ' (m := 256), Nat.mod_mul]

theorem bits_lt (n lo len : Nat) : bits n lo len < 2 ^ len := Nat.mod_lt _ (Nat.two_pow_pos len)

@[simp] theorem length_sliceBytes (bs : List Byte) (off len : Nat) : (sliceBytes bs off len).length = len := by
  simp [sliceBytes]

end Sys2Proof.Machine
end

