-- ==== Sys2Proof/Tests/Fixtures.lean ====
section
/-! SUPPORT. Small states and operands that the tests are built from. -/

open Sys2Proof Sys2Proof.Machine Sys2Proof.Safety

namespace Sys2Proof.Tests

/-- Slot A: eight nodes, 64 bytes of code; node 1 has arity 1, node 2 ordered release. -/
def codeCells : List Host.Cell := [(0x15000000C, 8), (0x150000014, 0xC0), (0x150000018, 0x40),
  (0x150000054, 1), (0x150000064, 2), (0x150000066, 4), (0x150000074, 3), (0x150000084, 1)]
def firing (g : SMap Word64) : Firing := {
  context := 0x100, iteration := 0, node := 1, slotB := false, inputs := [], pc := 4, g := g, poisoned := 0, fps := 0,
  fcr := 0, executed := 0, lastTag := 0, poisonSeen := false, emissions := [], adjustments := [], opens := [],
  openCount := 0, requests := [], heldSequence := none, stall := none, spent := 0 }
/-- The blade with tile 0 hoisted and executing a firing. -/
def onTile (b : Blade) (f : Firing) : Blade := b.setTile 0 { Tile.init with firing := some f }
def withCode (b : Blade) (cells : List Host.Cell := codeCells) : State := { State.reset with mem.cells := cells, blade := b }
def runs (f : Firing) : State := withCode (onTile Blade.reset f)
def blank (b : Blade) : State := { State.reset with blade := b }
/-- A blade whose only changes are those of f. -/
abbrev R0 : Blade := Blade.reset
def qq (q : Nat) : Blade := R0.setQueue q { queueInit q with quota := 8 }
def word (v : Word32) : QWord := { value := v, bad := false }
def pkt (q : QueueId) (st : PacketState) (who : Requester) : Packet := { Packet.none with
  queue := q, state := st, cells := [5], words := [word 7, word 9], length := 8, tag := 3, producer := .requester who }
/-- Queue q hoisted, with quota, and one packet of it, number 0. -/
def withPkt (q : Nat) (p : Packet) (order : List Nat) : Blade :=
  let b := (R0.setQueue q { queueInit q with quota := 8, order := order }).setPacket 0 p
  { b with pool.next := 1 }
def cur (who : Requester) (q : QueueId) (pos : Nat) : Cursor := { who := who, queue := q, packet := 0, position := pos, ended := false }
def withCur (b : Blade) (c : Cursor) : Blade := { b with pool.cursors := [c] }
def act : Blade := { R0 with pair.role := .active, pair.muxChosen := List.range 12 }
/-- A request of the provisioning station over USB; flag 4 sets the key arm (R481). -/
def rq (ps : List Byte) (flags : BitVec 16 := 0) : Request :=
  { transport := .usb, source := 0, sourcePort := 0, dest := 0, destPort := 4817, vlan := none, fragment := false, size := 16 + ps.length,
    magic := 0x4D434C50, version := 1, opcode := 0, flags := flags,
    sequence := 1, length := .ofNat 32 ps.length, params := ps, tag := [] }
/-- The request with an opcode. -/
def op (code : Nat) (r : Request) : Request := { r with opcode := .ofNat 8 code }
def dfr (code : Byte) (operand : Nat) (data : List Byte) : Deferred :=
  { dest := rqReplyTo R0 (op code.toNat (rq [])), operand := operand, data := data }
/-- s with the word of an instruction at the pc of f. -/
def coded (s : State) (f : Firing) (i : Instr) : State :=
  match codeWord i with
  | none => s
  | some w => { s with mem := s.mem.write (s.mem.codeBase f.slotB + f.pc) (leBytes 4 w.toNat) }

/-- The conditions of Issues, and that the word at the pc spells the instruction, in the state where it stands there. -/
abbrev ready (s : State) (t : TileId) (f : Firing) (j : Instr) : Prop :=
  (s.blade.tile t.val).firing = some f ∧ f.stall = none ∧ s.blade.stopped = false ∧ f.executed < 4096 ∧ (coded s f j).mem.inSegment f f.pc = true ∧
    codeOf (coded s f j) t f = some j

theorem coded_blade (s : State) (f : Firing) (j : Instr) : (coded s f j).blade = s.blade := by
  unfold coded
  split <;> rfl

theorem ready_issues {s : State} {t : TileId} {f : Firing} {j : Instr} (h : ready s t f j) :
    Issues (coded s f j) t f ∧ codeOf (coded s f j) t f = some j :=
  ⟨⟨by rw [coded_blade]; exact h.1, h.2.1, by rw [coded_blade]; exact h.2.2.1, h.2.2.2.1, h.2.2.2.2.1⟩, h.2.2.2.2.2⟩

theorem issue_all {s : State} {t : TileId} {f : Firing} {l : List Instr} (h : ∀ j ∈ l, ready s t f j) :
    ∀ j ∈ l, Issues (coded s f j) t f ∧ codeOf (coded s f j) t f = some j :=
  fun j hj => ready_issues (h j hj)

theorem issue_with {s : State} {t : TileId} {f : Firing} {l : List Instr} {p : Instr → Prop}
    (h : ∀ j ∈ l, ready s t f j ∧ p j) : ∀ j ∈ l, Issues (coded s f j) t f ∧ codeOf (coded s f j) t f = some j ∧ p j :=
  fun j hj => ⟨(ready_issues (h j hj).1).1, (ready_issues (h j hj).1).2, (h j hj).2⟩

theorem no_search {o : Option SetLock} (h : o = none) (q : Token) : o ≠ some (.search q) := by simp [h]

theorem no_emission {l : List ReleaseItem} (h : (match l with | .emission _ :: _ => false | _ => true) = true) (k : Token)
    (r : List ReleaseItem) : l ≠ .emission k :: r := by
  rintro rfl
  simp at h

theorem no_marker {l : List ReleaseItem} (h : (match l with | .marker _ _ :: _ => false | _ => true) = true) (k : BitVec 12)
    (j : BitVec 16) (r : List ReleaseItem) : l ≠ .marker k j :: r := by
  rintro rfl
  simp at h

/-- A firmware image of 24 bytes, duplex version 1, with its signature under the key below. -/
def firmware : List Byte := [72, 76, 70, 87, 1, 0, 1, 0, 7, 0, 0, 0, 1, 240, 40, 129, 24, 0, 0, 0, 0, 0, 0, 0, 168, 134, 255, 95, 214, 99, 153, 125, 42, 128, 198, 30, 27, 89, 171, 15, 193, 42, 229, 80, 203, 205, 164, 131, 23, 110, 79, 239, 164, 140, 143, 130, 149, 38, 254, 231, 96, 104, 183, 49, 152, 197, 11, 84, 217, 148, 89, 230, 61, 170, 42, 87, 96, 12, 252, 71, 104, 110, 0, 106, 78, 88, 219, 77]
/-- Both slots hold that image, and the fuses its key. -/
def booted (b : Blade) : Blade :=
  { b with hw.nor := [(0, firmware), (1, firmware)], hw.boot.fuses := [(0, (3865378232181912193596890086933759922903331283510397838945557624557826097500, 30837952721340376381856319516650941316597114253840743811080336016342748211270))] }
/-- Neither slot holds an image. -/
def bootless (b : Blade) : Blade :=
  { booted b with hw.nor := [(0, [0]), (1, [0])] }
def facts : StartFacts := {
  bladeB := true, dramFirmwareOk := true, dramRestOk := true, tilePasses := 0x3FFFFFFFF, marchWords := [],
  cards := 0xFF, carriersPresent := 3, carriersReady := 3, fans := 15, partnerPresent := true, partnerSysId := 0x8128F001,
  partnerActive := false, partnerAlive := true, partnerComplete := false, lastJournalFrame := none, firmwareFixes := ⟨0, 0⟩,
  restFixes := ⟨0, 0⟩ }

def f0 := firing [(1, 7), (2, 0x61), (3, 1)]
def s0 := runs f0
def fN := firing [(1, 0x8000000000000000), (2, 0xFFFFFFFFFFFFFFFF)]
def t0 : TileId := 0
def f0_2 := firing [(1, 0x3FF8000000000000), (2, 0x4000000000000000), (3, 0x3FB999999999999A)]
def s0_2 := runs f0_2
def f2 := firing [(1, 8), (2, 64), (3, 6)]
def f3 := { f2 with poisoned := 2 }
def f6 := firing [(1, 0x10), (2, 0x0504030201), (3, 0xAABBCCDDEEFF), (4, 3)]
def s6 : State := { runs f6 with mem.cells := [(0x10, 1), (0x11, 2), (0x12, 3), (0x13, 4), (0x14, 5)] ++ codeCells }
def f7 := { f6 with poisoned := 8 }
def ems (n : Nat) : List Emission := List.replicate n (.now (Token.data 0 0 0 0 0))
def f0_3 := { firing [(1, 0x55), (2, 0x010000000002), (3, 5), (4, 0x1000000000000), (5, 0x1000000)] with heldSequence := some (3, 7), node := 2 }
def x0 : SendFields := { rv := 1, rt := 2, rdl := 3, port := 2, cls := 4, ctrl := 0, list := 0, zero := 0 }
def f1_2 := { f0_3 with emissions := ems 16, adjustments := List.replicate 8 { cls := 1, value := 0, reason := 0 }, node := 1 }
def f2_2 := { f0_3 with poisoned := 2, node := 1 }
def g0 := firing [(1, 1), (2, 0x100), (3, 0xFF), (4, 0x10000)]
def live : Blade := Blade.reset.modCtx 0x100 fun x => { x with state := .live }
def runs' (b : Blade) (f : Firing) := withCode (onTile b f)
def g1 := { g0 with openCount := 4, requests := List.replicate 8 { kind := .close, context := 0x200 } }
def h0 := { firing [(1, 0x1C), (2, 5)] with fps := 3, fcr := 2, executed := 9, lastTag := 2, poisonSeen := true }
def held (mine : Bool) : Blade := Blade.reset.setSem 5 { held := true, cls := 0, unit := 0, context := if mine then 0x100 else 0x101, generation := 7 }
def h1 := firing [(1, 5), (2, 0x10007), (3, 8)]
def e0 := { firing [] with inputs := [Token.data 0x100 0 0 1 9] }
def k0 := { firing [] with executed := 4096 }
def k1 := { firing [] with pc := 64 }
def k2 := firing [(1, 0x3000000), (2, 0x100000000), (3, 0x1BFFFFFFF), (4, 0x1000002), (5, 0x2000001), (6, 0x300000000), (7, 0xFFFFFF), (8, 0x1C0000001)]
def rb : State := { runs k2 with mem.marks := [(0x1500000C0 / 8, .poison)] }
def w0 : Requester := .command
def w1 : Requester := .tile 0
def bq := qq 8193
def hoisted (y : Halyard) (k : Cluster := Cluster.init) : Blade :=
  ((R0.setStruck (fnCluster 0) false).setHalyard 0 y).setCluster 0 k
def c0 : ClusterId := 0
def h0_2 : HalyardId := 0
def y0 : Halyard := { Halyard.init with pc := 0xFFE, u := [(1, 5), (2, 0x01020304)], flags := 3, byteClass := 4 }
def y1 : Halyard := { y0 with yielded := true, waitMask := 0x40, latched := 0xC0, timer := 1 }
def enc (alu asel bsrc bsel dst wen setf imm : Nat) : BitVec 128 :=
  BitVec.ofNat 128 (alu * 2^98 + asel * 2^94 + bsrc * 2^92 + bsel * 2^88 + dst * 2^84 + wen * 2^83 + setf * 2^82 + imm)
def kk (w : BitVec 128) : Cluster := { Cluster.init with store := [(0xFFE, w)] }
def rp (u : Bool) : RxPennant := { urgent := u, endpoint := 3, sequence := 0, payload := [1,2,3,4,5], weak := 0, lost := false }
def tp : TxPennant := { mgmt := false, endpoint := 3, sequence := 9, payload := [1,2,3], weak := 0, lost := false, paid := false, sent := false, resend := false, sentFrame := 0 }
def withPort (y : Halyard) (p : LanePort) : State := blank ((hoisted y).setPort 0 p)
def p0 : LanePort := { LanePort.init with rx := [rp false, rp true], txNext := 0xFFFF }
def byte (n : Nat) : Byte := BitVec.ofNat 8 n
def who : Requester := .halyard 0 0
def y0_2 : Halyard := { Halyard.init with pc := 0xFFE, u := [(1, 5), (2, 0x01020304), (3, 0x50020), (4, 0x50004)] }
def add (b : Blade) (y : Halyard) : State := blank ((b.setStruck (fnCluster 0) false).setHalyard 0 y)
def sm_2 (held mine : Bool) : Blade := ((R0.setReg 0x020B0100 7).setSem 5 { held := held, cls := 1, unit := 0, context := if mine then 0 else 1, generation := 4 })
def who_2 : Port := .tile 3
def armed (b : Blade) : State := blank (b.arm who_2)
def src (n : Nat) (st ca : Bool) (b : Blade) : Blade := b.setSource n { Source.init with sticky := st, cause := ca }
def l0 : LaneId := 17
def mr : MarchRun := { bank := 5, word := 5, borrow := 0, dest := none }
def on (b : Blade) (d : Nat) : Blade := { (b.setReg (0x02003100 + 4 * d) 1) with hw.domainsOn := 0x1FFFFFFFF }
def lat : LoLatch := { port := who_2, address := 0x02000010, value := 99 }
def n5 : Fin 1024 := 5
def pw (a : Word32) : PostedWrite := { port := who_2, address := a, value := 0xDEADBEEF }
def posted (a : Word32) (cards : BitVec 8) : Blade := { R0 with csr.posted := [pw a], hw.cards := cards }
def S := blank act
def d5 := dfr 5 2 [1,2]
def d6 := dfr 6 0 []
def keyed (last : Word32) (request reply : List Byte) : Blade := act.setKeySlot 0 { key := [1], last := last, floor := 0, request := request, reply := reply }
def tq (seq : Word32) (good : Bool) : Request :=
  let r := { rq [] 2 with opcode := 1, size := 32, sequence := seq }
  { r with tag := if good then authTag [1] (rqBody r) else List.replicate 16 0 }
def A0 : Activation := { clusters := [0], dest := rqReplyTo R0 (op 0x22 (rq [])) }
def b8 (l : List Nat) : List Byte := l.map (BitVec.ofNat 8)
def ld (k off total : Nat) : Request := rq (b8 [k,0,0,0] ++ leBytes 4 off ++ leBytes 4 total ++ b8 [1,2,3,4])
def stg (k total : Nat) (verified verifying : Bool) (b : Blade := act) : Blade :=
  { b with eng.staging := { kind := BitVec.ofNat 8 k, total := total, ranges := [(0, total)], verified := verified, verifying := verifying } }
def dom (b : Blade) : Blade := { b with hw.domainsOn := 0x1FFFFFFFF }
def fn (n : Nat) : Request := rq (leBytes 2 n ++ [0,0])
def up : Request := { fn 0x320 with transport := .uplink0, flags := 2, size := 36 }
def tl (b : Blade) : Blade := { b with net.activeTiles := 0xFFFFFFFF }
def upr : Request :=
  let r := { fn 0x320 with transport := .uplink0, dest := 0xFFFF00000001, opcode := 0x30, flags := 2, size := 36 }
  { r with tag := authTag [1] (rqBody r) }
def kb : Blade := { ((dom act).setKeySlot 0 { key := [1], last := 0, floor := 0, request := [], reply := [] }).setStruck 0x320 false with csr.words := [(rUPLINK 0 + 0x10, 1)] }
def g0_2 : Migration := { source := 1, target := 32, rerun := 0, barrier := false, moved := [], unreadable := false }
def t0_3 : TileId := 3
def mrun (word : Word32) (bank : Fin 64) : MarchRun := { bank := bank, word := word, borrow := 3, dest := none }
def lr : LiveRepair := { bank := 2, row := 511, spare := 3, copied := 0 }
def mw (w : Word32) : Request := rq (leBytes 4 w.toNat)
def g1_2 := mrun 5 5
def g2 := mrun 0x45 5
def ws0 : List MarchWord := [{ row := 7, line := 1, word := 2, returned := [(0, 5)] }]
def mf : MarchFail := { row := 7, line := 1, word := 2 }
def ws1 : List MarchWord := [{ row := 7, line := 1, word := 2, returned := ((marchReads 0 [0, 2] 7 2).map (·.expects)).zipIdx.map fun p => (p.2, p.1) }]
def tl_2 (b : Blade) : Blade := { b with net.activeTiles := 0xFFFFFFFF, hw.domainsOn := 0x1FFFFFFFF }
def inj (n mode count : Nat) (fl : BitVec 16) : Request := rq (leBytes 2 n ++ leBytes 1 mode ++ [0] ++ leBytes 4 count) fl
def src_2 (n : Nat) (v : Source) (b : Blade) : Blade := b.setSource n v
def s3 : Source := { Source.init with mode := 3, remaining := 2 }
def cx (st : CtxState) (fl : Option (BitVec 12)) (bal : Word32) : Blade := act.setCtx 0x100 { Ctx.init with state := st, flow := fl, balance := bal }
def code (b : Blade) := withCode b
def post (port node it : Nat) : Request := rq ([0,1] ++ leBytes 2 port ++ leBytes 4 node ++ leBytes 2 it ++ [0,0] ++ leBytes 8 99)
def sm_3 (b : Blade) (perm : Word32) (held : Bool) : Blade := (b.setReg 0x020B0100 perm).setSem 5 { held := held, cls := 1, unit := 0, context := 0, generation := 4 }
def cx_2 (st : CtxState) (bal : Word32) : Blade := act.setCtx 0x100 { Ctx.init with state := st, balance := bal }
def C : BitVec 16 := 0x100
def P (u : Bool) : Parking := { context := 0x100, cause := .monitor, unparking := u, paused := false, waiting := [] }
def rq0 : BitVec 16 × ParkCause := (0x100, .codelet)
def pk (b : Blade) (u : Bool) : Blade := { b with led.parking := some (P u) }
def K : Nat := 0x100
def sf (b : Blade) (n : Nat) : Blade := { b with net.stallFrames := n }
def req (b : Blade) : Blade := { b with led.parkRequests := [rq0] }
def tk : Token := Token.data 0x100 0 0 1 9
def cx_3 (st : CtxState) (bal : Word32) (b : Blade := act) : Blade := b.setCtx 0x100 { Ctx.init with state := st, balance := bal }
def tk_2 (node : BitVec 20) (port : BitVec 2) : Token := Token.data 0x100 0 port node 9
def home (ts : List Token) (b : Blade) : Blade := { b with net.home := [(0, ts)] }
def S0 (ts : List Token) (f : Blade → Blade := id) : State := withCode (f (home ts (cx_3 .live 3)))
def e1 : MatchEntry := .new (tk_2 2 0) 2 0 0
def L : List Token := []
def k2_2 := (tk_2 2 1).set
def pset (v : MatchSet) (b : Blade) : Blade := b.setMset 0 k2_2 v
def e3 : MatchEntry := .new (tk_2 3 0) 3 0 0
def pset3 (v : MatchSet) (b : Blade) : Blade := b.setMset 0 (tk_2 3 1).set v
def other (i : Nat) : MatchEntry := { e1 with iteration := BitVec.ofNat 12 (i + 1) }
def bl (w : List Token) (b : Blade) : Blade := b.setTile 0 { Tile.init with waiting := w }
def k0_2 : Fin 512 := ⟨k2_2, by decide⟩
def w0_2 : Fin 8 := 0
def k3 : Fin 512 := ⟨(tk_2 3 1).set, by decide⟩
def tomb : MatchEntry := { e1 with presence := 0 }
def can (b : Blade) : Blade := b.setCtx 0x100 { Ctx.init with state := .draining, causeCancel := true, balance := 3 }
def ent (node : BitVec 20) (age : Nat) : ReadyEntry := { tokens := [tk_2 node 0], age := age, unreadable := false }
def otk (q : BitVec 16) : Token := { tk_2 1 0 with ordered := true, flow := 0x80, sequence := q }
def hy0 : HeldToken := { token := otk 8, cancelled := false, ofHeads := false, due := false }
def up_2 (b : Blade) : Blade := b.setStruck 0 false
def rdy (es : List ReadyEntry) (b : Blade) : Blade := b.setTile 0 { Tile.init with ready := es }
def S0_2 (f : Blade → Blade) : State := withCode (f (up_2 (cx_3 .live 3)))
def f0_4 := firing []
def RI : List ReleaseItem := []
def E : List ReadyEntry := []
def pe : ReadyEntry := { tokens := [{ tk_2 1 0 with poison := true }], age := 4, unreadable := false }
def fl : Flow := { Flow.init with head := 7, next := 9, owned := true, owner := 0x100, booked := [(8, { left := 1, ofHeads := false })] }
def rel (r : List ReleaseItem) (v : Flow) (b : Blade) : Blade := { b.setFlow 0x80 v with net.release := r }
def dr : DelayRequest := { token := tk_2 1 0, list := 1, amount := 5 }
def n1 : Fin 4 := 1
def DR : List DelayRequest := []
def din (l : List DelayRequest) (d : DelayList) (b : Blade) : Blade := { b.setDelay 1 d with net.delayIn := l }
def w0_3 : QueueStall := { queue := 8193, sealing := false, value := 77, poison := false, since := 0, instruction := false }
def fs : Firing := { firing [] with stall := some w0_3 }
def qa (b : Blade) : Blade := b.setQueue 8193 { queueInit 8193 with quota := 8 }
def fi : Firing := { fs with stall := some { w0_3 with instruction := true } }
def l0_2 : LaneId := 3
def z : Pennant := { endpoint := 0, ackv := false, retx := false, uspace := false, receipt := false, zeroHi := 0, sequence := 5, length := 0, zeroLen := 0, ack := 0, payload := [], crc := 0, codeGroupError := false, innerStart := false }
def mk (type : Nat) (p : Pennant) : Pennant :=
  let p := { p with length := .ofNat 11 p.payload.length }
  { p with crc := crc32 (pennantBody type p) }
def po (st : BitVec 3) : LanePort := { LanePort.init with state := st, energy := true, lock := true, rxExpected := 5, uExpected := 5, up := [(4, { Grant.init with limit := 3 }), (0, { Grant.init with limit := 3 })] }
def S_2 (p : LanePort) (f : Blade → Blade := id) : State := blank (f (act.setPort 3 p))
def dat : Pennant := mk 1 { z with endpoint := 4, payload := [1,2,3] }
def mgm : Pennant := mk 7 { z with endpoint := 0, payload := [1,2,3] }
def urg (s : BitVec 16) : Pennant := mk 2 { z with endpoint := 4, payload := [1], sequence := s }
def ty (n : Nat) : BitVec 4 := BitVec.ofNat 4 n
def bad (k : Nat) : Pennant := mk k { z with zeroHi := 1, endpoint := 1 }
def hasSent (k : BitVec 16) (p : LanePort) : LanePort := { p with tx := [{ mgmt := false, endpoint := 4, sequence := k, payload := [1,2], weak := 0, lost := false, paid := true, sent := true, resend := false, sentFrame := 0 }] }
def tx0 : TxPennant := { mgmt := false, endpoint := 4, sequence := 5, payload := [1,2], weak := 0, lost := false, paid := true, sent := true, resend := false, sentFrame := 0 }
def au : AuditSent := { frame := 0, payload := [7,0,1,2] }
def by4 (a b c d : Nat) : List Byte := [a,b,c,d].map (BitVec.ofNat 8)
def o (n : Nat) : Byte := BitVec.ofNat 8 n
def cr : Pennant := mk 5 { z with sequence := 0, payload := by4 4 0 9 1 }
def aw (b : Byte) : AuditSent := { frame := 0, payload := List.replicate 267 0 ++ [b] }
def fi_2 : Pennant := mk 8 { z with sequence := 0, payload := by4 5 0 1 0 }
def fr (n : Word32) (b : Blade) : Blade := { b with frame := n, fineTicks := 0 }
def R := ([] : List (BitVec 8 × Bool × BitVec 16))
def LK (p : LanePort) (f : Blade → Blade := id) : State := S_2 p f
def by' (l : List Nat) : List Byte := l.map (BitVec.ofNat 8)
def u0 : UplinkId := 0
def opn (h kind port lane ep : Nat) : Request := rq (by' [h,kind,0,0] ++ leBytes 2 port ++ leBytes 2 0 ++ leBytes 2 lane ++ by' [ep,0] ++ leBytes 4 0 ++ List.replicate 16 0)
def ch (b : Blade) (h : Nat) (c : Channel) : Blade := b.setChannel h c
def oc : Channel := { Channel.init with isOpen := true }
def K_2 : Blade := act.setKeySlot 0 { key := [1], last := 0, floor := 0, request := [], reply := [] }
def tag (code : Nat) (r : Request) : Request :=
  let r := { r with flags := 2, opcode := .ofNat 8 code, size := r.size + 16 }
  { r with tag := authTag [1] (rqBody r) }
def K_3 : Blade := (act.setKeySlot 0 { key := [1], last := 0, floor := 0, request := [], reply := [] })
def link (b : Blade) : Blade := { b.setStruck 0x320 false with csr.words := [(rUPLINK 0, 0x4001), (rUPLINK 0 + 4, 1), (rUPLINK 0 + 0x10, 1)] }
def oc_2 : Channel := { Channel.init with isOpen := true, peerPort := 9, kind := 1 }
def B0 (c : Channel) : Blade := (link K_3).setChannel 0 c
def d0 (type : Nat) (flags : Byte) (sq ack : Word32) : Datagram :=
  let d : Datagram := { uplink := 0, dest := 0xFFFF00000001, vlan := none, fragment := false, source := 0, sourcePort := 9, destPort := 4818, magic := 0x48434C50, version := 1, type := .ofNat 8 type, channel := 0, flags := flags, sequence := sq, ack := ack, length := 0, zero := 0, payload := [], tag := [] }
  { d with tag := authTag [1] (datagramBody d) }
def ch_2 : ChannelId := 0
def sg (i k : Nat) : SentSegment := { sequence := 3, first := i, index := k, last := true }
def R_2 : List SentSegment := []
def bad_2 : Datagram := { uplink := 0, dest := 0xFFFF00000001, vlan := none, fragment := false, source := 0, sourcePort := 9, destPort := 4818, magic := 0, version := 1, type := 1, channel := 0, flags := 0, sequence := 0, ack := 0, length := 0, zero := 0, payload := [], tag := [] }
def u1 : UplinkId := 1
def x : PtpMessage := { vlan := none, domain := 0, state := 3, offset := 9, time := 77 }
def de_2 (k : Nat) : DelayEntry := { token := tk, left := k, stamp := 3, unreadable := false }
def run (b : Blade) : Blade := { b with hw.startStep := 11 }
def src_3 : BitVec 11 := 65
def fl_2 (b : Blade) : Blade := (b.setDelay 1 { DelayList.init with onChip := [de_2 2, de_2 5] }).setDelay 0 { DelayList.init with onChip := [de_2 2, de_2 5] } |>.setHalyard 0 { Halyard.init with timer := 9 }
def J (b : Blade) : Blade := { b with pair.duplex := .joined }
def sb : Blade := { R0 with pair.role := .standby, pair.muxChosen := List.range 12, pair.duplex := .joined }
def so : Source := { Source.init with sticky := true, eff := 1, deadline := 1, count := 3, thresholdPassed := true }
def run_2 (b : Blade) : Blade := { b.setStruck 0x340 false with hw.startStep := 11, pair.partnerPresent := true, pair.lock := true, pair.partnerAlive := true, pair.partnerClaim := true }
def sby (d : Duplex) : Blade := { run_2 R0 with pair.role := .standby, pair.muxChosen := List.range 12, pair.duplex := d, pair.claim := false }
def ac (d : Duplex) : Blade := { run_2 act with pair.duplex := d, pair.claim := true, pair.partnerClaim := false }
def k1_2 : Fin 4 := 1
def e0_2 : StartFacts := facts
def st : Blade := { run_2 R0 with hw.startFacts := some e0_2, hw.waitingPartner := true, bladeB := true, hw.startStep := 8 }
def run_3 (b : Blade) : Blade := { (booted b).setStruck 0x340 false with hw.startStep := 11, pair.partnerPresent := true, pair.lock := true, pair.partnerAlive := true, pair.partnerClaim := true }
def sby_2 (d : Duplex) : Blade := { run_3 R0 with pair.role := .standby, pair.muxChosen := List.range 12, pair.duplex := d, pair.claim := false }
def ac_2 (d : Duplex) : Blade := { run_3 act with pair.duplex := d, pair.claim := true, pair.partnerClaim := false }
def D_2 := dfr 0x50 0 [0]
def mx : MuxId := .service
def pf (n : Nat) : PairFacts := { sysId := 0x8128F001, duplexVersion := 1, activeTiles := n }
def st_2 (c : BitVec 2) (b : Blade) : Blade := { b with hw.startFacts := some { e0_2 with carriersReady := c }, hw.waitingPartner := true, hw.startStep := 8 }
def ha (b : Blade) : Blade := { b with pair.handingOver := some D_2 }
def br (bl ty : Nat) (fl : BitVec 16 := 16) : Request := rq ([bl, ty, 0, 0].map (BitVec.ofNat 8)) fl
def fq (n : Nat) : Request := rq [BitVec.ofNat 8 n, 0, 0, 0]
def hasFru (n : Nat) (v : FruState) (b : Blade := act) : State := blank (b.setFru n v)
def pend (b : Blade) : Blade := { b with hw.fruPending := some (dfr 0x52 3 []) }
def supplies (b : Blade) : Blade := (b.setReg (rCHAS + 0x100) 0x30000).setReg (rCHAS + 0x120) 0x30000
def fans (b : Blade) : Blade := ((((b.setFru 14 .inService).setFru 17 .inService).setReg (rFAN 0) 0x800000).setReg (rFAN 1) 0x800000).setReg (rFAN 2) 0x800000 |>.setReg (rFAN 3) 0x800000
def owing (d : BitVec 2) : Blade :=
  { (act.setCarrier 0 { Carrier.init with state := .inService }).setCarrier 1 { Carrier.init with state := .inService } with
    hw.blocks := [{ seq := 1, frame := 9, bytes := [1, 2], done := d }] }
def n3 (k : Nat) : Fin 18 := Fin.ofNat 18 k
def k3_2 (k : Nat) : Fin 16 := Fin.ofNat 16 k
def c3 : ClusterId := 3
def carry (j : Nat) (v : CarrierState) (b : Blade) : Blade := b.setCarrier j { Carrier.init with state := v }
def jb (d : BitVec 2) : JournalBlock := { seq := 1, frame := 9, bytes := [1, 2], done := d }
def j0 : Fin 2 := 0
def j1 : Fin 2 := 1
def block (d : BitVec 2) (b : Blade) : Blade := { b.setStruck fnJournal false with hw.blocks := [jb d] }
def SR : StagedRecord := { frame := 9, stamp := 0, id := 0, bytes := [1, 2], block := 1, written := false, acknowledged := false }
def NB : List JournalBlock := []
def LD : ReplyTo := (dfr 0x51 10 []).dest
def p5 (k : Nat) : Fin 5 := Fin.ofNat 5 k
def j7 (k : Nat) : Fin 7 := Fin.ofNat 7 k
def u2 : UplinkId := 2
def sup : SupplyReading := { stat := 0x20000, vin := 230, vout := 12, env := 0, power := 100, expectedAbsent := false }
def rd : Readings := { supplies := [sup, { sup with vin := 231 }], temps := List.replicate 7 (some 25), fans := List.replicate 4 (true, 6000), supercap := 99, saveReady := true }
def locked : Blade := { act with hw.pllLocks := 0x1F }
def who_3 : Port := .command
def meas (n : Nat) : State := blank { locked with csr.measSel := [(portId .command, .ofNat 32 n)], net.activeTiles := 0x10, hw.domainsOn := 0x1FFFFFFFF }
def rec0 : TrailRecord := { frame := 0, context := 0, reason := 0, node := 0, cls := 1, iteration := 0, value := 0, sequence := 0 }
def fullTrail (b : Blade) : Blade := { b with led.trail := List.replicate 256 rec0 }
def f0_5 := firing [(1, 7)]
def p1 : Port := .tile 3
def p2 : Port := .command
def z_2 : Pennant := { endpoint := 0, ackv := false, retx := false, uspace := false, receipt := false, zeroHi := 0, sequence := 0, length := 0, zeroLen := 0, ack := 0, payload := [], crc := 0, codeGroupError := false, innerStart := false }
def po_2 : LanePort := { LanePort.init with state := 3, energy := true, lock := true }
def aud_2 : Pennant := mk 6 { z_2 with payload := List.replicate 268 0 }
def on3 (p : LanePort) : State := blank (act.setPort 3 p)
def keyed_2 : Blade := act.setKeySlot 0 { key := [1], last := 0, floor := 0, request := [], reply := [] }
def newKey : Request :=
  let r := { rq ([1, 0, 0, 0] ++ List.replicate 32 7) 0x12 with opcode := 5, size := 68 }
  { r with tag := authTag [1] (rqBody r) }
def run_4 (b : Blade) : Blade := { b.setStruck 0x340 false with hw.startStep := 11, hw.inService := true, pair.partnerPresent := true, pair.lock := true, pair.partnerAlive := true }
def pf_2 : PairFacts := { sysId := 0x8128F001, duplexVersion := 0, activeTiles := 0 }
def slot0 : SMap (List Byte) := [(0, [1])]
def uplink1 (b : Blade) : Blade := { b.setStruck 0x321 false with csr.words := [(rUPLINK 1, 0x4001), (rUPLINK 1 + 8, 0),
  (rUPLINK 1 + 0xC, 0), (rUPLINK 1 + 0x10, 0x0A000001), (rUPLINK 1 + 0x14, 0), (rUPLINK 1 + 0x18, 0), (rUPLINK 1 + 0x1C, 0),
  (rUPLINK 1 + 0x20, 1), (rUPLINK 1 + 0x24, 0), (rUPLINK 1 + 0x28, 0), (rUPLINK 1 + 0x2C, 0), (rUPLINK 1 + 0x30, 0),
  (rUPLINK 1 + 0x34, 0), (rUPLINK 1 + 0x38, 0), (rUPLINK 1 + 0x3C, 0), (rUPLINK 1 + 0x40, 0), (rUPLINK 1 + 0x44, 0),
  (rUPLINK 1 + 0x48, 0), (rUPLINK 1 + 0x4C, 0)] }
def ptp : PtpMessage := { vlan := none, domain := 0, state := 3, offset := 9, time := 77 }
def noVlan : Option (BitVec 12) := none
def echoed : List Byte := [1,2]
def uplink2 (b : Blade) : Blade := { b.setStruck 0x322 false with csr.words := [(rUPLINK 2, 0x4001), (rUPLINK 2 + 8, 0),
  (rUPLINK 2 + 0xC, 0), (rUPLINK 2 + 0x10, 0x0A000001), (rUPLINK 2 + 0x14, 0), (rUPLINK 2 + 0x18, 0), (rUPLINK 2 + 0x1C, 0),
  (rUPLINK 2 + 0x20, 1), (rUPLINK 2 + 0x24, 0), (rUPLINK 2 + 0x28, 0), (rUPLINK 2 + 0x2C, 0), (rUPLINK 2 + 0x30, 0),
  (rUPLINK 2 + 0x34, 0), (rUPLINK 2 + 0x38, 0), (rUPLINK 2 + 0x3C, 0), (rUPLINK 2 + 0x40, 0), (rUPLINK 2 + 0x44, 0),
  (rUPLINK 2 + 0x48, 0), (rUPLINK 2 + 0x4C, 0)] }
def f4_2 := firing [(1, 0xFFFFF0), (2, 0x17FFFFFF8), (3, 0x2FFFFFFF8), (4, 0xFFFF), (6, 0x1C0000000), (7, 0xFFFFF8)]
def s4_2 : State := { runs f4_2 with mem.cells := [(0, 0x91), (0xFFFFF8, 0x80), (0xFFFFFF, 0x81)] ++ codeCells }
def k2_3 := firing [(1, 0xFFFFFFFF), (2, 0x1000000), (3, 0x1FFFFFF), (4, 0x2000000), (5, 0x2FFFFFF), (6, 0x2FFFFFFFF)]
def f0_6 := { firing [(1, 0x55), (2, 0xFFFFFFFFFFFF), (3, 65535), (4, 65536), (5, 0xFFFFFF), (6, 0x1000000), (7, 1023), (8, 4), (9, 255), (10, 65536), (11, 256), (12, 65535)] with node := 2, emissions := ems 15, adjustments := List.replicate 7 { cls := 1, value := 0, reason := 0 }, openCount := 3, requests := List.replicate 7 { kind := .close, context := 0x200 } }
def live_2 : Blade := (Blade.reset.modCtx 0x100 fun x => { x with state := .live }).modCtx 65535 fun x => { x with state := .live }
def cx_4 (k : Nat) (st : CtxState) (fl : Option (BitVec 12)) (bal : Word32) : Blade := act.setCtx k { Ctx.init with state := st, flow := fl, balance := bal }
def rc (n : Nat) : Request := rq (leBytes 2 n ++ [0,0])
def sm_4 (n : Nat) (perm : Word32) (held : Bool) : Blade := (act.setReg (0x020B0100) perm).setSem n { held := held, cls := 1, unit := 0, context := 0, generation := 4 }
def au1 (t : Token) : Token := { t with cls := 1 }
def hy0_2 : HeldToken := { token := tk_2 1 0, cancelled := false, ofHeads := false, due := false }
def rel_3 (r : List ReleaseItem) (b : Blade) : Blade := { b with net.release := r }
def inj_3 (b : Blade) : Blade := b.setHalyard 3 { Halyard.init with notices := [tk_2 1 1] }
def dr_3 : DelayRequest := { token := au1 (tk_2 1 0), list := 1, amount := 5 }
def LK_2 (p : LanePort) (f : Blade → Blade := id) : State := blank (f (act.setPort 3 p))
def txl : TxPennant := { tx0 with sent := false, lost := true }
def qq0 : Blade := (qq 8193).setStruck (fnQueue 8193) true
def Q_2 : QueueId := 8193
def rt : Requester := .tile 0
def rc_2 : Requester := .command
def far : Request := { op 1 (rq []) with transport := .uplink0, fragment := true }
def up0 : Blade := act.setStruck 0x320 false
def stb : Blade := { act with pair.role := .standby }
def d5_2 := dfr 5 2 [1, 2]
def stl_2 : Blade := { ((act.setCtx 0x100 { Ctx.init with state := .live, balance := 3, stallLimit := 2 }).setReg 0x02040000 2).setReg 0x02040008 0x0400 with frame := 8, net.stallWaiting := [0x100] }
def noWords : List MarchWord := []
def ac_3 (d : Duplex) : Blade := { run_2 act with pair.duplex := d, pair.claim := true, pair.partnerClaim := false, pair.muxChosen := [] }
def g0_3 : Migration := { source := 1, target := 32, rerun := 0, barrier := true, moved := [], unreadable := false }
def t3 : TileId := 3
def g1_3 : Migration := { g0_3 with barrier := false, moved := List.range 512 }
def D_3 (n : Nat) := dfr 0x50 n [0]
def k9 : Word64 := 9
def waits : Blade := { ac .joined with frame := 8, pair.unreleased := [(7, 9)], pair.commitsSent := 1, pair.handingOver := some (D_3 7) }
def P_2 (u : Bool)  : Parking := { context := 0x100, cause := .monitor, unparking := u, paused := false, waiting := [] }
def pk_2 (b : Blade) (u : Bool) : Blade := { b with led.parking := some (P_2 u) }
def prec (t : Token) : ParkRecord := { token := t, location := 0, list := 0, remaining := 0, frame := 0}
def im (st : Bool) (t : Token) (b : Blade) : Blade := b.setImage 0x100 { ParkImage.init with records := [prec t], stored := st }
def hurtc : Blade := act.setCtx 0x100 { Ctx.init with state := .live, balance := 3, hurt := .uncorrectable }
def runs1 : Blade := { keyed 2 [] [] with eng.deferred := [{ dest := { rqReplyTo R0 (op 1 (rq [])) with request := rqBytes (tq 1 true) }, operand := 0, data := [] }] }
def other_2 (i : Nat) : MatchEntry := { e1 with context := 0x101, iteration := BitVec.ofNat 12 (i + 1) }
def cancel2 : Blade := (cx_3 .live 3).setCtx 0x101 { Ctx.init with state := .draining, causeCancel := true, balance := 9 }
def fullSet : Blade := { cancel2.setMset 0 k2_2 { MatchSet.init with ways := (List.range 8).map other_2 } with net.home := [(0, [tk_2 2 1])] }
def KB : Blade := (act.setKeySlot 0 { key := [1], last := 0, floor := 0, request := [], reply := [] })
def B0_2 (c : Channel) : Blade := (link KB).setChannel 0 c
def dbad : Datagram := { uplink := 0, dest := 0xFFFF00000001, vlan := none, fragment := false, source := 0, sourcePort := 9, destPort := 4818, magic := 0x48434C50, version := 1, type := 2, channel := 0, flags := 4, sequence := 0, ack := 3, length := 0, zero := 0, payload := [], tag := [] }
def lostWord (b : Blade) : State := { blank b with mem.marks := [(0x2E000000, .uncorrectable)] }

end Sys2Proof.Tests
end

