-- ==== Sys2Proof/Tests/Slice0.lean ====
section
/-! SUPPORT. Small tests: an operand that each check of well-formedness refuses, the queue of commands, and the values of the
spec's worked examples. -/

open Sys2Proof Sys2Proof.Machine

-- One proof at a time: every proof is an evaluation in the kernel.
set_option Elab.async false

namespace Sys2Proof.Tests

/-! ## What is well formed -/

def wfSegment : Datagram :=
  { uplink := 0, dest := 0, vlan := none, fragment := false, source := 0, sourcePort := 9, destPort := 4818,
    magic := 0x48434C50, version := 1, type := 1, channel := 0, flags := 0, sequence := 0, ack := 0, length := 0, zero := 0, payload := [], tag := List.replicate 16 0 }
def wfDump : DumpBlock :=
  { blade := 1, cause := 2, head := 0, frame := 3, first := 0, lost := 0, records := List.replicate 4096 0 }

theorem test_wf_accepts : (Instr.registerWrite .command 0x02FFFFFC 7).wf && (Instr.forcedAssertion 1535).wf &&
    (Instr.ping (rq [1])).wf && (Instr.dataPennant 0 z).wf && (Instr.channelData wfSegment).wf &&
    (Instr.inboundBlock (.segment wfSegment)).wf && (Instr.logBlock [.memory 0xFFFFFF 1, .register 0x02000000 2]).wf &&
    (Instr.configBlock (.strike 0x4FFF)).wf && (Instr.dumpBlock wfDump).wf && (Instr.join (pf 34)).wf &&
    (Instr.powerOnReset e0_2).wf && (Instr.pmbusRefresh rd).wf = true := by decide +kernel

theorem test_wf_register_outside : (Instr.registerWrite .command 0x03000000 7).wf = false := by decide
theorem test_wf_register_misaligned : (Instr.loReadLatch .command 0x02000002).wf = false := by decide
theorem test_wf_source : (Instr.forcedAssertion 1536).wf = false := by decide
theorem test_wf_request_size : (Instr.ping { rq [1] with size := 18 }).wf = false := by decide
theorem test_wf_pennant_payload : (Instr.dataPennant 0 { z with payload := List.replicate 2048 0 }).wf = false := by
  decide +kernel
theorem test_wf_datagram_tag : (Instr.channelData { wfSegment with tag := [] }).wf = false := by decide
theorem test_wf_inbound_type : (Instr.inboundBlock (.pennant 0 3 z)).wf = false := by decide
theorem test_wf_log_hole : (Instr.logBlock [.memory 0x1000000 1]).wf = false := by decide
theorem test_wf_config_write : (Instr.configBlock (.write 0x01FFFFFC 0)).wf = false := by decide
theorem test_wf_config_strike : (Instr.configBlock (.strike 0x5000)).wf = false := by decide
theorem test_wf_dump_records : (Instr.dumpBlock { wfDump with records := [] }).wf = false := by decide
theorem test_wf_pair_tiles : (Instr.join (pf 35)).wf = false := by decide
theorem test_wf_start_partner :
    (Instr.powerOnReset { e0_2 with partnerPresent := false, partnerAlive := true }).wf = false := by decide
theorem test_wf_readings_sensors : (Instr.pmbusRefresh { rd with temps := [none] }).wf = false := by decide
theorem test_wf_delay_index : (Instr.delayCancelRemoval 0 73728).wf = false := by decide

/-! ## The queue of commands -/

theorem test_idle : step State.reset = .next State.reset := rfl
theorem test_first_in_first_out : (match step { State.reset with pending := [.usbResync, .tick, .idleBlock] } with
    | .next t => decide (t.pending = [.tick, .idleBlock])
    | _ => false) = true := by decide +kernel

/-! ## Words of codelet instructions, written out from Tables 4.2 to 4.6: one of each format and of each group -/

/-- R: opcode 000001, rd 01100, ra 01000, rb 00010, rc 00000, func 000000. -/
theorem test_word_add : decodeCode 3 0b00000101100010000001000000000000 = some (.add 3 12 8 2 0) := by decide +kernel
/-- R: func 011100 is SEL. -/
theorem test_word_sel : decodeCode 3 0b00000101100010000001000101011100 = some (.sel 3 12 8 2 5) := by decide +kernel
/-- R: opcode 000010, func 000101 is DIVU. -/
theorem test_word_divu : decodeCode 0 0b00001000101001000011000000000101 = some (.divu 0 5 4 6 0) := by decide +kernel
/-- F: opcode 000011, rm 011, bit 7 zero, size 1, func 000010 is FMUL. -/
theorem test_word_fmul :
    decodeCode 0 0b00001100001000100001101101000010 =
      some (.fmul 0 { rd := 1, ra := 2, rb := 3, rm := 3, zero := 0, size := 1 }) := by decide +kernel
/-- M: opcode 000100, rc 00100, rm 101, bits 2 and 1 zero, size 1. -/
theorem test_word_fma :
    decodeCode 0 0b00010000001000100001100100101001 =
      some (.fma 0 { rd := 1, ra := 2, rb := 3, rc := 4, rm := 5, zero := 0, size := 1 }) := by decide +kernel
/-- I: opcode 001010 is ORI, imm16 0x1040. -/
theorem test_word_ori : decodeCode 0 0b00101001111011110001000001000000 = some (.ori 0 15 15 0x1040) := by decide +kernel
/-- S: opcode 011110 is ST32. -/
theorem test_word_st32 : decodeCode 0 0b01111001100010001111111111111100 = some (.st32 0 12 8 0xFFFC) := by decide +kernel
/-- R: opcode 100000, func 000001 is CAS32. -/
theorem test_word_cas32 : decodeCode 0 0b10000000001000100001100100000001 = some (.cas32 0 1 2 3 4) := by decide +kernel
/-- B: opcode 100101 is BNZ, disp21 = -1. -/
theorem test_word_bnz : decodeCode 0 0b10010100111111111111111111111111 = some (.bnz 0 7 0x1FFFFF) := by decide +kernel
/-- N: opcode 101001 is SENDD, port 01, cls 010, ctrl 1, list 11. -/
theorem test_word_sendd :
    decodeCode 0 0b10100101100011110001101010111000 =
      some (.sendd 0 { rv := 12, rt := 15, rdl := 3, port := 1, cls := 2, ctrl := 1, list := 3, zero := 0 }) := by decide +kernel
/-- Z: opcode 111111 is END. -/
theorem test_word_end : decodeCode 0 0b11111100000000000000000000000000 = some (.endFiring 0 0) := by decide +kernel
/-- No opcode 000000, and no func 000111 of opcode 000001 (R196). -/
theorem test_word_none : decodeCode 0 0 = none ∧ decodeCode 0 0b00000100000000000000000000000111 = none := by decide +kernel

/-! ## The spec's worked examples -/

/-- A register of the firing on tile 0 after the instruction at its pc. -/
def regAfter (i : Instr) (g : SMap Word64) (r : RegNo) : Option Word64 :=
  match exec i (coded (runs (firing g)) (firing g) i) with
  | .next t => (t.blade.tile 0).firing.map (·.reg r)
  | _ => none

/-- Table 5.13: the low words of a refund and of a sale, the carry, the high word. -/
theorem test_total_refund_low :
    regAfter (.add 0 12 8 2 0) [(2, 0xFFFFFFFFFFFFF81D), (8, 0x100)] 12 = some 0xFFFFFFFFFFFFF91D := by decide +kernel
theorem test_total_sale_carry :
    regAfter (.carry 0 14 8 2 0) [(2, 0x7D0), (8, 0xFFFFFFFFFFFFF91D)] 14 = some 1 := by decide +kernel
theorem test_total_refund_high :
    regAfter (.addc 0 13 9 10 14) [(9, 1), (10, 0xFFFFFFFFFFFFFFFF), (14, 0)] 13 = some 0 := by decide +kernel

/-- Table 5.14: the product, quotient and remainder of a weighed line. -/
theorem test_weighing_product : regAfter (.mul 0 4 2 3 0) [(2, 2490), (3, 347250)] 4 = some 864652500 := by decide +kernel
theorem test_weighing_quotient :
    regAfter (.divu 0 5 4 6 0) [(4, 864652500), (6, 1000000)] 5 = some 864 := by decide +kernel
theorem test_weighing_remainder :
    regAfter (.remu 0 5 4 6 0) [(4, 864652500), (6, 1000000)] 5 = some 652500 := by decide +kernel

/-- Table 4.16: the tag that SHIFTI and ORI form, and the price token that SEND emits. -/
theorem test_tag_shift : regAfter (.shifti 0 15 13 32) [(13, 6700)] 15 = some 0x00001A2C00000000 := by decide +kernel
theorem test_tag_or :
    regAfter (.ori 0 15 15 0x1040) [(15, 0x00001A2C00000000)] 15 = some 0x00001A2C00001040 := by decide +kernel
def priceSend : Instr := .send 0 { rv := 12, rt := 15, rdl := 0, port := 1, cls := 2, ctrl := 0, list := 0, zero := 0 }
theorem test_price_token :
    (match exec priceSend (coded (runs (firing [(12, 149), (15, 0x00001A2C00001040)])) (firing []) priceSend) with
      | .next t => (t.blade.tile 0).firing.map (·.emissions)
      | _ => none) = some [.now { Token.data 6700 0 1 0x1040 149 with cls := 2 }] := by decide +kernel

/-- Another instruction than the one at the pc does nothing, and a word of no opcode traps ILLEGAL (R196). -/
theorem test_other_word :
    regAfter (.add 0 4 1 2 0) [(1, 3), (2, 4)] 4 = some 7 ∧
      (match exec (.add 0 4 1 2 0) (coded (runs (firing [(1, 3), (2, 4)])) (firing []) (.sub 0 4 1 2 0)) with
        | .next t => (t.blade.tile 0).firing.map (·.reg 4)
        | _ => none) = some 0 := by decide +kernel

/-- The value of the trap token of the chapter on codelets. -/
theorem test_trap_value :
    trapValue { firing [] with node := 0x1044, executed := 36, fps := 0x10 } 4 = 0x0000104400241004 := by decide +kernel

/-- The home, set and filter bit of the basket's tag, and where tiling entry 51 leads with tile 7 lost. -/
theorem test_home : homeIndex 0x1040 0x1A2C = 51 := by decide
theorem test_set : setIndex 0x1A2C 0 0x1040 = 106 := by decide
theorem test_filter : filterBit 0x1A2C 0 0x1040 = 14 := by decide

/-- The tiles that start-up chooses when T07 fails (Table 14.5): logical tile 19 is T20. -/
theorem test_spare_tile : (State.reset.blade.chooseTiles 0x3FFFFFF7F).map (fun b =>
    (b.tiling 51, b.net.activeTiles, (b.readReg .command (rTNET + 4)).1)) = some (20, 0x1FFFFFF7F, 0x6120) := by decide +kernel

/-- Bank, line and row of an address (Table 7.9). -/
theorem test_bank : bankOf 0x3A4F48 = 61 ∧ sramAddr 61 116 (4 * 64) = 0x3A4F40 := by decide

/-- Algorithm 1 with a solid background reads a word five times, the last time ascending and of the background. -/
theorem test_march_reads :
    (marchReads 1 [0] 7 2).map (fun r => (r.element, r.down, r.expects = 0)) =
      [(1, false, True), (2, false, False), (3, true, True), (4, true, False), (5, false, True)] := by
  simp [marchReads, marchElements, background]

/-- The handle of the scan packet (Table 8.9). -/
theorem test_handle : ({ Packet.none with queue := 547, cells := [0x2E11, 0x9A04], tag := 0x5B, length := 128 }).handle =
    0x00800223005B2E11 := by decide

/-- The loop word of SCALE-CONT (Table 9.15). -/
theorem test_microword : uopOf 0x24908F24201820000000000000000000 =
    { Uop.base with nac := 2, next := 0x490, csel := 8, mask := 0xF, alu := 9, bsrc := 2, dst := 1, wen := true, io := 2 } := by
  decide +kernel

/-- The hoist's CRC-8 and two headers (Table 10.15). -/
theorem test_hoist_crc : hoistCrc 0x6E0D = 0xE4 := by decide +kernel
theorem test_display_header : ((TxHeader.of 1 5 0x3A17).bytes (some 0x0C88) (List.replicate 26 0)).take 8 =
    [0x11, 0x05, 0x17, 0x3A, 0x1A, 0x00, 0x88, 0x0C] := by decide +kernel
theorem test_receipt_header : (({ TxHeader.of 3 9 0x41 with uspace := true, receipt := true }).bytes none []).take 8 =
    [0xC3, 0x09, 0x41, 0, 0, 0, 0, 0] := by decide +kernel

/-- The bytes of the STRIKE request before its tag (Table 11.13). -/
theorem test_request_bytes :
    rqBytes { op 0x30 (rq [0x11, 0x01, 0, 0] 6) with sequence := 0x1F41 } =
      [0x50, 0x4C, 0x43, 0x4D, 0x01, 0x30, 0x06, 0x00, 0x41, 0x1F, 0, 0, 4, 0, 0, 0, 0x11, 0x01, 0, 0] := by decide +kernel

/-- Sources and a record (Table 12.14). -/
theorem test_sources : srcTile 6 2 = 402 ∧ srcTile 5 7 = 399 := by decide
theorem test_record : (recordWord 4900002 31500 203311
    { source := 399, type := recFAULT, flags := 0x59, unit := 5, sub := 0, context := 7315, d0 := 0x020B0110, d1 := 0x1207,
      d2 := 0x0A31 }).toNat = leNat [0xA2, 0xC4, 0x4A, 0x00, 0x0C, 0x7B, 0x00, 0x00, 0x8F, 0x01, 0x01, 0x59, 0x05, 0x00,
        0x93, 0x1C, 0x2F, 0x1A, 0x03, 0x00, 0x10, 0x01, 0x0B, 0x02, 0x07, 0x12, 0x00, 0x00, 0x31, 0x0A, 0x00, 0x00] := by
  decide +kernel

/-- The addresses of lane 40, endpoint 4 (Table 16.9). -/
theorem test_addresses : rLANE 2 = 0x02220000 ∧ rEP 40 4 = 0x02221410 ∧ rPORT 40 = 0x0222A000 ∧ srcPort 40 1 = 1361 := by
  decide

end Sys2Proof.Tests
end

