-- ==== Sys2Proof/Tests/Witness1.lean ====
section
/-! SUPPORT. For every statement a concrete state and operands that meet its hypotheses together, clause by clause: part 1. -/

open Sys2Proof Sys2Proof.Machine Sys2Proof.Safety

-- One proof at a time: every proof is an evaluation in the kernel.
set_option Elab.async false

namespace Sys2Proof.Tests

theorem witness_StepRunsFrontCommand :
    (∃ (s : State), s.pending = []) :=
  ⟨State.reset, by decide +kernel⟩

theorem witness_IntegerResults :
    (∃ (s : State) (t : TileId) (f : Firing) (rd : RegNo) (ra : RegNo) (rb : RegNo) (rc : RegNo) (n : BitVec 8) (imm
    : BitVec 16) (h : BitVec 2), ∀ j ∈ ([.xor t rd ra rb 0, .andn t rd ra rb 0, .cmpeq t rd ra rb 0, .cmplt t rd ra
    rb 0, .cmpltu t rd ra rb 0, .sel t rd ra rb rc, .mul t rd ra rb 0, .mulhu t rd ra rb 0, .mulhs t rd ra rb 0, .add
    t rd ra rb 0, .sub t rd ra rb 0, .addc t rd ra rb rc, .subb t rd ra rb rc, .carry t rd ra rb rc, .borrow t rd ra
    rb rc, .neg t rd ra 0 0, .and t rd ra rb 0, .or t rd ra rb 0, .sll t rd ra rb 0, .srl t rd ra rb 0, .sra t rd ra
    rb 0, .rol t rd ra rb 0, .ror t rd ra rb 0, .shifti t rd ra (BitVec.ofNat 16 n.toNat), .shifti t rd ra
    (BitVec.ofNat 16 (256 + n.toNat)), .shifti t rd ra (BitVec.ofNat 16 (512 + n.toNat)), .shifti t rd ra
    (BitVec.ofNat 16 (768 + n.toNat)), .addi t rd ra imm, .andi t rd ra imm, .ori t rd ra imm, .xori t rd ra imm,
    .cmpeqi t rd ra imm, .cmplti t rd ra imm, .cmpltui t rd ra imm, .seth t rd (BitVec.setWidth 5 h) imm] : List
    Instr), Issues (coded s f j) t f ∧ codeOf (coded s f j) t f = some j) :=
  ⟨s0, t0, f0, (4 : RegNo), (1 : RegNo), (2 : RegNo), (3 : RegNo), (5 : BitVec 8), (0xFFF0 : BitVec 16), (2 : BitVec
  2), issue_all (by decide +kernel)⟩

theorem witness_DivisionResults :
    (∃ (s : State) (t : TileId) (f : Firing) (rd : RegNo) (ra : RegNo) (rb : RegNo), ∀ j ∈ ([.div t rd ra rb 0, .rem
    t rd ra rb 0, .divu t rd ra rb 0, .remu t rd ra rb 0, .neg t rd ra 0 0] : List Instr), Issues (coded s f j) t f ∧
    codeOf (coded s f j) t f = some j ∧ f.reg rb ≠ 0 ∧ BitVec.toNat (f.reg ra) = 2 ^ 63 ∧ BitVec.toInt (f.reg rb) =
    -1) ∧
    (∃ (s : State) (t : TileId) (f : Firing) (rd : RegNo) (ra : RegNo) (rb : RegNo), ∀ j ∈ ([.div t rd ra rb 0, .rem
    t rd ra rb 0, .divu t rd ra rb 0, .remu t rd ra rb 0] : List Instr), Issues (coded s f j) t f ∧ codeOf (coded s f
    j) t f = some j ∧ f.reg rb = 0 ∧ (fetchedBlade (coded s f j) t f).trailFull = false) :=
  ⟨⟨runs fN, t0, fN, (4 : RegNo), (1 : RegNo), (2 : RegNo), issue_with (by decide +kernel)⟩,
    ⟨s0, t0, f0, (4 : RegNo), (1 : RegNo), (0 : RegNo), issue_with (by decide +kernel)⟩⟩

theorem witness_FloatResults :
    (∃ (s : State) (t : TileId) (f : Firing) (rd : RegNo) (ra : RegNo) (rb : RegNo) (rc : RegNo) (rm : BitVec 3)
    (size : BitVec 1) (a : FVal) (b : FVal), ∀ j ∈ ([.fcvtI t
    { rd := rd, ra := ra, rb := rb, rm := rm, zero := 0, size := size }, .fcvtU t
    { rd := rd, ra := ra, rb := rb, rm := rm, zero := 0, size := size }, .fcvtFi t
    { rd := rd, ra := ra, rb := rb, rm := rm, zero := 0, size := size }, .fcvtFu t
    { rd := rd, ra := ra, rb := rb, rm := rm, zero := 0, size := size }, .fwiden t
    { rd := rd, ra := ra, rb := 0, rm := rm, zero := 0, size := 0 }, .fnarrow t
    { rd := rd, ra := ra, rb := 0, rm := rm, zero := 0, size := 0 }, .fadd t
    { rd := rd, ra := ra, rb := rb, rm := rm, zero := 0, size := size }, .fsub t
    { rd := rd, ra := ra, rb := rb, rm := rm, zero := 0, size := size }, .fmul t
    { rd := rd, ra := ra, rb := rb, rm := rm, zero := 0, size := size }, .fdiv t
    { rd := rd, ra := ra, rb := rb, rm := rm, zero := 0, size := size }, .fsqrt t
    { rd := rd, ra := ra, rb := 0, rm := rm, zero := 0, size := size }, .fma t
    { rd := rd, ra := ra, rb := rb, rc := rc, rm := rm, zero := 0, size := size }, .fcmpeq t
    { rd := rd, ra := ra, rb := rb, rm := 0, zero := 0, size := size }, .fcmplt t
    { rd := rd, ra := ra, rb := rb, rm := 0, zero := 0, size := size }, .fcmple t
    { rd := rd, ra := ra, rb := rb, rm := 0, zero := 0, size := size }] : List Instr), Issues (coded s f j) t f ∧
    codeOf (coded s f j) t f = some j ∧ rm.toNat ≤ 5 ∧ (a.isNan = true ∨ b.isNan = true)) :=
  ⟨s0_2, t0, f0_2, (4 : RegNo), (1 : RegNo), (2 : RegNo), (3 : RegNo), (0 : BitVec 3), (0 : BitVec 1),
  binary64.unpack 0x7FF8000000000000, binary64.unpack 0x3FF0000000000000, issue_with (by decide +kernel)⟩

theorem witness_WidenIsExact :
    (∃ (w : Word64), (binary32.unpack w).isNan = false) :=
  ⟨(1 : Word64), by decide +kernel⟩

theorem witness_BranchResults :
    (∃ (s : State) (t : TileId) (f : Firing) (ra : RegNo) (rd : RegNo) (disp : BitVec 21), ∀ j ∈ ([.bz t ra disp,
    .bnz t ra disp, .jalr t rd ra 0 0 0, .jal t rd disp] : List Instr), Issues (coded s f j) t f ∧ codeOf (coded s f
    j) t f = some j ∧ f.bad ra = false ∧ f.reg ra ≠ 0 ∧ 0 ≤ ↑f.pc + 4 * disp.toInt ∧ (fetchedMem (coded s f j) t
    f).inSegment f (↑f.pc + 4 * disp.toInt).toNat = true ∧ (fetchedMem (coded s f j) t f).inSegment f (BitVec.toNat
    (f.reg ra)) = true) ∧
    (∃ (s : State) (t : TileId) (f : Firing) (ra : RegNo) (rd : RegNo) (disp : BitVec 21), ∀ j ∈ ([.bz t ra disp,
    .bnz t ra disp, .jalr t rd ra 0 0 0, .jal t rd disp] : List Instr), Issues (coded s f j) t f ∧ codeOf (coded s f
    j) t f = some j ∧ (fetchedBlade (coded s f j) t f).trailFull = false ∧ f.bad ra = true ∧ (↑f.pc + 4 * disp.toInt
    < 0 ∨ (fetchedMem (coded s f j) t f).inSegment f (↑f.pc + 4 * disp.toInt).toNat = false)) ∧
    (∃ (s : State) (t : TileId) (f : Firing) (ra : RegNo) (disp : BitVec 21), ∀ j ∈ ([.bnz t ra disp, .bz t ra disp]
    : List Instr), Issues (coded s f j) t f ∧ codeOf (coded s f j) t f = some j ∧ f.bad ra = false ∧ f.reg ra = 0 ∧ 0
    ≤ ↑f.pc + 4 * disp.toInt ∧ (fetchedMem (coded s f j) t f).inSegment f (↑f.pc + 4 * disp.toInt).toNat = true) ∧
    (∃ (s : State) (t : TileId) (f : Firing) (ra : RegNo) (rd : RegNo) (disp : BitVec 21), ∀ j ∈ ([.bnz t ra disp,
    .jalr t rd ra 0 0 0] : List Instr), Issues (coded s f j) t f ∧ codeOf (coded s f j) t f = some j ∧ (fetchedBlade
    (coded s f j) t f).trailFull = false ∧ (↑f.pc + 4 * disp.toInt < 0 ∨ (fetchedMem (coded s f j) t f).inSegment f
    (↑f.pc + 4 * disp.toInt).toNat = false) ∧ f.bad ra = false ∧ f.reg ra ≠ 0 ∧ (fetchedMem (coded s f j) t
    f).inSegment f (BitVec.toNat (f.reg ra)) = false) ∧
    (∃ (s : State) (t : TileId) (f : Firing) (ra : RegNo) (disp : BitVec 21), ∀ j ∈ ([.bz t ra disp] : List Instr),
    Issues (coded s f j) t f ∧ codeOf (coded s f j) t f = some j ∧ (fetchedBlade (coded s f j) t f).trailFull = false
    ∧ (↑f.pc + 4 * disp.toInt < 0 ∨ (fetchedMem (coded s f j) t f).inSegment f (↑f.pc + 4 * disp.toInt).toNat =
    false) ∧ f.bad ra = false ∧ f.reg ra = 0) :=
  ⟨⟨runs f2, t0, f2, (1 : RegNo), (4 : RegNo), (2 : BitVec 21), issue_with (by decide +kernel)⟩,
    ⟨runs f3, t0, f3, (1 : RegNo), (4 : RegNo), (15 : BitVec 21), issue_with (by decide +kernel)⟩,
    ⟨runs f2, t0, f2, (4 : RegNo), (2 : BitVec 21), issue_with (by decide +kernel)⟩,
    ⟨runs f2, t0, f2, (2 : RegNo), (4 : RegNo), (15 : BitVec 21), issue_with (by decide +kernel)⟩,
    ⟨runs f2, t0, f2, (4 : RegNo), (0x1FFFFE : BitVec 21), issue_with (by decide +kernel)⟩⟩

theorem witness_LoadResults :
    (∃ (s : State) (t : TileId) (f : Firing) (rd : RegNo) (ra : RegNo) (imm : BitVec 16), ∀ j ∈ ([.ld8u t rd ra imm,
    .ld8s t rd ra imm, .ld16u t rd ra imm, .ld16s t rd ra imm, .ld32u t rd ra imm, .ld32s t rd ra imm, .ld64 t rd ra
    imm] : List Instr), Issues (coded s f j) t f ∧ codeOf (coded s f j) t f = some j ∧ f.bad ra = false ∧
    (BitVec.toNat (f.reg ra + BitVec.signExtend 64 imm) < 16777216 ∨ 5637144576 ≤ BitVec.toNat (f.reg ra +
    BitVec.signExtend 64 imm) ∧ BitVec.toNat (f.reg ra + BitVec.signExtend 64 imm) < 6442450944 ∨ 7516192768 ≤
    BitVec.toNat (f.reg ra + BitVec.signExtend 64 imm) ∧ BitVec.toNat (f.reg ra + BitVec.signExtend 64 imm) <
    12884901888) ∧ (fetchedBlade (coded s f j) t f).offline (BitVec.toNat (f.reg ra + BitVec.signExtend 64 imm) / 8 *
    8) = false ∧ (fetchedMem (coded s f j) t f).mark (wordPlace (fetchedBlade (coded s f j) t f) (BitVec.toNat (f.reg
    ra + BitVec.signExtend 64 imm))) = WordMark.sound ∧ BitVec.toNat (f.reg ra + BitVec.signExtend 64 imm) % 2 = 0 ∧
    BitVec.toNat (f.reg ra + BitVec.signExtend 64 imm) % 4 = 0 ∧ BitVec.toNat (f.reg ra + BitVec.signExtend 64 imm) %
    8 = 0) ∧
    (∃ (s : State) (t : TileId) (f : Firing) (rd : RegNo) (ra : RegNo) (imm : BitVec 16), ∀ j ∈ ([.ld8u t rd ra imm,
    .ld8s t rd ra imm, .ld16u t rd ra imm, .ld16s t rd ra imm, .ld32u t rd ra imm, .ld32s t rd ra imm, .ld64 t rd ra
    imm] : List Instr), Issues (coded s f j) t f ∧ codeOf (coded s f j) t f = some j ∧ f.bad ra = false ∧
    (BitVec.toNat (f.reg ra + BitVec.signExtend 64 imm) < 16777216 ∨ 5637144576 ≤ BitVec.toNat (f.reg ra +
    BitVec.signExtend 64 imm) ∧ BitVec.toNat (f.reg ra + BitVec.signExtend 64 imm) < 6442450944 ∨ 7516192768 ≤
    BitVec.toNat (f.reg ra + BitVec.signExtend 64 imm) ∧ BitVec.toNat (f.reg ra + BitVec.signExtend 64 imm) <
    12884901888) ∧ (fetchedBlade (coded s f j) t f).offline (BitVec.toNat (f.reg ra + BitVec.signExtend 64 imm) / 8 *
    8) = false ∧ (fetchedMem (coded s f j) t f).mark (wordPlace (fetchedBlade (coded s f j) t f) (BitVec.toNat (f.reg
    ra + BitVec.signExtend 64 imm))) = WordMark.sound ∧ BitVec.toNat (f.reg ra + BitVec.signExtend 64 imm) % 2 = 0 ∧
    BitVec.toNat (f.reg ra + BitVec.signExtend 64 imm) % 4 = 0 ∧ BitVec.toNat (f.reg ra + BitVec.signExtend 64 imm) %
    8 = 0) ∧
    (∃ (s : State) (t : TileId) (f : Firing) (rd : RegNo) (ra : RegNo) (imm : BitVec 16), ∀ j ∈ ([.ld8u t rd ra imm,
    .ld8s t rd ra imm, .ld16u t rd ra imm, .ld16s t rd ra imm, .ld32u t rd ra imm, .ld32s t rd ra imm, .ld64 t rd ra
    imm] : List Instr), Issues (coded s f j) t f ∧ codeOf (coded s f j) t f = some j ∧ f.bad ra = false ∧
    (BitVec.toNat (f.reg ra + BitVec.signExtend 64 imm) < 16777216 ∨ 5637144576 ≤ BitVec.toNat (f.reg ra +
    BitVec.signExtend 64 imm) ∧ BitVec.toNat (f.reg ra + BitVec.signExtend 64 imm) < 6442450944 ∨ 7516192768 ≤
    BitVec.toNat (f.reg ra + BitVec.signExtend 64 imm) ∧ BitVec.toNat (f.reg ra + BitVec.signExtend 64 imm) <
    12884901888) ∧ (fetchedBlade (coded s f j) t f).offline (BitVec.toNat (f.reg ra + BitVec.signExtend 64 imm) / 8 *
    8) = false ∧ (fetchedMem (coded s f j) t f).mark (wordPlace (fetchedBlade (coded s f j) t f) (BitVec.toNat (f.reg
    ra + BitVec.signExtend 64 imm))) = WordMark.sound ∧ BitVec.toNat (f.reg ra + BitVec.signExtend 64 imm) % 2 = 0 ∧
    BitVec.toNat (f.reg ra + BitVec.signExtend 64 imm) % 4 = 0 ∧ BitVec.toNat (f.reg ra + BitVec.signExtend 64 imm) %
    8 = 0) :=
  ⟨⟨s4_2, t0, f4_2, (5 : RegNo), (0 : RegNo), (0 : BitVec 16), issue_with (by decide +kernel)⟩,
    ⟨s4_2, t0, f4_2, (5 : RegNo), (2 : RegNo), (0 : BitVec 16), issue_with (by decide +kernel)⟩,
    ⟨s4_2, t0, f4_2, (5 : RegNo), (3 : RegNo), (0 : BitVec 16), issue_with (by decide +kernel)⟩⟩

theorem witness_StoreResults :
    (∃ (s : State) (t : TileId) (f : Firing) (rs : RegNo) (ra : RegNo) (imm : BitVec 16), ∀ j ∈ ([.st8 t rs ra imm,
    .st16 t rs ra imm, .st32 t rs ra imm, .st64 t rs ra imm] : List Instr), Issues (coded s f j) t f ∧ codeOf (coded
    s f j) t f = some j ∧ f.bad ra = false ∧ (BitVec.toNat (f.reg ra + BitVec.signExtend 64 imm) < 16777216 ∨
    7516192768 ≤ BitVec.toNat (f.reg ra + BitVec.signExtend 64 imm) ∧ BitVec.toNat (f.reg ra + BitVec.signExtend 64
    imm) < 12884901888) ∧ (fetchedBlade (coded s f j) t f).offline (BitVec.toNat (f.reg ra + BitVec.signExtend 64
    imm)) = false ∧ (fetchedBlade (coded s f j) t f).offline (BitVec.toNat (f.reg ra + BitVec.signExtend 64 imm) / 8
    * 8) = false ∧ (fetchedMem (coded s f j) t f).mark (wordPlace (fetchedBlade (coded s f j) t f) (BitVec.toNat
    (f.reg ra + BitVec.signExtend 64 imm))) = WordMark.sound ∧ BitVec.toNat (f.reg ra + BitVec.signExtend 64 imm) %
    (Instr.st8 t rs ra imm, 1).2 = 0 ∧ BitVec.toNat (f.reg ra + BitVec.signExtend 64 imm) % (Instr.st16 t rs ra imm,
    2).2 = 0 ∧ BitVec.toNat (f.reg ra + BitVec.signExtend 64 imm) % (Instr.st32 t rs ra imm, 4).2 = 0 ∧ BitVec.toNat
    (f.reg ra + BitVec.signExtend 64 imm) % (Instr.st64 t rs ra imm, 8).2 = 0) ∧
    (∃ (s : State) (t : TileId) (f : Firing) (rs : RegNo) (ra : RegNo) (imm : BitVec 16), ∀ j ∈ ([.st8 t rs ra imm,
    .st16 t rs ra imm, .st32 t rs ra imm, .st64 t rs ra imm] : List Instr), Issues (coded s f j) t f ∧ codeOf (coded
    s f j) t f = some j ∧ f.bad ra = false ∧ (BitVec.toNat (f.reg ra + BitVec.signExtend 64 imm) < 16777216 ∨
    7516192768 ≤ BitVec.toNat (f.reg ra + BitVec.signExtend 64 imm) ∧ BitVec.toNat (f.reg ra + BitVec.signExtend 64
    imm) < 12884901888) ∧ (fetchedBlade (coded s f j) t f).offline (BitVec.toNat (f.reg ra + BitVec.signExtend 64
    imm)) = false ∧ (fetchedBlade (coded s f j) t f).offline (BitVec.toNat (f.reg ra + BitVec.signExtend 64 imm) / 8
    * 8) = false ∧ (fetchedMem (coded s f j) t f).mark (wordPlace (fetchedBlade (coded s f j) t f) (BitVec.toNat
    (f.reg ra + BitVec.signExtend 64 imm))) = WordMark.sound ∧ BitVec.toNat (f.reg ra + BitVec.signExtend 64 imm) %
    (Instr.st8 t rs ra imm, 1).2 = 0 ∧ BitVec.toNat (f.reg ra + BitVec.signExtend 64 imm) % (Instr.st16 t rs ra imm,
    2).2 = 0 ∧ BitVec.toNat (f.reg ra + BitVec.signExtend 64 imm) % (Instr.st32 t rs ra imm, 4).2 = 0 ∧ BitVec.toNat
    (f.reg ra + BitVec.signExtend 64 imm) % (Instr.st64 t rs ra imm, 8).2 = 0) :=
  ⟨⟨s4_2, t0, f4_2, (4 : RegNo), (0 : RegNo), (0 : BitVec 16), issue_with (by decide +kernel)⟩,
    ⟨s4_2, t0, f4_2, (4 : RegNo), (3 : RegNo), (0 : BitVec 16), issue_with (by decide +kernel)⟩⟩

theorem witness_CompareAndSwapResults :
    (∃ (s : State) (t : TileId) (f : Firing) (rd : RegNo) (ra : RegNo) (rb : RegNo) (rc : RegNo), ∀ j ∈ ([.cas64 t rd
    ra rb rc, .cas32 t rd ra rb rc] : List Instr), Issues (coded s f j) t f ∧ codeOf (coded s f j) t f = some j ∧
    f.bad ra = false ∧ f.bad rb = false ∧ f.bad rc = false ∧ (BitVec.toNat (f.reg ra) < 16777216 ∨ 7516192768 ≤
    BitVec.toNat (f.reg ra) ∧ BitVec.toNat (f.reg ra) < 12884901888) ∧ (fetchedBlade (coded s f j) t f).offline
    (BitVec.toNat (f.reg ra)) = false ∧ (fetchedBlade (coded s f j) t f).offline (BitVec.toNat (f.reg ra) / 8 * 8) =
    false ∧ (fetchedMem (coded s f j) t f).mark (wordPlace (fetchedBlade (coded s f j) t f) (BitVec.toNat (f.reg
    ra))) = WordMark.sound ∧ BitVec.toNat (f.reg ra) % (Instr.cas64 t rd ra rb rc, 8).2 = 0 ∧ BitVec.toNat (f.reg ra)
    % (Instr.cas32 t rd ra rb rc, 4).2 = 0) ∧
    (∃ (s : State) (t : TileId) (f : Firing) (rd : RegNo) (ra : RegNo) (rb : RegNo) (rc : RegNo), ∀ j ∈ ([.cas64 t rd
    ra rb rc, .cas32 t rd ra rb rc] : List Instr), Issues (coded s f j) t f ∧ codeOf (coded s f j) t f = some j ∧
    f.bad ra = false ∧ f.bad rb = false ∧ f.bad rc = false ∧ (BitVec.toNat (f.reg ra) < 16777216 ∨ 7516192768 ≤
    BitVec.toNat (f.reg ra) ∧ BitVec.toNat (f.reg ra) < 12884901888) ∧ (fetchedBlade (coded s f j) t f).offline
    (BitVec.toNat (f.reg ra)) = false ∧ (fetchedBlade (coded s f j) t f).offline (BitVec.toNat (f.reg ra) / 8 * 8) =
    false ∧ (fetchedMem (coded s f j) t f).mark (wordPlace (fetchedBlade (coded s f j) t f) (BitVec.toNat (f.reg
    ra))) = WordMark.sound ∧ BitVec.toNat (f.reg ra) % (Instr.cas64 t rd ra rb rc, 8).2 = 0 ∧ BitVec.toNat (f.reg ra)
    % (Instr.cas32 t rd ra rb rc, 4).2 = 0) ∧
    (∃ (s : State) (t : TileId) (f : Firing) (rd : RegNo) (ra : RegNo) (rb : RegNo) (rc : RegNo), ∀ j ∈ ([.cas64 t rd
    ra rb rc, .cas32 t rd ra rb rc] : List Instr), Issues (coded s f j) t f ∧ codeOf (coded s f j) t f = some j ∧
    f.bad ra = false ∧ f.bad rb = false ∧ f.bad rc = false ∧ (BitVec.toNat (f.reg ra) < 16777216 ∨ 7516192768 ≤
    BitVec.toNat (f.reg ra) ∧ BitVec.toNat (f.reg ra) < 12884901888) ∧ (fetchedBlade (coded s f j) t f).offline
    (BitVec.toNat (f.reg ra)) = false ∧ (fetchedBlade (coded s f j) t f).offline (BitVec.toNat (f.reg ra) / 8 * 8) =
    false ∧ (fetchedMem (coded s f j) t f).mark (wordPlace (fetchedBlade (coded s f j) t f) (BitVec.toNat (f.reg
    ra))) = WordMark.sound ∧ BitVec.toNat (f.reg ra) % (Instr.cas64 t rd ra rb rc, 8).2 = 0 ∧ BitVec.toNat (f.reg ra)
    % (Instr.cas32 t rd ra rb rc, 4).2 = 0) ∧
    (∃ (s : State) (t : TileId) (f : Firing) (rd : RegNo) (ra : RegNo) (rb : RegNo) (rc : RegNo), ∀ j ∈ ([.cas64 t rd
    ra rb rc, .cas32 t rd ra rb rc] : List Instr), Issues (coded s f j) t f ∧ codeOf (coded s f j) t f = some j ∧
    f.bad ra = false ∧ f.bad rb = false ∧ f.bad rc = false ∧ (BitVec.toNat (f.reg ra) < 16777216 ∨ 7516192768 ≤
    BitVec.toNat (f.reg ra) ∧ BitVec.toNat (f.reg ra) < 12884901888) ∧ (fetchedBlade (coded s f j) t f).offline
    (BitVec.toNat (f.reg ra)) = false ∧ (fetchedBlade (coded s f j) t f).offline (BitVec.toNat (f.reg ra) / 8 * 8) =
    false ∧ (fetchedMem (coded s f j) t f).mark (wordPlace (fetchedBlade (coded s f j) t f) (BitVec.toNat (f.reg
    ra))) = WordMark.sound ∧ BitVec.toNat (f.reg ra) % (Instr.cas64 t rd ra rb rc, 8).2 = 0 ∧ BitVec.toNat (f.reg ra)
    % (Instr.cas32 t rd ra rb rc, 4).2 = 0) ∧
    (∃ (s : State) (t : TileId) (f : Firing) (rd : RegNo) (ra : RegNo) (rb : RegNo) (rc : RegNo), ∀ j ∈ ([.cas64 t rd
    ra rb rc, .cas32 t rd ra rb rc] : List Instr), Issues (coded s f j) t f ∧ codeOf (coded s f j) t f = some j ∧
    (f.bad ra = true ∨ f.bad rb = true ∨ f.bad rc = true) ∧ (fetchedBlade (coded s f j) t f).trailFull = false) :=
  ⟨⟨s4_2, t0, f4_2, (5 : RegNo), (0 : RegNo), (4 : RegNo), (3 : RegNo), issue_with (by decide +kernel)⟩,
    ⟨s4_2, t0, f4_2, (5 : RegNo), (7 : RegNo), (4 : RegNo), (3 : RegNo), issue_with (by decide +kernel)⟩,
    ⟨s4_2, t0, f4_2, (5 : RegNo), (6 : RegNo), (4 : RegNo), (3 : RegNo), issue_with (by decide +kernel)⟩,
    ⟨s4_2, t0, f4_2, (5 : RegNo), (3 : RegNo), (4 : RegNo), (6 : RegNo), issue_with (by decide +kernel)⟩,
    ⟨{ s6 with blade := onTile Blade.reset f7 }, t0, f7, (5 : RegNo), (1 : RegNo), (2 : RegNo), (3 : RegNo),
    issue_with (by decide +kernel)⟩⟩

theorem witness_EmissionResults :
    (∃ (s : State) (t : TileId) (f : Firing) (i : SendFields) (list : BitVec 2) (ra : RegNo) (cls : BitVec 3) (reason
    : BitVec 16), ∀ j ∈ ([.send t
    { rv := i.rv, rt := i.rt, rdl := 0, port := i.port, cls := i.cls, ctrl := i.ctrl, list := 0, zero := i.zero },
    .sendd t
    { rv := i.rv, rt := i.rt, rdl := i.rdl, port := i.port, cls := i.cls, ctrl := i.ctrl, list := list, zero := i.zero },
    .adj t (BitVec.setWidth 5 cls) ra reason] : List Instr), Issues (coded s f j) t f ∧ codeOf (coded s f j) t f =
    some j ∧ i.zero = 0 ∧ f.bad i.rt = false ∧ (f.bad i.rv = true → i.cls = 0) ∧ BitVec.toNat (f.reg i.rt) < 2 ^ 48 ∧
    i.cls.toNat < 5 ∧ i.port ≠ 3 ∧ (i.ctrl = 1 → i.cls = 0) ∧ f.emissions.length < 16 ∧ f.bad i.rdl = false ∧ 1 ≤
    BitVec.toNat (f.reg i.rdl) ∧ (BitVec.toNat (f.reg i.rdl) ≤ if list = 0 then 65535 else 16777215) ∧ f.bad ra =
    false ∧ ((1 ≤ cls.toNat ∧ cls.toNat ≤ 4) ∧ reason.toNat < 65280) ∧ f.adjustments.length < 8) ∧
    (∃ (s : State) (t : TileId) (f : Firing) (i : SendFields) (list : BitVec 2) (ra : RegNo) (cls : BitVec 3) (reason
    : BitVec 16), ∀ j ∈ ([.send t
    { rv := i.rv, rt := i.rt, rdl := 0, port := i.port, cls := i.cls, ctrl := i.ctrl, list := 0, zero := i.zero },
    .sendd t
    { rv := i.rv, rt := i.rt, rdl := i.rdl, port := i.port, cls := i.cls, ctrl := i.ctrl, list := list, zero := i.zero },
    .adj t (BitVec.setWidth 5 cls) ra reason] : List Instr), Issues (coded s f j) t f ∧ codeOf (coded s f j) t f =
    some j ∧ i.zero = 0 ∧ f.bad i.rt = false ∧ (f.bad i.rv = true → i.cls = 0) ∧ BitVec.toNat (f.reg i.rt) < 2 ^ 48 ∧
    i.cls.toNat < 5 ∧ i.port ≠ 3 ∧ (i.ctrl = 1 → i.cls = 0) ∧ f.emissions.length < 16 ∧ (fetchedBlade (coded s f j) t
    f).trailFull = false ∧ f.bad i.rdl = false ∧ (BitVec.toNat (f.reg i.rdl) = 0 ∨ (if list = 0 then 65535 else
    16777215) < BitVec.toNat (f.reg i.rdl)) ∧ f.bad ra = false ∧ (¬((1 ≤ cls.toNat ∧ cls.toNat ≤ 4) ∧ reason.toNat <
    65280))) ∧
    (∃ (s : State) (t : TileId) (f : Firing) (i : SendFields) (list : BitVec 2) (ra : RegNo) (cls : BitVec 3) (reason
    : BitVec 16), ∀ j ∈ ([.send t
    { rv := i.rv, rt := i.rt, rdl := 0, port := i.port, cls := i.cls, ctrl := i.ctrl, list := 0, zero := i.zero },
    .sendd t
    { rv := i.rv, rt := i.rt, rdl := i.rdl, port := i.port, cls := i.cls, ctrl := i.ctrl, list := list, zero := i.zero },
    .adj t (BitVec.setWidth 5 cls) ra reason] : List Instr), Issues (coded s f j) t f ∧ codeOf (coded s f j) t f =
    some j ∧ i.zero = 0 ∧ f.bad i.rt = false ∧ (f.bad i.rv = true → i.cls = 0) ∧ BitVec.toNat (f.reg i.rt) < 2 ^ 48 ∧
    i.cls.toNat < 5 ∧ i.port ≠ 3 ∧ (i.ctrl = 1 → i.cls = 0) ∧ f.emissions.length < 16 ∧ f.bad i.rdl = false ∧ 1 ≤
    BitVec.toNat (f.reg i.rdl) ∧ (BitVec.toNat (f.reg i.rdl) ≤ if list = 0 then 65535 else 16777215) ∧ (fetchedBlade
    (coded s f j) t f).trailFull = false ∧ f.bad ra = false ∧ (¬((1 ≤ cls.toNat ∧ cls.toNat ≤ 4) ∧ reason.toNat <
    65280))) ∧
    (∃ (s : State) (t : TileId) (f : Firing) (i : SendFields) (list : BitVec 2) (ra : RegNo) (cls : BitVec 3) (reason
    : BitVec 16), ∀ j ∈ ([.send t
    { rv := i.rv, rt := i.rt, rdl := 0, port := i.port, cls := i.cls, ctrl := i.ctrl, list := 0, zero := i.zero },
    .sendd t
    { rv := i.rv, rt := i.rt, rdl := i.rdl, port := i.port, cls := i.cls, ctrl := i.ctrl, list := list, zero := i.zero },
    .adj t (BitVec.setWidth 5 cls) ra reason] : List Instr), Issues (coded s f j) t f ∧ codeOf (coded s f j) t f =
    some j ∧ i.zero = 0 ∧ f.bad i.rt = false ∧ (f.bad i.rv = true → i.cls = 0) ∧ BitVec.toNat (f.reg i.rt) < 2 ^ 48 ∧
    i.cls.toNat < 5 ∧ i.port ≠ 3 ∧ (i.ctrl = 1 → i.cls = 0) ∧ f.emissions.length < 16 ∧ (fetchedBlade (coded s f j) t
    f).trailFull = false ∧ f.bad i.rdl = false ∧ (BitVec.toNat (f.reg i.rdl) = 0 ∨ (if list = 0 then 65535 else
    16777215) < BitVec.toNat (f.reg i.rdl)) ∧ f.bad ra = false ∧ (¬((1 ≤ cls.toNat ∧ cls.toNat ≤ 4) ∧ reason.toNat <
    65280))) ∧
    (∃ (s : State) (t : TileId) (f : Firing) (i : SendFields) (list : BitVec 2) (ra : RegNo) (cls : BitVec 3) (reason
    : BitVec 16), ∀ j ∈ ([.send t
    { rv := i.rv, rt := i.rt, rdl := 0, port := i.port, cls := i.cls, ctrl := i.ctrl, list := 0, zero := i.zero },
    .adj t (BitVec.setWidth 5 cls) ra reason] : List Instr), Issues (coded s f j) t f ∧ codeOf (coded s f j) t f =
    some j ∧ i.zero = 0 ∧ f.bad i.rt = false ∧ (f.bad i.rv = true → i.cls = 0) ∧ BitVec.toNat (f.reg i.rt) < 2 ^ 48 ∧
    i.cls.toNat < 5 ∧ i.port ≠ 3 ∧ (i.ctrl = 1 → i.cls = 0) ∧ (fetchedBlade (coded s f j) t f).trailFull = false ∧ 16
    ≤ f.emissions.length ∧ f.bad ra = false ∧ ((1 ≤ cls.toNat ∧ cls.toNat ≤ 4) ∧ reason.toNat < 65280) ∧ 8 ≤
    f.adjustments.length) ∧
    (∃ (s : State) (t : TileId) (f : Firing) (cls : BitVec 3) (x : SendFields), ∀ j ∈ ([.send t
    { rv := x.rv, rt := x.rt, rdl := 0, port := x.port, cls := x.cls, ctrl := x.ctrl, list := 0, zero := x.zero },
    .sendd t x] : List Instr), Issues (coded s f j) t f ∧ codeOf (coded s f j) t f = some j ∧ (fetchedBlade (coded s
    f j) t f).trailFull = false ∧ x.zero = 0 ∧ f.bad x.rt = false ∧ f.bad x.rv = false ∧ f.bad x.rdl = false ∧ (2 ^
    48 ≤ BitVec.toNat (f.reg x.rt) ∨ 5 ≤ x.cls.toNat ∨ x.port = 3 ∨ x.ctrl = 1 ∧ x.cls ≠ 0)) ∧
    (∃ (s : State) (t : TileId) (f : Firing) (ra : RegNo) (cls : BitVec 3) (reason : BitVec 16), ∀ j ∈ ([.adj t
    (BitVec.setWidth 5 cls) ra reason] : List Instr), Issues (coded s f j) t f ∧ codeOf (coded s f j) t f = some j ∧
    (fetchedBlade (coded s f j) t f).trailFull = false ∧ f.bad ra = true) :=
  ⟨⟨runs f0_6, t0, f0_6, x0, (0 : BitVec 2), (1 : RegNo), (4 : BitVec 3), (0xFEFF : BitVec 16),
   issue_with (by decide +kernel)⟩,
    ⟨runs f0_6, t0, f0_6, { x0 with rdl := 4 }, (0 : BitVec 2), (1 : RegNo), (0 : BitVec 3), (0xFEFF : BitVec 16),
    issue_with (by decide +kernel)⟩,
    ⟨runs f0_6, t0, f0_6, { x0 with rdl := 5 }, (3 : BitVec 2), (1 : RegNo), (0 : BitVec 3), (0xFEFF : BitVec 16),
    issue_with (by decide +kernel)⟩,
    ⟨runs f0_6, t0, f0_6, { x0 with rdl := 6 }, (1 : BitVec 2), (1 : RegNo), (0 : BitVec 3), (0xFEFF : BitVec 16),
    issue_with (by decide +kernel)⟩,
    ⟨runs f1_2, t0, f1_2, x0, (0 : BitVec 2), (1 : RegNo), (1 : BitVec 3), (0xFE : BitVec 16),
    issue_with (by decide +kernel)⟩,
    ⟨runs f0_3, t0, f0_3, (1 : BitVec 3), { x0 with cls := 5 }, issue_with (by decide +kernel)⟩,
    ⟨runs f2_2, t0, f2_2, (1 : RegNo), (1 : BitVec 3), (0xFE : BitVec 16), issue_with (by decide +kernel)⟩⟩

theorem witness_ContextInstructions :
    (∃ (s : State) (t : TileId) (f : Firing) (rd : RegNo) (ra : RegNo), ∀ j ∈ ([.closeCtx t rd ra 0, .cancelCtx t rd
    ra 0, .parkCtx t rd ra 0] : List Instr), Issues (coded s f j) t f ∧ codeOf (coded s f j) t f = some j ∧ f.bad ra
    = false ∧ (fetchedBlade (coded s f j) t f).trailFull = false ∧ BitVec.toNat (f.reg ra) < 256) ∧
    (∃ (s : State) (t : TileId) (f : Firing) (rd : RegNo) (ra : RegNo), ∀ j ∈ ([.closeCtx t rd ra 0, .cancelCtx t rd
    ra 0, .parkCtx t rd ra 0] : List Instr), Issues (coded s f j) t f ∧ codeOf (coded s f j) t f = some j ∧ f.bad ra
    = false ∧ (fetchedBlade (coded s f j) t f).trailFull = false ∧ 65536 ≤ BitVec.toNat (f.reg ra)) ∧
    (∃ (s : State) (t : TileId) (f : Firing) (rd : RegNo) (ra : RegNo), ∀ j ∈ ([.closeCtx t rd ra 0, .cancelCtx t rd
    ra 0, .parkCtx t rd ra 0] : List Instr), Issues (coded s f j) t f ∧ codeOf (coded s f j) t f = some j ∧ f.bad ra
    = false ∧ 256 ≤ BitVec.toNat (f.reg ra) ∧ BitVec.toNat (f.reg ra) < 65536 ∧ f.requests.length < 8 ∧ (∀ o ∈
    f.opens, o.context.toNat ≠ BitVec.toNat (f.reg ra)) ∧ (∀ r ∈ f.requests, r.context.toNat ≠ BitVec.toNat (f.reg
    ra))) ∧
    (∃ (s : State) (t : TileId) (f : Firing) (rd : RegNo) (ra : RegNo), ∀ j ∈ ([.closeCtx t rd ra 0, .cancelCtx t rd
    ra 0, .parkCtx t rd ra 0] : List Instr), Issues (coded s f j) t f ∧ codeOf (coded s f j) t f = some j ∧ f.bad ra
    = false ∧ 256 ≤ BitVec.toNat (f.reg ra) ∧ BitVec.toNat (f.reg ra) < 65536 ∧ f.requests.length < 8 ∧ (∀ o ∈
    f.opens, o.context.toNat ≠ BitVec.toNat (f.reg ra)) ∧ (∀ r ∈ f.requests, r.context.toNat ≠ BitVec.toNat (f.reg
    ra))) ∧
    (∃ (s : State) (t : TileId) (f : Firing) (rd : RegNo) (ra : RegNo), ∀ j ∈ ([.closeCtx t rd ra 0, .cancelCtx t rd
    ra 0, .parkCtx t rd ra 0] : List Instr), Issues (coded s f j) t f ∧ codeOf (coded s f j) t f = some j ∧ f.bad ra
    = false ∧ (fetchedBlade (coded s f j) t f).trailFull = false ∧ 256 ≤ BitVec.toNat (f.reg ra) ∧ BitVec.toNat
    (f.reg ra) < 65536 ∧ 8 ≤ f.requests.length) ∧
    (∃ (s : State) (t : TileId) (f : Firing) (rd : RegNo) (ra : RegNo) (slot : BitVec 2) (c : ℕ) (l : FreeList), ∀ j
    ∈ ([.openCtx t rd ra (BitVec.ofNat 16 (slot.toNat * 2 ^ 14))] : List Instr), Issues (coded s f j) t f ∧ codeOf
    (coded s f j) t f = some j ∧ slot ≠ 3 ∧ f.bad ra = false ∧ BitVec.toNat (f.reg ra) < 2 ^ 20 ∧ (BitVec.toNat
    (f.reg ra) < (fetchedMem (coded s f j) t f).nodeCount (if slot = 0 then f.slotB else decide (slot = 2))) ∧
    (((fetchedMem (coded s f j) t f).desc (if slot = 0 then f.slotB else decide (slot = 2)) (BitVec.toNat (f.reg
    ra))).arity = 1) ∧ f.openCount < 4 ∧ (fetchedBlade (coded s f j) t f).flag rCTX 0 = true ∧ (fetchedBlade (coded s
    f j) t f).led.free.take = some (c, l)) ∧
    (∃ (s : State) (t : TileId) (f : Firing) (rd : RegNo) (ra : RegNo) (slot : BitVec 2), ∀ j ∈ ([.openCtx t rd ra
    (BitVec.ofNat 16 (slot.toNat * 2 ^ 14))] : List Instr), Issues (coded s f j) t f ∧ codeOf (coded s f j) t f =
    some j ∧ slot ≠ 3 ∧ f.bad ra = false ∧ BitVec.toNat (f.reg ra) < 2 ^ 20 ∧ (BitVec.toNat (f.reg ra) < (fetchedMem
    (coded s f j) t f).nodeCount (if slot = 0 then f.slotB else decide (slot = 2))) ∧ (((fetchedMem (coded s f j) t
    f).desc (if slot = 0 then f.slotB else decide (slot = 2)) (BitVec.toNat (f.reg ra))).arity = 1) ∧ f.openCount < 4
    ∧ ((fetchedBlade (coded s f j) t f).flag rCTX 0 = false ∨ (fetchedBlade (coded s f j) t f).led.free.take = none)) ∧
    (∃ (s : State) (t : TileId) (f : Firing) (rd : RegNo) (ra : RegNo) (slot : BitVec 2), ∀ j ∈ ([.openCtx t rd ra
    (BitVec.ofNat 16 (slot.toNat * 2 ^ 14))] : List Instr), Issues (coded s f j) t f ∧ codeOf (coded s f j) t f =
    some j ∧ slot ≠ 3 ∧ f.bad ra = false ∧ BitVec.toNat (f.reg ra) < 2 ^ 20 ∧ (BitVec.toNat (f.reg ra) < (fetchedMem
    (coded s f j) t f).nodeCount (if slot = 0 then f.slotB else decide (slot = 2))) ∧ (((fetchedMem (coded s f j) t
    f).desc (if slot = 0 then f.slotB else decide (slot = 2)) (BitVec.toNat (f.reg ra))).arity = 1) ∧ 4 ≤ f.openCount
    ∧ (fetchedBlade (coded s f j) t f).trailFull = false) :=
  ⟨⟨runs' live_2 f0_6, t0, f0_6, (5 : RegNo), (9 : RegNo), issue_with (by decide +kernel)⟩,
    ⟨runs' live_2 f0_6, t0, f0_6, (5 : RegNo), (10 : RegNo), issue_with (by decide +kernel)⟩,
    ⟨runs' live_2 f0_6, t0, f0_6, (5 : RegNo), (11 : RegNo), issue_with (by decide +kernel)⟩,
    ⟨runs' live_2 f0_6, t0, f0_6, (5 : RegNo), (12 : RegNo), issue_with (by decide +kernel)⟩,
    ⟨runs g1, t0, g1, (5 : RegNo), (2 : RegNo), issue_with (by decide +kernel)⟩,
    ⟨runs g0, t0, g0, (5 : RegNo), (1 : RegNo), (0 : BitVec 2), (256 : Nat), FreeList.full 257 65535,
    issue_with (by decide +kernel)⟩,
    ⟨runs' (live.setReg rCTX 0) g0, t0, g0, (5 : RegNo), (1 : RegNo), (1 : BitVec 2), issue_with (by decide +kernel)⟩,
    ⟨runs g1, t0, g1, (5 : RegNo), (1 : RegNo), (0 : BitVec 2), issue_with (by decide +kernel)⟩⟩

theorem witness_SpecialInstructions :
    (∃ (s : State) (t : TileId) (f : Firing) (rd : RegNo) (ra : RegNo) (rb : RegNo), ∀ j ∈ ([.mfs t rd 0 10, .mfs t
    rd 0 11, .mfs t rd 0 0, .mfs t rd 0 1, .mfs t rd 0 2, .mfs t rd 0 3, .mfs t rd 0 4, .mfs t rd 0 5, .mfs t rd 0 6,
    .mfs t rd 0 7, .mfs t rd 0 9, .mfs t rd 0 8, .mts t 0 ra 0, .semAcq t rd ra 0 0 0, .semRel t rd ra rb 0 0] : List
    Instr), Issues (coded s f j) t f ∧ codeOf (coded s f j) t f = some j ∧ f.bad ra = false ∧ f.bad rb = false ∧
    BitVec.toNat (f.reg ra) < 1024 ∧ (fetchedBlade (coded s f j) t f).flag (rATOM + 256 + 4 * (BitVec.toNat (f.reg
    ra) / 32)) 0 = true ∧ (((fetchedBlade (coded s f j) t f).sem (BitVec.toNat (f.reg ra))).held = false ∨
    (((fetchedBlade (coded s f j) t f).sem (BitVec.toNat (f.reg ra))).held && decide (((fetchedBlade (coded s f j) t
    f).sem (BitVec.toNat (f.reg ra))).cls = 0) && decide (((fetchedBlade (coded s f j) t f).sem (BitVec.toNat (f.reg
    ra))).unit = 0) && decide (((fetchedBlade (coded s f j) t f).sem (BitVec.toNat (f.reg ra))).context = f.context))
    = true) ∧ ((((fetchedBlade (coded s f j) t f).sem (BitVec.toNat (f.reg ra))).held && decide (((fetchedBlade
    (coded s f j) t f).sem (BitVec.toNat (f.reg ra))).cls = 0) && decide (((fetchedBlade (coded s f j) t f).sem
    (BitVec.toNat (f.reg ra))).unit = 0) && decide (((fetchedBlade (coded s f j) t f).sem (BitVec.toNat (f.reg
    ra))).context = f.context)) = false ∨ BitVec.toNat (f.reg rb) % 2 ^ 16 ≠ ((fetchedBlade (coded s f j) t f).sem
    (BitVec.toNat (f.reg ra))).generation.toNat)) ∧
    (∃ (s : State) (t : TileId) (f : Firing) (rd : RegNo) (ra : RegNo) (imm : BitVec 16) (rb : RegNo), ∀ j ∈ ([.mfs t
    rd 0 10, .mfs t rd 0 11, .mfs t rd 0 0, .mfs t rd 0 1, .mfs t rd 0 2, .mfs t rd 0 3, .mfs t rd 0 4, .mfs t rd 0
    5, .mfs t rd 0 6, .mfs t rd 0 7, .mfs t rd 0 9, .mfs t rd 0 8, .mts t 0 ra 0, .mfs t rd 0 imm, .mts t 0 ra imm,
    .semAcq t rd ra 0 0 0, .semRel t rd ra rb 0 0] : List Instr), Issues (coded s f j) t f ∧ codeOf (coded s f j) t f
    = some j ∧ f.bad ra = false ∧ (fetchedBlade (coded s f j) t f).trailFull = false ∧ 12 ≤ imm.toNat ∧ 2 ≤ imm.toNat
    ∧ f.bad rb = false ∧ BitVec.toNat (f.reg ra) < 1024 ∧ (fetchedBlade (coded s f j) t f).flag (rATOM + 256 + 4 *
    (BitVec.toNat (f.reg ra) / 32)) 0 = true ∧ (((fetchedBlade (coded s f j) t f).sem (BitVec.toNat (f.reg ra))).held
    = false ∨ (((fetchedBlade (coded s f j) t f).sem (BitVec.toNat (f.reg ra))).held && decide (((fetchedBlade (coded
    s f j) t f).sem (BitVec.toNat (f.reg ra))).cls = 0) && decide (((fetchedBlade (coded s f j) t f).sem
    (BitVec.toNat (f.reg ra))).unit = 0) && decide (((fetchedBlade (coded s f j) t f).sem (BitVec.toNat (f.reg
    ra))).context = f.context)) = true) ∧ ((((fetchedBlade (coded s f j) t f).sem (BitVec.toNat (f.reg ra))).held &&
    decide (((fetchedBlade (coded s f j) t f).sem (BitVec.toNat (f.reg ra))).cls = 0) && decide (((fetchedBlade
    (coded s f j) t f).sem (BitVec.toNat (f.reg ra))).unit = 0) && decide (((fetchedBlade (coded s f j) t f).sem
    (BitVec.toNat (f.reg ra))).context = f.context)) = false ∨ BitVec.toNat (f.reg rb) % 2 ^ 16 ≠ ((fetchedBlade
    (coded s f j) t f).sem (BitVec.toNat (f.reg ra))).generation.toNat)) ∧
    (∃ (s : State) (t : TileId) (f : Firing) (rd : RegNo) (ra : RegNo) (imm : BitVec 16) (rb : RegNo), ∀ j ∈ ([.mfs t
    rd 0 10, .mfs t rd 0 11, .mfs t rd 0 0, .mfs t rd 0 1, .mfs t rd 0 2, .mfs t rd 0 3, .mfs t rd 0 4, .mfs t rd 0
    5, .mfs t rd 0 6, .mfs t rd 0 7, .mfs t rd 0 9, .mfs t rd 0 8, .mts t 0 ra 0, .mts t 0 ra imm, .semAcq t rd ra 0
    0 0, .semRel t rd ra rb 0 0] : List Instr), Issues (coded s f j) t f ∧ codeOf (coded s f j) t f = some j ∧ f.bad
    ra = false ∧ (fetchedBlade (coded s f j) t f).trailFull = false ∧ 2 ≤ imm.toNat ∧ f.bad rb = false ∧ BitVec.toNat
    (f.reg ra) < 1024 ∧ (fetchedBlade (coded s f j) t f).flag (rATOM + 256 + 4 * (BitVec.toNat (f.reg ra) / 32)) 0 =
    true ∧ (((fetchedBlade (coded s f j) t f).sem (BitVec.toNat (f.reg ra))).held = false ∨ (((fetchedBlade (coded s
    f j) t f).sem (BitVec.toNat (f.reg ra))).held && decide (((fetchedBlade (coded s f j) t f).sem (BitVec.toNat
    (f.reg ra))).cls = 0) && decide (((fetchedBlade (coded s f j) t f).sem (BitVec.toNat (f.reg ra))).unit = 0) &&
    decide (((fetchedBlade (coded s f j) t f).sem (BitVec.toNat (f.reg ra))).context = f.context)) = true) ∧
    ((((fetchedBlade (coded s f j) t f).sem (BitVec.toNat (f.reg ra))).held && decide (((fetchedBlade (coded s f j) t
    f).sem (BitVec.toNat (f.reg ra))).cls = 0) && decide (((fetchedBlade (coded s f j) t f).sem (BitVec.toNat (f.reg
    ra))).unit = 0) && decide (((fetchedBlade (coded s f j) t f).sem (BitVec.toNat (f.reg ra))).context = f.context))
    = false ∨ BitVec.toNat (f.reg rb) % 2 ^ 16 ≠ ((fetchedBlade (coded s f j) t f).sem (BitVec.toNat (f.reg
    ra))).generation.toNat)) ∧
    (∃ (s : State) (t : TileId) (f : Firing) (ra : RegNo), ∀ j ∈ ([.mts t 0 ra 1] : List Instr), Issues (coded s f j)
    t f ∧ codeOf (coded s f j) t f = some j ∧ f.bad ra = false ∧ BitVec.toNat (f.reg ra) % 8 < 5) ∧
    (∃ (s : State) (t : TileId) (f : Firing) (rd : RegNo) (ra : RegNo) (rb : RegNo), ∀ j ∈ ([.semRel t rd ra rb 0 0]
    : List Instr), Issues (coded s f j) t f ∧ codeOf (coded s f j) t f = some j ∧ f.bad ra = false ∧ f.bad rb = false
    ∧ BitVec.toNat (f.reg ra) < 1024 ∧ (fetchedBlade (coded s f j) t f).flag (rATOM + 256 + 4 * (BitVec.toNat (f.reg
    ra) / 32)) 0 = true ∧ (((fetchedBlade (coded s f j) t f).sem (BitVec.toNat (f.reg ra))).held && decide
    (((fetchedBlade (coded s f j) t f).sem (BitVec.toNat (f.reg ra))).cls = 0) && decide (((fetchedBlade (coded s f
    j) t f).sem (BitVec.toNat (f.reg ra))).unit = 0) && decide (((fetchedBlade (coded s f j) t f).sem (BitVec.toNat
    (f.reg ra))).context = f.context)) = true ∧ BitVec.toNat (f.reg rb) % 2 ^ 16 = ((fetchedBlade (coded s f j) t
    f).sem (BitVec.toNat (f.reg ra))).generation.toNat) ∧
    (∃ (s : State) (t : TileId) (f : Firing) (rd : RegNo) (ra : RegNo) (rb : RegNo), ∀ j ∈ ([.semAcq t rd ra 0 0 0] :
    List Instr), Issues (coded s f j) t f ∧ codeOf (coded s f j) t f = some j ∧ f.bad ra = false ∧ f.bad rb = false ∧
    BitVec.toNat (f.reg ra) < 1024 ∧ (fetchedBlade (coded s f j) t f).flag (rATOM + 256 + 4 * (BitVec.toNat (f.reg
    ra) / 32)) 0 = true ∧ ((fetchedBlade (coded s f j) t f).sem (BitVec.toNat (f.reg ra))).held = true ∧
    (((fetchedBlade (coded s f j) t f).sem (BitVec.toNat (f.reg ra))).held && decide (((fetchedBlade (coded s f j) t
    f).sem (BitVec.toNat (f.reg ra))).cls = 0) && decide (((fetchedBlade (coded s f j) t f).sem (BitVec.toNat (f.reg
    ra))).unit = 0) && decide (((fetchedBlade (coded s f j) t f).sem (BitVec.toNat (f.reg ra))).context = f.context))
    = false) :=
  ⟨⟨runs f0_6, t0, f0_6, (5 : RegNo), (1 : RegNo), (7 : RegNo), issue_with (by decide +kernel)⟩,
    ⟨runs f0_6, t0, f0_6, (5 : RegNo), (7 : RegNo), (12 : BitVec 16), (7 : RegNo), issue_with (by decide +kernel)⟩,
    ⟨runs f0_6, t0, f0_6, (5 : RegNo), (7 : RegNo), (2 : BitVec 16), (8 : RegNo), issue_with (by decide +kernel)⟩,
    ⟨runs h0, t0, h0, (1 : RegNo), issue_with (by decide +kernel)⟩,
    ⟨runs' (held true) h1, t0, h1, (5 : RegNo), (1 : RegNo), (2 : RegNo), issue_with (by decide +kernel)⟩,
    ⟨runs' (held false) h1, t0, h1, (5 : RegNo), (1 : RegNo), (3 : RegNo), issue_with (by decide +kernel)⟩⟩

theorem witness_EndResults :
    (∃ (s : State) (t : TileId) (f : Firing), ∀ j ∈ ([.endFiring t 0] : List Instr), Issues (coded s f j) t f ∧
    codeOf (coded s f j) t f = some j ∧ f.emissions = [] ∧ f.adjustments = [] ∧ f.opens = [] ∧ f.requests = [] ∧ (∀ i
    ∈ f.inputs, i.cls = 0) ∧ (fetchedBlade (coded s f j) t f).trailFull = false) :=
  ⟨runs' live e0, t0, e0, issue_with (by decide +kernel)⟩

theorem witness_TrapCauses :
    (∃ (s : State) (t : TileId) (f : Firing) (rd : RegNo) (ra : RegNo) (rb : RegNo) (rc : RegNo), ∀ j ∈ ([.add t rd
    ra rb rc, .mul t rd ra rb rc, .div t rd ra rb rc, .mfs t rd rc 0, .semAcq t rd ra rc 0 0, .ld8u t rd ra 0, .ld64
    t rd ra 0, .st8 t rb ra 0, .st64 t rb ra 0, .cas64 t rd ra rb rc] : List Instr), Issues (coded s f j) t f ∧
    codeOf (coded s f j) t f = some j ∧ ((coded s f j).blade.tile ↑t).firing = some f ∧ f.stall = none ∧ (coded s f
    j).blade.stopped = false ∧ (coded s f j).blade.trailFull = false ∧ (fetchedBlade (coded s f j) t f).trailFull =
    false ∧ rc ≠ 0 ∧ f.bad ra = false ∧ f.bad rb = false ∧ f.bad rc = false ∧ 50331648 ≤ BitVec.toNat (f.reg ra) ∧
    (BitVec.toNat (f.reg ra) < 4294967296 ∨ 12884901888 ≤ BitVec.toNat (f.reg ra))) ∧
    (∃ (s : State) (t : TileId) (f : Firing) (rd : RegNo) (ra : RegNo) (rb : RegNo) (rc : RegNo), ∀ j ∈ ([.add t rd
    ra rb rc, .mul t rd ra rb rc, .div t rd ra rb rc, .mfs t rd rc 0, .semAcq t rd ra rc 0 0, .ld8u t rd ra 0, .ld64
    t rd ra 0, .st16 t rb ra 0, .cas64 t rd ra rb rc] : List Instr), Issues (coded s f j) t f ∧ codeOf (coded s f j)
    t f = some j ∧ ((coded s f j).blade.tile ↑t).firing = some f ∧ f.stall = none ∧ (coded s f j).blade.stopped =
    false ∧ (coded s f j).blade.trailFull = false ∧ (fetchedBlade (coded s f j) t f).trailFull = false ∧ rc ≠ 0 ∧
    f.bad ra = false ∧ f.bad rb = false ∧ f.bad rc = false ∧ 16777216 ≤ BitVec.toNat (f.reg ra) ∧ BitVec.toNat (f.reg
    ra) < 33554432) ∧
    (∃ (s : State) (t : TileId) (f : Firing) (rd : RegNo) (ra : RegNo) (rb : RegNo) (rc : RegNo), ∀ j ∈ ([.add t rd
    ra rb rc, .mul t rd ra rb rc, .div t rd ra rb rc, .mfs t rd rc 0, .semAcq t rd ra rc 0 0, .ld8u t rd ra 0, .ld64
    t rd ra 0, .st16 t rb ra 0, .cas64 t rd ra rb rc, .ld32u t rd ra 0, .st32 t rb ra 0] : List Instr), Issues (coded
    s f j) t f ∧ codeOf (coded s f j) t f = some j ∧ ((coded s f j).blade.tile ↑t).firing = some f ∧ f.stall = none ∧
    (coded s f j).blade.stopped = false ∧ (coded s f j).blade.trailFull = false ∧ (fetchedBlade (coded s f j) t
    f).trailFull = false ∧ rc ≠ 0 ∧ f.bad ra = false ∧ f.bad rb = false ∧ f.bad rc = false ∧ 16777216 ≤ BitVec.toNat
    (f.reg ra) ∧ BitVec.toNat (f.reg ra) < 33554432 ∧ BitVec.toNat (f.reg ra) % 4 ≠ 0) ∧
    (∃ (s : State) (t : TileId) (f : Firing) (rd : RegNo) (ra : RegNo) (rb : RegNo) (rc : RegNo), ∀ j ∈ ([.add t rd
    ra rb rc, .mul t rd ra rb rc, .div t rd ra rb rc, .mfs t rd rc 0, .semAcq t rd ra rc 0 0, .ld16s t rd ra 0, .st64
    t rb ra 0, .cas32 t rd ra rb rc] : List Instr), Issues (coded s f j) t f ∧ codeOf (coded s f j) t f = some j ∧
    ((coded s f j).blade.tile ↑t).firing = some f ∧ f.stall = none ∧ (coded s f j).blade.stopped = false ∧ (coded s f
    j).blade.trailFull = false ∧ (fetchedBlade (coded s f j) t f).trailFull = false ∧ rc ≠ 0 ∧ f.bad ra = false ∧
    f.bad rb = false ∧ f.bad rc = false ∧ 33554432 ≤ BitVec.toNat (f.reg ra) ∧ BitVec.toNat (f.reg ra) < 50331648) ∧
    (∃ (s : State) (t : TileId) (f : Firing) (rd : RegNo) (ra : RegNo) (rb : RegNo) (rc : RegNo), ∀ j ∈ ([.add t rd
    ra rb rc, .mul t rd ra rb rc, .div t rd ra rb rc, .mfs t rd rc 0, .semAcq t rd ra rc 0 0, .ld16s t rd ra 0, .st64
    t rb ra 0, .cas32 t rd ra rb rc, .ld32s t rd ra 0, .st32 t rb ra 0] : List Instr), Issues (coded s f j) t f ∧
    codeOf (coded s f j) t f = some j ∧ ((coded s f j).blade.tile ↑t).firing = some f ∧ f.stall = none ∧ (coded s f
    j).blade.stopped = false ∧ (coded s f j).blade.trailFull = false ∧ (fetchedBlade (coded s f j) t f).trailFull =
    false ∧ rc ≠ 0 ∧ f.bad ra = false ∧ f.bad rb = false ∧ f.bad rc = false ∧ 33554432 ≤ BitVec.toNat (f.reg ra) ∧
    BitVec.toNat (f.reg ra) < 50331648 ∧ BitVec.toNat (f.reg ra) % 4 ≠ 0) ∧
    (∃ (s : State) (t : TileId) (f : Firing) (rd : RegNo) (ra : RegNo) (rb : RegNo) (rc : RegNo), ∀ j ∈ ([.add t rd
    ra rb rc, .mul t rd ra rb rc, .div t rd ra rb rc, .mfs t rd rc 0, .semAcq t rd ra rc 0 0, .ld16u t rd ra 0, .st16
    t rb ra 0, .ld64 t rd ra 0, .st64 t rb ra 0, .cas64 t rd ra rb rc] : List Instr), Issues (coded s f j) t f ∧
    codeOf (coded s f j) t f = some j ∧ ((coded s f j).blade.tile ↑t).firing = some f ∧ f.stall = none ∧ (coded s f
    j).blade.stopped = false ∧ (coded s f j).blade.trailFull = false ∧ (fetchedBlade (coded s f j) t f).trailFull =
    false ∧ rc ≠ 0 ∧ f.bad ra = false ∧ f.bad rb = false ∧ f.bad rc = false ∧ (BitVec.toNat (f.reg ra) < 16777216 ∨
    7516192768 ≤ BitVec.toNat (f.reg ra) ∧ BitVec.toNat (f.reg ra) < 12884901888) ∧ BitVec.toNat (f.reg ra) % 2 ≠ 0 ∧
    BitVec.toNat (f.reg ra) % 8 ≠ 0) ∧
    (∃ (s : State) (t : TileId) (f : Firing) (rd : RegNo) (ra : RegNo) (rb : RegNo) (rc : RegNo), ∀ j ∈ ([.st8 t rb
    ra 0, .st64 t rb ra 0, .cas32 t rd ra rb rc] : List Instr), Issues (coded s f j) t f ∧ codeOf (coded s f j) t f =
    some j ∧ (fetchedBlade (coded s f j) t f).trailFull = false ∧ f.bad ra = false ∧ f.bad rb = false ∧ f.bad rc =
    false ∧ 4294967296 ≤ BitVec.toNat (f.reg ra) ∧ BitVec.toNat (f.reg ra) < 7516192768) ∧
    (∃ (s : State) (t : TileId) (f : Firing) (i : Instr), OfTile t i ∧ (s.blade.tile ↑t).firing = some f ∧ f.stall =
    none ∧ s.blade.stopped = false ∧ s.blade.trailFull = false ∧ 4096 ≤ f.executed) ∧
    (∃ (s : State) (t : TileId) (f : Firing) (i : Instr), OfTile t i ∧ (s.blade.tile ↑t).firing = some f ∧ f.stall =
    none ∧ s.blade.stopped = false ∧ s.blade.trailFull = false ∧ f.executed < 4096 ∧ s.mem.inSegment f f.pc = false) ∧
    (∃ (s : State) (t : TileId) (f : Firing) (i : Instr), Issues s t f ∧ OfTile t i ∧ (s.blade.tile ↑t).firing = some
    f ∧ f.stall = none ∧ s.blade.stopped = false ∧ s.blade.trailFull = false ∧ (fetchedBlade s t f).trailFull = false
    ∧ (s.blade.fetch s.mem t f).1 = none) :=
  ⟨⟨runs k2_3, t0, k2_3, (1 : RegNo), (1 : RegNo), (1 : RegNo), (1 : RegNo), issue_with (by decide +kernel)⟩,
    ⟨runs k2_3, t0, k2_3, (1 : RegNo), (2 : RegNo), (1 : RegNo), (1 : RegNo), issue_with (by decide +kernel)⟩,
    ⟨runs k2_3, t0, k2_3, (1 : RegNo), (3 : RegNo), (1 : RegNo), (1 : RegNo), issue_with (by decide +kernel)⟩,
    ⟨runs k2_3, t0, k2_3, (1 : RegNo), (4 : RegNo), (1 : RegNo), (1 : RegNo), issue_with (by decide +kernel)⟩,
    ⟨runs k2_3, t0, k2_3, (1 : RegNo), (5 : RegNo), (1 : RegNo), (1 : RegNo), issue_with (by decide +kernel)⟩,
    ⟨runs k2_3, t0, k2_3, (1 : RegNo), (6 : RegNo), (1 : RegNo), (1 : RegNo), issue_with (by decide +kernel)⟩,
    ⟨runs k2, t0, k2, (1 : RegNo), (2 : RegNo), (1 : RegNo), (3 : RegNo), issue_with (by decide +kernel)⟩,
    ⟨runs k0, t0, k0, Instr.add 0 1 1 1 0, ⟨(codeWord (Instr.add 0 1 1 1 0)).getD 0, by decide +kernel⟩,
    by decide +kernel⟩,
    ⟨runs k1, t0, k1, Instr.add 0 1 1 1 0, ⟨(codeWord (Instr.add 0 1 1 1 0)).getD 0, by decide +kernel⟩,
    by decide +kernel⟩,
    ⟨rb, t0, k2, Instr.add 0 1 1 1 0, ⟨by decide +kernel, by decide +kernel, by decide +kernel, by decide +kernel,
    by decide +kernel⟩, ⟨(codeWord (Instr.add 0 1 1 1 0)).getD 0, by decide +kernel⟩, by decide +kernel⟩⟩

theorem witness_TrapEndsFiring :
    (∃ (b : Blade) (f : Firing), (b.ctx f.context.toNat).state = CtxState.live ∧ (b.ctx f.context.toNat).damage = 0) :=
  ⟨live, f0_3, by decide +kernel⟩

end Sys2Proof.Tests
end

