-- ==== Sys2Proof/Tests/Witness2.lean ====
section
/-! SUPPORT. For every statement a concrete state and operands that meet its hypotheses together, clause by clause: part 2. -/

open Sys2Proof Sys2Proof.Machine Sys2Proof.Safety

-- One proof at a time: every proof is an evaluation in the kernel.
set_option Elab.async false

namespace Sys2Proof.Tests

theorem witness_QueueWindow :
    (∃ (s : State) (who : Requester) (q : QueueId) (i : ℕ) (pad : BitVec 2), PoolUnharmed s.blade ∧ OpenWithRoom
    s.blade (Producer.requester who) (BitVec.toNat q) i ∧ s.blade.openPacket (Producer.requester who) (BitVec.toNat
    q) = some i ∧ (s.blade.packet i).queue = q ∧ (s.blade.packet i).bad = false ∧ (s.blade.packet i).descBad = false
    ∧ pad.toNat ≤ 4 * (s.blade.packet i).words.length ∧ s.blade.struck (fnQueue (BitVec.toNat q)) = false ∧
    s.blade.cursor who (BitVec.toNat q) = none ∧ s.blade.oldestVisible (BitVec.toNat q) = none) ∧
    (∃ (s : State) (who : Requester) (q : QueueId), PoolUnharmed s.blade ∧ (s.blade.struck (fnQueue (BitVec.toNat q))
    = true ∨ s.blade.openPacket (Producer.requester who) (BitVec.toNat q) = none ∧ s.blade.openCount
    (Producer.requester who) < 8 ∧ s.blade.takeCell (BitVec.toNat q) = none) ∧ (s.blade.queue (BitVec.toNat
    q)).stallFrames ≠ 0 ∧ who = Requester.command ∧ 8256 ≤ BitVec.toNat q ∧ BitVec.toNat q < 8288 ∧ s.blade.struck
    (fnQueue (BitVec.toNat q)) = true) ∧
    (∃ (s : State) (who : Requester) (q : QueueId) (c : Cursor) (x : QWord), s.blade.struck (fnQueue (BitVec.toNat
    q)) = false ∧ s.blade.cursor who (BitVec.toNat q) = some c ∧ (s.blade.packet c.packet).descBad = false ∧
    (s.blade.packet c.packet).linkBad = none ∧ c.position < 15 * ((s.blade.packet c.packet).cells.length + 1) ∧ 4 *
    c.position < (s.blade.packet c.packet).length ∧ (s.blade.packet c.packet).words[c.position]? = some x ∧ x.bad =
    false ∧ isTileRequester who = false) ∧
    (∃ (s : State) (who : Requester) (q : QueueId) (i : ℕ) (x : QWord), s.blade.struck (fnQueue (BitVec.toNat q)) =
    false ∧ s.blade.cursor who (BitVec.toNat q) = none ∧ (s.blade.packet i).descBad = false ∧ s.blade.oldestVisible
    (BitVec.toNat q) = some i ∧ (who = Requester.command → ((s.blade.packet i).reached.any fun x => x.bad) = false) ∧
    (s.blade.queue (BitVec.toNat q)).order = [i] ∧ (s.blade.packet i).state = PacketState.visible ∧ (s.blade.packet
    i).cells.head? = some ((s.blade.packet i).cells.headD 0) ∧ (s.blade.packet i).cells.headD 0 < 2 ^ 16) ∧
    (∃ (s : State) (who : Requester) (q : QueueId) (c : Cursor), s.blade.struck (fnQueue (BitVec.toNat q)) = false ∧
    s.blade.cursor who (BitVec.toNat q) = some c ∧ (s.blade.packet c.packet).descBad = false ∧ (s.blade.packet
    c.packet).linkBad = none ∧ c.position < 15 * ((s.blade.packet c.packet).cells.length + 1) ∧ (s.blade.packet
    c.packet).length ≤ 4 * c.position ∧ isTileRequester who = true) ∧
    (∃ (s : State) (who : Requester) (q : QueueId) (t : TileId) (f : Firing), PoolUnharmed s.blade ∧ (s.blade.struck
    (fnQueue (BitVec.toNat q)) = true ∨ s.blade.openPacket (Producer.requester who) (BitVec.toNat q) = none ∧
    s.blade.openCount (Producer.requester who) < 8 ∧ s.blade.takeCell (BitVec.toNat q) = none) ∧ who = Requester.tile
    t ∧ (s.blade.tile ↑t).firing = some f ∧ f.stall = none ∧ (s.blade.queue (BitVec.toNat q)).stallFrames = 0 ∧
    s.blade.trailFull = false) ∧
    (∃ (s : State) (who : Requester) (q : QueueId) (i : ℕ), PoolUnharmed s.blade ∧ s.blade.openPacket
    (Producer.requester who) (BitVec.toNat q) = some i ∧ (s.blade.packet i).queue = q ∧ (s.blade.packet i).bad =
    true) ∧
    (∃ (s : State) (who : Requester) (q : QueueId) (n : ℕ) (b₁ : Blade), PoolUnharmed s.blade ∧ s.blade.struck
    (fnQueue (BitVec.toNat q)) = false ∧ s.blade.openPacket (Producer.requester who) (BitVec.toNat q) = none ∧
    s.blade.openCount (Producer.requester who) < 8 ∧ s.blade.takeCell (BitVec.toNat q) = some (n, b₁)) :=
  ⟨⟨blank (withPkt 8193 (pkt 8193 .opened w0) []), w0, (8193 : QueueId), (0 : Nat), (0 : BitVec 2),
   by unfold PoolUnharmed; decide +kernel, ⟨by decide +kernel, by decide +kernel, by decide +kernel,
   by decide +kernel, by decide +kernel, by decide +kernel⟩, by decide +kernel⟩,
    ⟨blank (act.setStruck (fnQueue 8287) true), rc_2, (8287 : QueueId), by unfold PoolUnharmed; decide +kernel,
    by decide +kernel⟩,
    ⟨blank (withCur (withPkt 8193 (pkt 8193 .reading w1) [0]) (cur w0 8193 0)), w0, (8193 : QueueId), cur w0 8193 0,
    word 7, by decide +kernel⟩,
    ⟨blank (withPkt 8193 (pkt 8193 .visible w1) [0]), w0, (8193 : QueueId), (0 : Nat), word 7, by decide +kernel⟩,
    ⟨blank (withCur (withPkt 8193 (pkt 8193 .reading w1) [0]) (cur w1 8193 2)), w1, (8193 : QueueId), cur w1 8193 2,
    by decide +kernel⟩,
    ⟨blank (onTile (qq0.setQueue 8193 { queueInit 8193 with stallFrames := 0 }) f0_4), rt, Q_2, t0, f0_4,
    by unfold PoolUnharmed; decide +kernel, by decide +kernel⟩,
    ⟨blank (withPkt 8193 { pkt 8193 .opened w0 with bad := true, cells := [], words := [] } []), w0, (8193 :
    QueueId), (0 : Nat), by unfold PoolUnharmed; decide +kernel, by decide +kernel⟩,
    ⟨blank bq, w1, (8193 : QueueId), (0 : Nat), ({ bq with pool.free := .full 1 65535 } : Blade),
    by unfold PoolUnharmed; decide +kernel, by decide +kernel⟩⟩

theorem witness_NextAddressResults :
    (∃ (s : State) (c : ClusterId) (h : HalyardId), HalyardRuns s c h ∧ (s.blade.halyard (laneNo c h)).stack.length <
    4 ∧ (s.blade.halyard (laneNo c h)).stack = []) ∧
    (∃ (s : State) (c : ClusterId) (h : HalyardId) (r : BitVec 12) (rest : List (BitVec 12)), HalyardRuns s c h ∧
    (s.blade.halyard (laneNo c h)).stack = r :: rest ∧ 4 ≤ (s.blade.halyard (laneNo c h)).stack.length) :=
  ⟨⟨blank (hoisted y0), c0, h0_2, ⟨by decide +kernel, by decide +kernel, by decide +kernel, by decide +kernel,
   by decide +kernel⟩, by decide +kernel⟩,
    ⟨blank (hoisted { y0 with stack := [1,2,3,4] }), c0, h0_2, (1 : BitVec 12), ([2,3,4] : List (BitVec 12)),
    ⟨by decide +kernel, by decide +kernel, by decide +kernel, by decide +kernel, by decide +kernel⟩,
    by decide +kernel⟩⟩

theorem witness_HalyardWords :
    (∃ (s : State) (c : ClusterId) (h : HalyardId), HalyardRuns s c h ∧ (s.blade.struck (fnCluster ↑c) = true ∨
    (s.blade.halyard (laneNo c h)).yielded = false ∨ s.blade.events (laneNo c h) &&& (s.blade.halyard (laneNo c
    h)).waitMask = 0) ∧ (s.blade.halyard (laneNo c h)).timer ≠ 1 ∧ mget WordMark.sound (2 * (s.blade.halyard (laneNo
    c h)).pc.toNat) (s.blade.cluster ↑c).damage = WordMark.sound ∧ mget WordMark.sound (2 * (s.blade.halyard (laneNo
    c h)).pc.toNat + 1) (s.blade.cluster ↑c).damage = WordMark.sound ∧ (uopOf (mget 0 (s.blade.halyard (laneNo c
    h)).pc.toNat (s.blade.cluster ↑c).store)).valid (s.blade.halyard (laneNo c h)).pc.toNat = true ∧ (uopOf (mget 0
    (s.blade.halyard (laneNo c h)).pc.toNat (s.blade.cluster ↑c).store)).nac = 0 ∧ (uopOf (mget 0 (s.blade.halyard
    (laneNo c h)).pc.toNat (s.blade.cluster ↑c).store)).io = 0 ∧ (uopOf (mget 0 (s.blade.halyard (laneNo c
    h)).pc.toNat (s.blade.cluster ↑c).store)).bsrc ≤ 1) ∧
    (∃ (s : State) (c : ClusterId) (h : HalyardId), s.blade.struck (fnCluster ↑c) = false ∧ (s.blade.halyard (laneNo
    c h)).yielded = true ∧ s.blade.events (laneNo c h) &&& (s.blade.halyard (laneNo c h)).waitMask ≠ 0 ∧
    (s.blade.halyard (laneNo c h)).timer = 1) :=
  ⟨⟨blank (hoisted y0 (kk (enc 2 1 0 2 3 1 1 0))), c0, h0_2, ⟨by decide +kernel, by decide +kernel,
   by decide +kernel, by decide +kernel, by decide +kernel⟩, by decide +kernel⟩,
    ⟨blank (hoisted y1), c0, h0_2, by decide +kernel⟩⟩

theorem witness_PennantOperations :
    (∃ (s : State) (c : ClusterId) (h : HalyardId) (r : RxPennant) (v : Byte) (rest : List Byte) (t : TxPennant),
    HalyardRuns s c h ∧ (s.blade.halyard (laneNo c h)).rxOpen = some r ∧ List.drop (s.blade.halyard (laneNo c
    h)).rxPosition r.payload = v :: rest ∧ 4 ≤ (List.drop (s.blade.halyard (laneNo c h)).rxPosition r.payload).length
    ∧ (s.blade.halyard (laneNo c h)).txOpen = some t ∧ t.payload.length + 1 ≤ 1024 ∧ t.payload.length + 4 ≤ 1024) ∧
    (∃ (s : State) (c : ClusterId) (h : HalyardId) (r : RxPennant) (t : TxPennant), HalyardRuns s c h ∧
    (s.blade.halyard (laneNo c h)).rxOpen = none ∧ ((List.find? (fun x => x.urgent) (s.blade.port (laneNo c
    h)).rx).or (List.find? (fun x => !x.urgent) (s.blade.port (laneNo c h)).rx) = some r) ∧ r.lost = false ∧ r.weak =
    0 ∧ (s.blade.halyard (laneNo c h)).txOpen = some t ∧ (s.blade.halyard (laneNo c h)).outTaint = false ∧ t.mgmt =
    decide (t.endpoint = 0) ∧ s.blade.struck (fnPort (laneNo c h)) = false ∧ blocksOf t.payload ≤ (s.blade.port
    (laneNo c h)).freeCredit t.endpoint.toNat ∧ (s.blade.port (laneNo c h)).txBytes + t.payload.length ≤ 4096 ∧
    s.blade.armed (srcPktCorr (laneNo c h)) 1 = false ∧ s.blade.armed (srcPktUncorr (laneNo c h)) 1 = false) ∧
    (∃ (s : State) (c : ClusterId) (h : HalyardId) (r : RxPennant), HalyardRuns s c h ∧ (s.blade.halyard (laneNo c
    h)).rxOpen = some r ∧ List.drop (s.blade.halyard (laneNo c h)).rxPosition r.payload = []) ∧
    (∃ (s : State) (c : ClusterId) (h : HalyardId), HalyardRuns s c h ∧ (s.blade.halyard (laneNo c h)).txOpen = none) :=
  ⟨⟨withPort { y0 with rxOpen := some (rp true), txOpen := some tp } p0, c0, h0_2, rp true, byte 1, [2,3,4,5].map
   byte, tp, ⟨by decide +kernel, by decide +kernel, by decide +kernel, by decide +kernel, by decide +kernel⟩,
   by decide +kernel⟩,
    ⟨blank ((hoisted { y0 with txOpen := some tp }).setPort 0
    { p0 with down := [(3, { limit := 1, consumed := 0, acked := 0 })] } |>.setStruck (fnPort 0) false), c0, h0_2, rp
    true, tp, ⟨by decide +kernel, by decide +kernel, by decide +kernel, by decide +kernel, by decide +kernel⟩,
    by decide +kernel⟩,
    ⟨withPort { y0 with rxOpen := some (rp true), rxPosition := 5, txOpen := some tp } p0, c0, h0_2, rp true,
    ⟨by decide +kernel, by decide +kernel, by decide +kernel, by decide +kernel, by decide +kernel⟩,
    by decide +kernel⟩,
    ⟨withPort y0 p0, c0, h0_2, ⟨by decide +kernel, by decide +kernel, by decide +kernel, by decide +kernel,
    by decide +kernel⟩, by decide +kernel⟩⟩

theorem witness_HalyardQueueOperations :
    (∃ (s : State) (c : ClusterId) (h : HalyardId) (e : BitVec 5) (i : ℕ), HalyardRuns s c h ∧ PoolUnharmed s.blade ∧
    OpenWithRoom s.blade (Producer.requester (Requester.halyard c h)) (32 * laneNo c h + e.toNat) i ∧
    s.blade.openPacket (Producer.requester (Requester.halyard c h)) (32 * laneNo c h + e.toNat) = some i ∧
    BitVec.toNat (s.blade.packet i).queue = 32 * laneNo c h + e.toNat ∧ (s.blade.packet i).bad = false ∧
    (s.blade.packet i).descBad = false ∧ (s.blade.halyard (laneNo c h)).inTaint = false ∧ ((s.blade.queue (32 *
    laneNo c h + e.toNat)).notice = 1 → s.blade.lanePending (laneNo c h) < 32) ∧ (s.blade.queue (32 * laneNo c h +
    e.toNat)).tickRelease = false ∧ s.blade.struck (fnQueue (4096 + 32 * laneNo c h + e.toNat)) = false ∧
    s.blade.cursor (Requester.halyard c h) (4096 + 32 * laneNo c h + e.toNat) = none) ∧
    (∃ (s : State) (c : ClusterId) (h : HalyardId) (e : BitVec 5) (k : Cursor) (x : QWord), HalyardRuns s c h ∧
    PoolUnharmed s.blade ∧ s.blade.struck (fnQueue (4096 + 32 * laneNo c h + e.toNat)) = false ∧ s.blade.cursor
    (Requester.halyard c h) (4096 + 32 * laneNo c h + e.toNat) = some k ∧ (s.blade.packet k.packet).descBad = false ∧
    (s.blade.packet k.packet).linkBad = none ∧ k.position < 15 * ((s.blade.packet k.packet).cells.length + 1) ∧ 4 *
    k.position < (s.blade.packet k.packet).length ∧ (s.blade.packet k.packet).words[k.position]? = some x ∧ x.bad =
    false ∧ ((s.blade.packet k.packet).descBad = false ∨ (s.blade.packet k.packet).state = PacketState.reading)) ∧
    (∃ (s : State) (c : ClusterId) (h : HalyardId) (e : BitVec 5) (i : ℕ), HalyardRuns s c h ∧ PoolUnharmed s.blade ∧
    s.blade.struck (fnQueue (4096 + 32 * laneNo c h + e.toNat)) = false ∧ s.blade.cursor (Requester.halyard c h)
    (4096 + 32 * laneNo c h + e.toNat) = none ∧ s.blade.oldestVisible (4096 + 32 * laneNo c h + e.toNat) = some i ∧
    (s.blade.packet i).descBad = false) ∧
    (∃ (s : State) (c : ClusterId) (h : HalyardId) (e : BitVec 5) (i : ℕ), HalyardRuns s c h ∧ PoolUnharmed s.blade ∧
    s.blade.openPacket (Producer.requester (Requester.halyard c h)) (32 * laneNo c h + e.toNat) = some i ∧
    BitVec.toNat (s.blade.packet i).queue = 32 * laneNo c h + e.toNat ∧ (s.blade.halyard (laneNo c h)).inTaint =
    true) :=
  ⟨⟨add (withPkt 3 (pkt 3 .opened who) []) y0_2, c0, h0_2, (3 : BitVec 5), (0 : Nat), ⟨by decide +kernel,
   by decide +kernel, by decide +kernel, by decide +kernel, by decide +kernel⟩,
   by unfold PoolUnharmed; decide +kernel, ⟨by decide +kernel, by decide +kernel, by decide +kernel,
   by decide +kernel, by decide +kernel, by decide +kernel⟩, by decide +kernel⟩,
    ⟨add (withCur (withPkt 4099 (pkt 4099 .reading .command) [0]) (cur who 4099 1)) y0_2, c0, h0_2, (3 : BitVec 5),
    cur who 4099 1, word 9, ⟨by decide +kernel, by decide +kernel, by decide +kernel, by decide +kernel,
    by decide +kernel⟩, by unfold PoolUnharmed; decide +kernel, by decide +kernel⟩,
    ⟨add (withPkt 4099 (pkt 4099 .visible .command) [0]) y0_2, c0, h0_2, (3 : BitVec 5), (0 : Nat),
    ⟨by decide +kernel, by decide +kernel, by decide +kernel, by decide +kernel, by decide +kernel⟩,
    by unfold PoolUnharmed; decide +kernel, by decide +kernel⟩,
    ⟨add (withPkt 3 (pkt 3 .opened who) []) { y0_2 with inTaint := true }, c0, h0_2, (3 : BitVec 5), (0 : Nat),
    ⟨by decide +kernel, by decide +kernel, by decide +kernel, by decide +kernel, by decide +kernel⟩,
    by unfold PoolUnharmed; decide +kernel, by decide +kernel⟩⟩

theorem witness_HalyardStateOperations :
    (∃ (s : State) (c : ClusterId) (h : HalyardId) (reg : BitVec 4) (src : BitVec 4), HalyardRuns s c h ∧
    s.blade.offline (BitVec.toNat ((s.blade.halyard (laneNo c h)).ureg reg.toNat) / 4 % 2 ^ 22 * 4) = false ∧
    s.blade.offline (BitVec.toNat ((s.blade.halyard (laneNo c h)).ureg reg.toNat) / 4 % 2 ^ 22 * 4 / 8 * 8) = false ∧
    s.mem.mark (wordPlace s.blade (BitVec.toNat ((s.blade.halyard (laneNo c h)).ureg reg.toNat) / 4 % 2 ^ 22 * 4)) =
    WordMark.sound ∧ s.blade.flag (rATOM + 256 + 4 * (BitVec.toNat ((s.blade.halyard (laneNo c h)).ureg reg.toNat) %
    1024 / 32)) 1 = true ∧ ((s.blade.sem (BitVec.toNat ((s.blade.halyard (laneNo c h)).ureg reg.toNat) % 1024)).held
    = false ∨ ((s.blade.sem (BitVec.toNat ((s.blade.halyard (laneNo c h)).ureg reg.toNat) % 1024)).held && decide
    ((s.blade.sem (BitVec.toNat ((s.blade.halyard (laneNo c h)).ureg reg.toNat) % 1024)).cls = 1) && decide
    ((s.blade.sem (BitVec.toNat ((s.blade.halyard (laneNo c h)).ureg reg.toNat) % 1024)).unit.toNat = ↑c) && decide
    ((s.blade.sem (BitVec.toNat ((s.blade.halyard (laneNo c h)).ureg reg.toNat) % 1024)).context.toNat = ↑h)) = true)
    ∧ ((s.blade.sem (BitVec.toNat ((s.blade.halyard (laneNo c h)).ureg reg.toNat) % 1024)).held && decide
    ((s.blade.sem (BitVec.toNat ((s.blade.halyard (laneNo c h)).ureg reg.toNat) % 1024)).cls = 1) && decide
    ((s.blade.sem (BitVec.toNat ((s.blade.halyard (laneNo c h)).ureg reg.toNat) % 1024)).unit.toNat = ↑c) && decide
    ((s.blade.sem (BitVec.toNat ((s.blade.halyard (laneNo c h)).ureg reg.toNat) % 1024)).context.toNat = ↑h)) = true
    ∧ BitVec.toNat ((s.blade.halyard (laneNo c h)).ureg src.toNat) % 2 ^ 16 = (s.blade.sem (BitVec.toNat
    ((s.blade.halyard (laneNo c h)).ureg reg.toNat) % 1024)).generation.toNat) ∧
    (∃ (s : State) (c : ClusterId) (h : HalyardId) (reg : BitVec 4), HalyardRuns s c h ∧ s.blade.flag (rATOM + 256 +
    4 * (BitVec.toNat ((s.blade.halyard (laneNo c h)).ureg reg.toNat) % 1024 / 32)) 1 = true ∧ (s.blade.sem
    (BitVec.toNat ((s.blade.halyard (laneNo c h)).ureg reg.toNat) % 1024)).held = true ∧ ((s.blade.sem (BitVec.toNat
    ((s.blade.halyard (laneNo c h)).ureg reg.toNat) % 1024)).held && decide ((s.blade.sem (BitVec.toNat
    ((s.blade.halyard (laneNo c h)).ureg reg.toNat) % 1024)).cls = 1) && decide ((s.blade.sem (BitVec.toNat
    ((s.blade.halyard (laneNo c h)).ureg reg.toNat) % 1024)).unit.toNat = ↑c) && decide ((s.blade.sem (BitVec.toNat
    ((s.blade.halyard (laneNo c h)).ureg reg.toNat) % 1024)).context.toNat = ↑h)) = false) ∧
    (∃ (s : State) (c : ClusterId) (h : HalyardId) (reg : BitVec 4) (k : ℕ), HalyardRuns s c h ∧ k < 8 ∧ BitVec.toNat
    ((s.blade.halyard (laneNo c h)).ureg reg.toNat) / 4 % 2 ^ 22 * 4 = 327712 + 4 * k) :=
  ⟨⟨add (sm_2 true true) y0_2, c0, h0_2, (1 : BitVec 4), (4 : BitVec 4), ⟨by decide +kernel, by decide +kernel,
   by decide +kernel, by decide +kernel, by decide +kernel⟩, by decide +kernel⟩,
    ⟨add (sm_2 true false) y0_2, c0, h0_2, (1 : BitVec 4), ⟨by decide +kernel, by decide +kernel, by decide +kernel,
    by decide +kernel, by decide +kernel⟩, by decide +kernel⟩,
    ⟨add R0 y0_2, c0, h0_2, (3 : BitVec 4), (0 : Nat), ⟨by decide +kernel, by decide +kernel, by decide +kernel,
    by decide +kernel, by decide +kernel⟩, by decide +kernel⟩⟩

end Sys2Proof.Tests
end

