-- ==== Sys2Proof/Tests/Witness3.lean ====
section
/-! SUPPORT. For every statement a concrete state and operands that meet its hypotheses together, clause by clause: part 3. -/

open Sys2Proof Sys2Proof.Machine Sys2Proof.Safety

-- One proof at a time: every proof is an evaluation in the kernel.
set_option Elab.async false

namespace Sys2Proof.Tests

theorem witness_FetchFrame :
    (∃ (s : State) (t : TileId) (f : Firing), ((mget [] (f.pc / 64 % 64) (s.blade.tile ↑t).icache).contains (f.pc /
    4096 % 65536 + if f.slotB = true then 65536 else 0) = true) ∧ ((f.pc / 64 + if f.slotB = true then 2 ^ 22 else 0,
    f.pc / 4 % 16) ∉ (s.blade.tile ↑t).icacheBad)) :=
  ⟨blank (onTile act f0_5 |>.modTile 0 fun x => { x with icache := [(0, [0])] }), t0, f0_5, by decide +kernel⟩

theorem witness_ActionRegisters :
    (∃ (s : State) (who : Port) (v : BitVec 32) (p : Port), p ≠ who ∧ v ≠ 24081 ∧ ((List.filter (fun x => decide
    (x.port = who)) s.blade.csr.posted).length < 8) ∧ ((decide (4 ≤ v.toNat % 64) && s.blade.bankOffline (v.toNat %
    64) && s.blade.bank.march.isNone) = false ∨ decide (v.toNat / 128 % 4 ≠ 3) = false) ∧ s.blade.bank.march = none ∧
    decide (v.toNat / 128 % 4 ≠ 3) = true ∧ s.blade.isArmed who = false) ∧
    (∃ (s : State) (v : BitVec 32), (decide (4 ≤ v.toNat % 64) && s.blade.bankOffline (v.toNat % 64) &&
    s.blade.bank.march.isNone) = true ∧ decide (v.toNat / 128 % 4 ≠ 3) = true) ∧
    (∃ (s : State) (who : Port) (d : Fin 33) (e : ℕ), s.blade.isArmed who = true ∧ s.blade.flag (33566976 + 4 * ↑d) 0
    = false ∧ e ≠ ↑d) ∧
    (∃ (s : State) (who : Port) (d : Fin 33), s.blade.isArmed who = true ∧ s.blade.flag (33566976 + 4 * ↑d) 0 = true
    ∧ s.blade.hw.domainsOn.getLsbD ↑d = true ∧ s.blade.domainPermitted ↑d = false) ∧
    (∃ (s : State) (v : BitVec 32), (s.blade.bank.march ≠ none ∨ decide (v.toNat / 128 % 4 ≠ 3) = false)) ∧
    (∃ (s : State) (who : Port) (d : Fin 33) (e : ℕ), s.blade.isArmed who = true ∧ s.blade.flag (33566976 + 4 * ↑d) 0
    = true ∧ s.blade.hw.domainsOn.getLsbD ↑d = true ∧ s.blade.domainPermitted ↑d = true ∧ e ≠ ↑d) :=
  ⟨⟨blank (act.arm p2), p1, (0x5E10 : BitVec 32), p2, by decide +kernel⟩,
    ⟨blank (R0.setStruck 0x204 true), (4 : BitVec 32), by decide +kernel⟩,
    ⟨blank ((act.arm who_2).setReg 0x02003104 0), who_2, (1 : Fin 33), (2 : Nat), by decide +kernel⟩,
    ⟨armed (src 65 true false (src 66 true true R0)), who_2, (32 : Fin 33), by decide +kernel⟩,
    ⟨armed { R0.setStruck 0x204 true with bank.march := some mr }, (4 : BitVec 32), by decide +kernel⟩,
    ⟨armed (on (R0.setStruck 1 true) 1), who_2, (1 : Fin 33), (3 : Nat), by decide +kernel⟩⟩

theorem witness_RegisterReadResults :
    (∃ (s : State) (who : Port) (x : BitVec 32) (n : Fin 1024) (l : LoLatch), inWindow x.toNat = true ∧ (fun b k =>
    List.find? (fun l => decide (l.port = who) && decide (BitVec.toNat l.address = k)) b.csr.latches) s.blade x.toNat
    = none ∧ loOffset x.toNat = true ∧ s.blade.freeField x.toNat = none ∧ s.blade.freeField (x.toNat + 4) = none ∧
    (fun b k => List.find? (fun l => decide (l.port = who) && decide (BitVec.toNat l.address = k)) b.csr.latches)
    s.blade (34279424 + 4 * ↑n) = none ∧ (fun b k => List.find? (fun l => decide (l.port = who) && decide
    (BitVec.toNat l.address = k)) b.csr.latches) s.blade 34472004 = none ∧ s.blade.reg 34472004 = 0 ∧
    s.blade.pair.partnerPresent = false ∧ s.blade.pair.lock = false) ∧
    (∃ (s : State) (who : Port) (l : LoLatch), (fun b k => List.find? (fun l => decide (l.port = who) && decide
    (BitVec.toNat l.address = k)) b.csr.latches) s.blade 34472004 = none ∧ s.blade.reg 34472004 = 0 ∧
    s.blade.pair.partnerPresent = true ∧ s.blade.linkSound = true) ∧
    (∃ (s : State) (who : Port) (x : BitVec 32) (l : LoLatch) (k : ℕ), inWindow x.toNat = true ∧ (fun b k =>
    List.find? (fun l => decide (l.port = who) && decide (BitVec.toNat l.address = k)) b.csr.latches) s.blade x.toNat
    = some l) :=
  ⟨⟨blank R0, who_2, (0x020B0000 : BitVec 32), n5, lat, by decide +kernel⟩,
    ⟨blank { R0 with pair.partnerPresent := true, pair.lock := true }, Port.command,
    ({ port := .command, address := 0, value := 0 } : LoLatch), by decide +kernel⟩,
    ⟨blank { R0 with csr.latches := [lat] }, who_2, (0x02000010 : BitVec 32), lat, (0x02000010 : Nat),
    by decide +kernel⟩⟩

theorem witness_RegisterWrites :
    (∃ (s : State) (who : Port) (x : BitVec 32) (v : BitVec 32) (k : ℕ) (a : ℕ) (p : PostedWrite) (l : LaneId), k < 8
    ∧ s.blade.isArmed who = false ∧ v ≠ s.blade.reg 33570816 ∧ a ≠ 34471968 ∧ s.blade.struck 832 = true ∧ inWindow
    x.toNat = false ∧ (List.find? (fun x => decide (x.port = who)) s.blade.csr.posted = some p) ∧ BitVec.toNat
    p.address = rPORT ↑l ∧ s.blade.hw.cards.getLsbD (↑l / 16) = false) ∧
    (∃ (s : State) (who : Port) (x : BitVec 32), s.blade.isArmed who = true ∧ (List.find? (fun x => decide (x.port =
    who)) s.blade.csr.posted = none)) ∧
    (∃ (s : State) (v : BitVec 32), s.blade.struck 832 = false ∧ (s.blade.stagedOr 34471936 (s.blade.reg 34471936)
    ^^^ v) &&& 4294967041 ≠ 0) ∧
    (∃ (s : State) (who : Port) (p : PostedWrite) (l : LaneId), (List.find? (fun x => decide (x.port = who))
    s.blade.csr.posted = some p) ∧ BitVec.toNat p.address = rPORT ↑l ∧ s.blade.hw.cards.getLsbD (↑l / 16) = true) ∧
    (∃ (s : State) (who : Port) (p : PostedWrite) (l : LaneId), (List.find? (fun x => decide (x.port = who))
    s.blade.csr.posted = some p) ∧ BitVec.toNat p.address = rPORT ↑l + 24 ∧ s.blade.hw.cards.getLsbD (↑l / 16) =
    true) :=
  ⟨⟨blank (posted 0x02218400 0), who_2, (0x02000001 : BitVec 32), (0x21 : BitVec 32), (7 : Nat), (7 : Nat), pw
   0x02218400, l0, by decide +kernel⟩,
    ⟨armed R0, who_2, (0x04000000 : BitVec 32), by decide +kernel⟩,
    ⟨blank (R0.setStruck 0x340 false), (0x21 : BitVec 32), by decide +kernel⟩,
    ⟨blank (posted 0x02218400 0xFF), who_2, pw 0x02218400, l0, by decide +kernel⟩,
    ⟨blank (posted 0x02218418 0xFF), who_2, pw 0x02218418, l0, by decide +kernel⟩⟩

theorem witness_CommandChecks :
    (∃ (s : State) (r : Request) (b : Blade) (d : ReplyTo), (s.blade.accept r).1 = true ∧ opcodes.contains
    (BitVec.toNat r.opcode) = false ∧ (s.blade.arrives r).1 = true ∧ (s.blade.arrives r).2.transportOn r.transport =
    true ∧ (r.transport = Transport.usb → r.size ≤ 1440) ∧ r.magic = 1296256080 ∧ r.version = 1 ∧ r.flags.getLsbD 0 =
    false ∧ r.flags.toNat < 32 ∧ (fun n => BitVec.toNat r.length % 4 = 0 ∧ BitVec.toNat r.length ≤ 1408 ∧ r.size = 16
    + BitVec.toNat r.length + n ∧ r.params.length = BitVec.toNat r.length ∧ r.tag.length = n) 0 ∧ r.flags.getLsbD 1 =
    false ∧ s.blade.provisioning = true ∧ r.transport = Transport.usb ∧ d.flags.getLsbD 1 = false ∧ d.transport =
    Transport.usb ∧ b.flt.fenced = false) ∧
    (∃ (s : State) (r : Request) (u : ℕ), uplinkOf r.transport = some u ∧ s.blade.flt.fenced = false ∧
    (s.blade.uplinkOn u && s.blade.tagFits u r.vlan && !r.fragment) = false) ∧
    (∃ (s : State) (r : Request) (u : ℕ), uplinkOf r.transport = some u ∧ s.blade.flt.fenced = false ∧
    (s.blade.uplinkOn u && s.blade.tagFits u r.vlan && !r.fragment) = true ∧ ((s.blade.count64 (rUPLINK u + 96)).owns
    u r.dest = false ∨ r.destPort ≠ BitVec.setWidth 16 ((s.blade.count64 (rUPLINK u + 96)).reg 33570816))) ∧
    (∃ (s : State) (r : Request), r.transport = Transport.usb ∧ (s.blade.eng.usbDiscarding = true ∨
    s.blade.muxSelects 10 = false)) ∧
    (∃ (s : State) (r : Request), (s.blade.accept r).1 = true ∧ (s.blade.accept r).2.active = false ∧ r.opcode = 48) ∧
    (∃ (s : State) (r : Request), Admitted s 5 false r ∧ Armed s r ∧ ¬HasRoom s 5 r ∧ r.length = 36) ∧
    (∃ (s : State) (r : Request), r.transport = Transport.usb ∧ (s.blade.arrives r).1 = true ∧ r.size < 16) ∧
    (∃ (s : State), s.blade.flt.fenced = true) ∧
    (∃ (s : State) (r : Request) (i : ℕ), (s.blade.arrives r).1 = true ∧ (s.blade.arrives r).2.transportOn
    r.transport = true ∧ (r.transport = Transport.usb → r.size ≤ 1440) ∧ r.magic = 1296256080 ∧ r.version = 1 ∧
    r.flags.getLsbD 0 = false ∧ r.flags.toNat < 32 ∧ (fun n => BitVec.toNat r.length % 4 = 0 ∧ BitVec.toNat r.length
    ≤ 1408 ∧ r.size = 16 + BitVec.toNat r.length + n ∧ r.params.length = BitVec.toNat r.length ∧ r.tag.length = n) 16
    ∧ r.flags.getLsbD 1 = true ∧ s.blade.provisioning = false ∧ (s.blade.key (r.flags.toNat / 4 % 4)).present = true
    ∧ r.tag = authTag (s.blade.key (r.flags.toNat / 4 % 4)).key (rqBody r) ∧ BitVec.toNat (s.blade.key (r.flags.toNat
    / 4 % 4)).last < BitVec.toNat r.sequence ∧ i ≠ r.flags.toNat / 4 % 4) ∧
    (∃ (s : State) (r : Request), (s.blade.arrives r).1 = true ∧ (s.blade.arrives r).2.transportOn r.transport = true
    ∧ (r.transport = Transport.usb → r.size ≤ 1440) ∧ r.magic = 1296256080 ∧ r.version = 1 ∧ r.flags.getLsbD 0 =
    false ∧ r.flags.toNat < 32 ∧ (fun n => BitVec.toNat r.length % 4 = 0 ∧ BitVec.toNat r.length ≤ 1408 ∧ r.size = 16
    + BitVec.toNat r.length + n ∧ r.params.length = BitVec.toNat r.length ∧ r.tag.length = n) 16 ∧ r.flags.getLsbD 1
    = true ∧ s.blade.provisioning = false ∧ (s.blade.key (r.flags.toNat / 4 % 4)).present = true ∧ r.tag = authTag
    (s.blade.key (r.flags.toNat / 4 % 4)).key (rqBody r) ∧ r.sequence = (s.blade.key (r.flags.toNat / 4 % 4)).last ∧
    (s.blade.key (r.flags.toNat / 4 % 4)).request = rqBytes r ∧ (s.blade.key (r.flags.toNat / 4 % 4)).reply = []) ∧
    (∃ (s : State) (r : Request), (s.blade.arrives r).1 = true ∧ (s.blade.arrives r).2.transportOn r.transport = true
    ∧ (r.transport = Transport.usb → r.size ≤ 1440) ∧ r.magic = 1296256080 ∧ r.version = 1 ∧ r.flags.getLsbD 0 =
    false ∧ r.flags.toNat < 32 ∧ (fun n => BitVec.toNat r.length % 4 = 0 ∧ BitVec.toNat r.length ≤ 1408 ∧ r.size = 16
    + BitVec.toNat r.length + n ∧ r.params.length = BitVec.toNat r.length ∧ r.tag.length = n) 16 ∧ r.flags.getLsbD 1
    = true ∧ s.blade.provisioning = false ∧ (s.blade.key (r.flags.toNat / 4 % 4)).present = true ∧ r.tag = authTag
    (s.blade.key (r.flags.toNat / 4 % 4)).key (rqBody r) ∧ BitVec.toNat r.sequence ≤ BitVec.toNat (s.blade.key
    (r.flags.toNat / 4 % 4)).last ∧ ((s.blade.key (r.flags.toNat / 4 % 4)).last ≠ r.sequence ∨ (s.blade.key
    (r.flags.toNat / 4 % 4)).request ≠ rqBytes r) ∧ ((s.blade.arrives r).2.count 33570864).requestRuns (rqBytes r) =
    true) ∧
    (∃ (s : State) (r : Request), (s.blade.arrives r).1 = true ∧ (s.blade.arrives r).2.transportOn r.transport = true
    ∧ (r.transport = Transport.usb → r.size ≤ 1440) ∧ r.magic = 1296256080 ∧ r.version = 1 ∧ r.flags.getLsbD 0 =
    false ∧ r.flags.toNat < 32 ∧ (fun n => BitVec.toNat r.length % 4 = 0 ∧ BitVec.toNat r.length ≤ 1408 ∧ r.size = 16
    + BitVec.toNat r.length + n ∧ r.params.length = BitVec.toNat r.length ∧ r.tag.length = n) 16 ∧ r.flags.getLsbD 1
    = true ∧ s.blade.provisioning = false ∧ ((s.blade.key (r.flags.toNat / 4 % 4)).present = false ∨ r.tag ≠ authTag
    (s.blade.key (r.flags.toNat / 4 % 4)).key (rqBody r))) ∧
    (∃ (s : State) (r : Request), (s.blade.arrives r).1 = true ∧ (s.blade.arrives r).2.transportOn r.transport = true
    ∧ (r.transport = Transport.usb → r.size ≤ 1440) ∧ r.magic = 1296256080 ∧ r.version = 1 ∧ r.flags.getLsbD 0 =
    false ∧ r.flags.toNat < 32 ∧ (fun n => BitVec.toNat r.length % 4 = 0 ∧ BitVec.toNat r.length ≤ 1408 ∧ r.size = 16
    + BitVec.toNat r.length + n ∧ r.params.length = BitVec.toNat r.length ∧ r.tag.length = n) 16 ∧ r.flags.getLsbD 1
    = true ∧ s.blade.provisioning = false ∧ (s.blade.key (r.flags.toNat / 4 % 4)).present = true ∧ r.tag = authTag
    (s.blade.key (r.flags.toNat / 4 % 4)).key (rqBody r) ∧ BitVec.toNat r.sequence ≤ BitVec.toNat (s.blade.key
    (r.flags.toNat / 4 % 4)).last ∧ (s.blade.key (r.flags.toNat / 4 % 4)).last = r.sequence ∧ (s.blade.key
    (r.flags.toNat / 4 % 4)).request = rqBytes r ∧ (s.blade.key (r.flags.toNat / 4 % 4)).reply ≠ []) ∧
    (∃ (s : State) (r : Request), (s.blade.arrives r).1 = true ∧ (s.blade.arrives r).2.transportOn r.transport = true
    ∧ (r.transport = Transport.usb → r.size ≤ 1440) ∧ r.magic = 1296256080 ∧ r.version = 1 ∧ r.flags.getLsbD 0 =
    false ∧ r.flags.toNat < 32 ∧ (fun n => BitVec.toNat r.length % 4 = 0 ∧ BitVec.toNat r.length ≤ 1408 ∧ r.size = 16
    + BitVec.toNat r.length + n ∧ r.params.length = BitVec.toNat r.length ∧ r.tag.length = n) 16 ∧ r.flags.getLsbD 1
    = true ∧ s.blade.provisioning = false ∧ (s.blade.key (r.flags.toNat / 4 % 4)).present = true ∧ r.tag = authTag
    (s.blade.key (r.flags.toNat / 4 % 4)).key (rqBody r) ∧ BitVec.toNat r.sequence ≤ BitVec.toNat (s.blade.key
    (r.flags.toNat / 4 % 4)).last ∧ ((s.blade.key (r.flags.toNat / 4 % 4)).last ≠ r.sequence ∨ (s.blade.key
    (r.flags.toNat / 4 % 4)).request ≠ rqBytes r) ∧ ((s.blade.arrives r).2.count 33570864).requestRuns (rqBytes r) =
    false) :=
  ⟨⟨S, rq [], act, rqReplyTo R0 (op 1 (rq [])), by decide +kernel⟩,
    ⟨S, far, (0 : Nat), by decide +kernel⟩,
    ⟨blank up0, { far with fragment := false, destPort := 4818 }, (0 : Nat), by decide +kernel⟩,
    ⟨blank { act with eng.usbDiscarding := true }, rq [], by decide +kernel⟩,
    ⟨blank stb, op 0x30 (rq [0, 0, 0, 0]), by decide +kernel⟩,
    ⟨blank { act with eng.deferred := [d5_2] }, op 5 (rq ([1, 0, 0, 0] ++ List.replicate 32 7) 16),
    ⟨by decide +kernel, by decide +kernel, by decide +kernel⟩, by unfold Armed; decide +kernel,
    by unfold HasRoom; decide +kernel, by decide +kernel⟩,
    ⟨blank act, { rq [] with size := 12 }, by decide +kernel⟩,
    ⟨blank { act with flt.fenced := true }, by decide +kernel⟩,
    ⟨blank (keyed 0 [] []), tq 1 true, (1 : Nat), by decide +kernel⟩,
    ⟨blank (keyed 1 (rqBytes (tq 1 true)) []), tq 1 true, by decide +kernel⟩,
    ⟨blank runs1, tq 1 true, by decide +kernel⟩,
    ⟨blank (keyed 0 [] []), tq 1 false, by decide +kernel⟩,
    ⟨blank (keyed 1 (rqBytes (tq 1 true)) [5]), tq 1 true, by decide +kernel⟩,
    ⟨blank (keyed 1 [] [5]), tq 1 true, by decide +kernel⟩⟩

theorem witness_BasicCommands :
    (∃ (s : State) (r : Request), Admitted s 1 true r) ∧
    (∃ (s : State) (r : Request), Admitted s 5 false r ∧ HasRoom s 5 r ∧ Armed s r ∧ r.length = 36 ∧ rqField r 0 1 ≤
    3 ∧ (r.flags.getLsbD 1 = true ∧ r.flags.toNat / 4 % 4 ≠ 0 ∨ r.flags.getLsbD 1 = false ∧ rqField r 0 1 ≠ 0)) ∧
    (∃ (s : State), s.blade.eng.eepromWrites = [] ∧ s.blade.deferredOf 20 = none) ∧
    (∃ (s : State) (r : Request), Admitted s 1 true r) ∧
    (∃ (s : State), s.blade.eng.eepromWrites = [] ∧ s.blade.deferredOf 20 = none) ∧
    (∃ (s : State) (r : Request), Admitted s 16 true r ∧ r.length = 8 ∧ rqField r 4 1 = 4 ∧ rqField r 0 4 % 4 = 0 ∧
    (rqField r 0 4 < 33554432 ∨ 50331648 ≤ rqField r 0 4)) ∧
    (∃ (s : State) (r : Request), Admitted s 1 true r) ∧
    (∃ (s : State), s.blade.eng.eepromWrites = [] ∧ s.blade.deferredOf 20 = none) ∧
    (∃ (s : State) (r : Request), Admitted s 16 true r ∧ r.length = 8 ∧ rqField r 4 1 = 4 ∧ rqField r 0 4 % 4 = 0 ∧
    (rqField r 0 4 < 33554432 ∨ 50331648 ≤ rqField r 0 4)) ∧
    (∃ (s : State) (r : Request), Admitted s 18 true r ∧ r.length = 8 ∧ 1 ≤ rqField r 4 2 ∧ rqField r 4 2 ≤ 256 ∧
    rqField r 0 4 % 4 = 0 ∧ 50331648 < rqField r 0 4 + 4 * rqField r 4 2) ∧
    (∃ (s : State) (r : Request), Admitted s 2 true r ∧ r.length = 0) ∧
    (∃ (s : State) (r : Request), Admitted s 4 true r ∧ r.length = 0) ∧
    (∃ (s : State) (r : Request), Admitted s 6 false r ∧ HasRoom s 6 r ∧ Armed s r ∧ r.length = 0) ∧
    (∃ (s : State) (w : Deferred) (rest : List Deferred), s.blade.eng.eepromWrites = w :: rest ∧ w.dest.opcode = 5 ∧
    leNat w.data ≠ 0) ∧
    (∃ (s : State) (r : Request), Admitted s 19 false r ∧ rqField r 4 2 = 0) ∧
    (∃ (s : State) (r : Request), Admitted s 20 true r ∧ HasRoom s 20 r ∧ r.length = 0) ∧
    (∃ (s : State) (r : Request), Admitted s 16 true r ∧ r.length = 8 ∧ rqField r 4 1 = 4 ∧ inWindow (rqField r 0 4)
    = true) ∧
    (∃ (s : State) (r : Request), Admitted s 18 true r ∧ r.length = 8 ∧ 1 ≤ rqField r 4 2 ∧ rqField r 4 2 ≤ 256 ∧
    rqField r 0 4 % 4 = 0 ∧ 33554432 ≤ rqField r 0 4 ∧ rqField r 0 4 + 4 * rqField r 4 2 ≤ 50331648) ∧
    (∃ (s : State) (r : Request), Admitted s 16 true r ∧ r.length = 8 ∧ (rqField r 4 1 ≠ 4 ∨ rqField r 0 4 % 4 ≠ 0)) ∧
    (∃ (s : State) (r : Request), Admitted s 18 true r ∧ r.length = 8 ∧ 1 ≤ rqField r 4 2 ∧ rqField r 4 2 ≤ 256 ∧
    rqField r 0 4 % 4 ≠ 0) ∧
    (∃ (s : State) (r : Request) (k : ℕ), Admitted s 17 false r ∧ r.length = 12 ∧ rqField r 4 1 = 4 ∧ inWindow
    (rqField r 0 4) = true ∧ k < 8 ∧ rqField r 0 4 = 33882144 + 4 * k) ∧
    (∃ (s : State) (r : Request), Admitted s 6 false r ∧ HasRoom s 6 r ∧ ¬Armed s r ∧ r.length = 0) ∧
    (∃ (s : State) (w : Deferred), s.blade.deferredOf 20 = some w) ∧
    (∃ (s : State) (r : Request), Admitted s 5 false r ∧ HasRoom s 5 r ∧ Armed s r ∧ r.length = 36 ∧ 3 < rqField r 0
    1) ∧
    (∃ (s : State) (r : Request), Admitted s 5 false r ∧ HasRoom s 5 r ∧ ¬Armed s r ∧ r.length = 36) ∧
    (∃ (s : State) (w : Deferred) (rest : List Deferred), s.blade.eng.eepromWrites = w :: rest ∧ w.dest.opcode = 6) ∧
    (∃ (s : State) (r : Request), Admitted s 18 true r ∧ r.length = 8 ∧ (rqField r 4 2 = 0 ∨ 256 < rqField r 4 2)) ∧
    (∃ (s : State) (r : Request), Admitted s 17 false r ∧ r.length = 12 ∧ (rqField r 4 1 ≠ 4 ∨ rqField r 0 4 % 4 ≠
    0)) ∧
    (∃ (s : State) (r : Request) (i : ℕ), Admitted s 19 false r ∧ 1 ≤ rqField r 4 2 ∧ rqField r 4 2 ≤ 8 ∧
    BitVec.toNat r.length = 8 + 4 * rqField r 4 2 ∧ rqField r 0 4 = 33882144 ∧ i < rqField r 4 2) ∧
    (∃ (s : State) (r : Request), Admitted s 19 false r ∧ 1 ≤ rqField r 4 2 ∧ rqField r 4 2 ≤ 256 ∧ BitVec.toNat
    r.length = 8 + 4 * rqField r 4 2 ∧ rqField r 0 4 % 4 = 0 ∧ 50331648 < rqField r 0 4 + 4 * rqField r 4 2) ∧
    (∃ (s : State) (r : Request), Admitted s 5 false r ∧ HasRoom s 5 r ∧ Armed s r ∧ r.length = 36 ∧ rqField r 0 1 ≤
    3 ∧ r.flags.getLsbD 1 = true ∧ r.flags.toNat / 4 % 4 = 0 ∧ (rqField r 0 1 ≠ 0 ∨ rqField r 4 32 ≠ 0)) :=
  ⟨⟨S, op 1 (rq ([3,0,0,0] ++ List.replicate 32 7) 0x10), ⟨by decide +kernel, by decide +kernel, by decide +kernel⟩⟩,
    ⟨S, op 5 (rq ([3,0,0,0] ++ List.replicate 32 7) 0x10), ⟨by decide +kernel, by decide +kernel, by decide +kernel⟩,
    by unfold HasRoom; decide +kernel, by unfold Armed; decide +kernel, by decide +kernel⟩,
    ⟨S, by decide +kernel⟩,
    ⟨S, op 1 (rq [0xFC,0xFF,0xFF,1,4,0,0,0]), ⟨by decide +kernel, by decide +kernel, by decide +kernel⟩⟩,
    ⟨S, by decide +kernel⟩,
    ⟨S, op 16 (rq [0xFC,0xFF,0xFF,1,4,0,0,0]), ⟨by decide +kernel, by decide +kernel, by decide +kernel⟩,
    by decide +kernel⟩,
    ⟨S, op 1 (rq [0,0,0,3,4,0,0,0]), ⟨by decide +kernel, by decide +kernel, by decide +kernel⟩⟩,
    ⟨S, by decide +kernel⟩,
    ⟨S, op 16 (rq [0,0,0,3,4,0,0,0]), ⟨by decide +kernel, by decide +kernel, by decide +kernel⟩, by decide +kernel⟩,
    ⟨S, op 18 (rq [0,0,0,3,4,0,0,0]), ⟨by decide +kernel, by decide +kernel, by decide +kernel⟩, by decide +kernel⟩,
    ⟨blank { act with eng.eepromWrites := [d5] }, op 2 (rq [] 16), ⟨by decide +kernel, by decide +kernel,
    by decide +kernel⟩, by decide +kernel⟩,
    ⟨blank { act with eng.eepromWrites := [d5] }, op 4 (rq [] 16), ⟨by decide +kernel, by decide +kernel,
    by decide +kernel⟩, by decide +kernel⟩,
    ⟨blank { act with eng.eepromWrites := [d5] }, op 6 (rq [] 16), ⟨by decide +kernel, by decide +kernel,
    by decide +kernel⟩, by unfold HasRoom; decide +kernel, by unfold Armed; decide +kernel, by decide +kernel⟩,
    ⟨blank { act with eng.eepromWrites := [d5] }, d5, ([] : List Deferred), by decide +kernel⟩,
    ⟨blank { act with eng.eepromWrites := [d5] }, op 19 (rq [] 16), ⟨by decide +kernel, by decide +kernel,
    by decide +kernel⟩, by decide +kernel⟩,
    ⟨blank { act with eng.eepromWrites := [d5] }, op 20 (rq [] 16), ⟨by decide +kernel, by decide +kernel,
    by decide +kernel⟩, by unfold HasRoom; decide +kernel, by decide +kernel⟩,
    ⟨S, op 16 (rq [0x20,0,5,2,4,0,0,0]), ⟨by decide +kernel, by decide +kernel, by decide +kernel⟩,
    by decide +kernel⟩,
    ⟨S, op 18 (rq [0x20,0,5,2,4,0,0,0]), ⟨by decide +kernel, by decide +kernel, by decide +kernel⟩,
    by decide +kernel⟩,
    ⟨S, op 16 (rq [0x21,0,5,2,2,0,0,0]), ⟨by decide +kernel, by decide +kernel, by decide +kernel⟩,
    by decide +kernel⟩,
    ⟨S, op 18 (rq [0x21,0,5,2,2,0,0,0]), ⟨by decide +kernel, by decide +kernel, by decide +kernel⟩,
    by decide +kernel⟩,
    ⟨S, op 17 (rq [0x20,0,5,2,4,0,0,0,9,8,7,6]), (0 : Nat), ⟨by decide +kernel, by decide +kernel,
    by decide +kernel⟩, by decide +kernel⟩,
    ⟨blank { act with eng.deferred := [dfr 0x14 0 []] }, op 6 (rq []), ⟨by decide +kernel, by decide +kernel,
    by decide +kernel⟩, by unfold HasRoom; decide +kernel, by unfold Armed; decide +kernel, by decide +kernel⟩,
    ⟨blank { act with eng.deferred := [dfr 0x14 0 []] }, dfr 0x14 0 [], by decide +kernel⟩,
    ⟨S, op 5 (rq ([4,0,0,0] ++ List.replicate 32 7) 16), ⟨by decide +kernel, by decide +kernel, by decide +kernel⟩,
    by unfold HasRoom; decide +kernel, by unfold Armed; decide +kernel, by decide +kernel⟩,
    ⟨S, op 5 (rq ([0,0,0,0] ++ List.replicate 32 7) 0), ⟨by decide +kernel, by decide +kernel, by decide +kernel⟩,
    by unfold HasRoom; decide +kernel, by unfold Armed; decide +kernel, by decide +kernel⟩,
    ⟨blank { act with eng.eepromWrites := [d6] }, d6, ([] : List Deferred), by decide +kernel⟩,
    ⟨S, op 18 (rq [0x20,0,5,2,0,0,0,0]), ⟨by decide +kernel, by decide +kernel, by decide +kernel⟩,
    by decide +kernel⟩,
    ⟨S, op 17 (rq [0x24,0,5,2,2,0,0,0,9,8,7,6]), ⟨by decide +kernel, by decide +kernel, by decide +kernel⟩,
    by decide +kernel⟩,
    ⟨S, op 19 (rq [0x20,0,5,2,2,0,0,0,9,8,7,6,5,4,3,2]), (1 : Nat), ⟨by decide +kernel, by decide +kernel,
    by decide +kernel⟩, by decide +kernel⟩,
    ⟨S, op 19 (rq [0xFC,0xFF,0xFF,2,2,0,0,0,9,8,7,6,5,4,3,2]), ⟨by decide +kernel, by decide +kernel,
    by decide +kernel⟩, by decide +kernel⟩,
    ⟨blank keyed_2, newKey, ⟨by decide +kernel, by decide +kernel, by decide +kernel⟩,
    by unfold HasRoom; decide +kernel, by unfold Armed; decide +kernel, by decide +kernel⟩⟩

theorem witness_ImageCommands :
    (∃ (s : State) (r : Request), Admitted s 32 true r ∧ Clean s.mem s.blade (6174015488 + rqField r 4 4) (List.drop
    12 r.params).length ∧ 16 ≤ BitVec.toNat r.length ∧ BitVec.toNat r.length ≤ 1036 ∧ (began s r).stagingBusy = false
    ∧ 1 ≤ rqField r 0 1 ∧ rqField r 0 1 ≤ 3 ∧ rqField r 8 4 ≤ 268435456 ∧ rqField r 4 4 + (List.drop 12
    r.params).length ≤ rqField r 8 4) ∧
    (∃ (s : State), s.blade.eng.staging.verifying = false) ∧
    (∃ (s : State) (r : Request), Admitted s 32 true r ∧ 16 ≤ BitVec.toNat r.length ∧ BitVec.toNat r.length ≤ 1036 ∧
    (began s r).stagingBusy = false ∧ (rqField r 0 1 = 0 ∨ 3 < rqField r 0 1 ∨ 268435456 < rqField r 8 4 ∨ rqField r
    8 4 < rqField r 4 4 + (List.drop 12 r.params).length)) ∧
    (∃ (s : State), s.blade.eng.staging.verifying = false) ∧
    (∃ (s : State) (r : Request), Admitted s 32 true r ∧ 16 ≤ BitVec.toNat r.length ∧ BitVec.toNat r.length ≤ 1036 ∧
    (began s r).stagingBusy = false ∧ (rqField r 0 1 = 0 ∨ 3 < rqField r 0 1 ∨ 268435456 < rqField r 8 4 ∨ rqField r
    8 4 < rqField r 4 4 + (List.drop 12 r.params).length)) ∧
    (∃ (s : State), s.blade.eng.staging.verifying = false) ∧
    (∃ (s : State) (r : Request), Admitted s 32 true r ∧ 16 ≤ BitVec.toNat r.length ∧ BitVec.toNat r.length ≤ 1036 ∧
    (began s r).stagingBusy = false ∧ (rqField r 0 1 = 0 ∨ 3 < rqField r 0 1 ∨ 268435456 < rqField r 8 4 ∨ rqField r
    8 4 < rqField r 4 4 + (List.drop 12 r.params).length)) ∧
    (∃ (s : State), s.blade.eng.staging.verifying = false) ∧
    (∃ (s : State) (r : Request), Admitted s 33 true r ∧ HasRoom s 33 r ∧ r.length = 4 ∧ BitVec.toNat (began s
    r).eng.staging.kind = rqField r 0 1 ∧ (began s r).eng.staging.complete = true) ∧
    (∃ (s : State) (kind : BitVec 8), s.blade.eng.staging.verifying = true ∧ s.blade.eng.staging.kind = kind ∧
    (s.blade.readStaged s.mem).lost = true) ∧
    (∃ (s : State) (r : Request), Admitted s 34 false r ∧ HasRoom s 34 r ∧ r.length = 4 ∧ (began s r).stagedGood
    (rqField r 0 1) = false) ∧
    (∃ (s : State) (r : Request), Admitted s 34 false r ∧ HasRoom s 34 r ∧ (Clean s.mem s.blade (if rqField r 1 1 = 1
    then 5905580032 else 5637144576) (began s r).eng.staging.total) ∧ r.length = 4 ∧ rqField r 0 1 = 2 ∧ (began s
    r).stagedGood 2 = true ∧ s.mem.marked 6174015488 (began s r).eng.staging.total = [] ∧ rqField r 1 1 ≤ 1 ∧ decide
    (rqField r 1 1 = 1) ≠ (began s r).led.activeSlotB ∧ (began s r).slotInUse (decide (rqField r 1 1 = 1)) = false) ∧
    (∃ (s : State) (r : Request), Admitted s 34 false r ∧ HasRoom s 34 r ∧ r.length = 4 ∧ rqField r 0 1 = 1 ∧ (began
    s r).stagedGood 1 = true ∧ s.mem.marked 6174015488 (began s r).eng.staging.total = []) ∧
    (∃ (s : State) (r : Request), Admitted s 34 false r ∧ HasRoom s 34 r ∧ r.length = 4 ∧ (began s r).stagedGood
    (rqField r 0 1) = true ∧ ((began s r).readStaged s.mem).lost = true) ∧
    (∃ (s : State) (r : Request), Admitted s 32 true r ∧ 16 ≤ BitVec.toNat r.length ∧ BitVec.toNat r.length ≤ 1036 ∧
    (began s r).stagingBusy = true) ∧
    (∃ (s : State) (kind : BitVec 8), s.blade.eng.staging.verifying = true ∧ s.blade.eng.staging.kind = kind ∧
    s.mem.marked 6174015488 s.blade.eng.staging.total = []) ∧
    (∃ (s : State) (r : Request), Admitted s 33 true r ∧ HasRoom s 33 r ∧ r.length = 4 ∧ (BitVec.toNat (began s
    r).eng.staging.kind ≠ rqField r 0 1 ∨ (began s r).eng.staging.complete = false)) ∧
    (∃ (s : State) (slot : Bool) (f : Word32), s.blade.led.slotChange = some (slot, f) ∧ f ≠ s.blade.frame) ∧
    (∃ (s : State) (r : Request) (c : ClusterId), Admitted s 34 false r ∧ HasRoom s 34 r ∧ r.length = 4 ∧ rqField r 0
    1 = 3 ∧ (began s r).stagedGood 3 = true ∧ s.mem.marked 6174015488 (began s r).eng.staging.total = [] ∧ (began s
    r).joined = false ∧ rqField r 2 1 = 2 ^ c.val ∧ (began s r).domainOff (64 + ↑c) = false ∧ ((began s r).cluster
    ↑c).faultStruck = false) ∧
    (∃ (s : State) (c : ClusterId) (a : Activation), s.blade.eng.activation = some a ∧ a.clusters.head? = some c) ∧
    (∃ (s : State) (r : Request), Admitted s 34 false r ∧ HasRoom s 34 r ∧ r.length = 4 ∧ rqField r 0 1 = 2 ∧ (began
    s r).stagedGood 2 = true ∧ s.mem.marked 6174015488 (began s r).eng.staging.total = [] ∧ (1 < rqField r 1 1 ∨
    decide (rqField r 1 1 = 1) = (began s r).led.activeSlotB)) ∧
    (∃ (s : State) (slot : Bool) (f : Word32), s.blade.led.slotChange = some (slot, f) ∧ f = s.blade.frame) :=
  ⟨⟨S, op 32 (ld 3 0xFFFFFFC 0x10000000), ⟨by decide +kernel, by decide +kernel, by decide +kernel⟩,
   ⟨by decide +kernel, by decide +kernel⟩, by decide +kernel⟩,
    ⟨S, by decide +kernel⟩,
    ⟨S, op 32 (ld 3 0 0x10000001), ⟨by decide +kernel, by decide +kernel, by decide +kernel⟩, by decide +kernel⟩,
    ⟨S, by decide +kernel⟩,
    ⟨S, op 32 (ld 1 0xFFFFFFD 0x10000000), ⟨by decide +kernel, by decide +kernel, by decide +kernel⟩,
    by decide +kernel⟩,
    ⟨S, by decide +kernel⟩,
    ⟨S, op 32 (ld 0 0 64), ⟨by decide +kernel, by decide +kernel, by decide +kernel⟩, by decide +kernel⟩,
    ⟨S, by decide +kernel⟩,
    ⟨lostWord (stg 1 64 false true), op 33 (rq [1,0,0,0]), ⟨by decide +kernel, by decide +kernel, by decide +kernel⟩,
    by unfold HasRoom; decide +kernel, by decide +kernel⟩,
    ⟨lostWord (stg 1 64 false true), (1 : BitVec 8), by decide +kernel⟩,
    ⟨lostWord (stg 1 64 false true), op 34 (rq [1,0,0,0]), ⟨by decide +kernel, by decide +kernel, by decide +kernel⟩,
    by unfold HasRoom; decide +kernel, by decide +kernel⟩,
    ⟨blank (stg 2 4 true false), op 34 (rq (b8 [2,1,0,0])), ⟨by decide +kernel, by decide +kernel,
    by decide +kernel⟩, by unfold HasRoom; decide +kernel, ⟨by decide +kernel, by decide +kernel⟩, by decide +kernel⟩,
    ⟨blank (stg 1 4 true false), op 34 (rq (b8 [1,0,0,0])), ⟨by decide +kernel, by decide +kernel,
    by decide +kernel⟩, by unfold HasRoom; decide +kernel, by decide +kernel⟩,
    ⟨lostWord (stg 3 4 true false), op 34 (rq [3,0,1,0]), ⟨by decide +kernel, by decide +kernel, by decide +kernel⟩,
    by unfold HasRoom; decide +kernel, by decide +kernel⟩,
    ⟨blank (stg 1 64 false true), op 32 (ld 1 4 64), ⟨by decide +kernel, by decide +kernel, by decide +kernel⟩,
    by decide +kernel⟩,
    ⟨blank (stg 1 64 false true), (1 : BitVec 8), by decide +kernel⟩,
    ⟨blank { act with led.slotChange := some (true, 7) }, op 33 (rq (b8 [3,0,1,0])), ⟨by decide +kernel,
    by decide +kernel, by decide +kernel⟩, by unfold HasRoom; decide +kernel, by decide +kernel⟩,
    ⟨blank { act with led.slotChange := some (true, 7) }, true, (7 : Word32), by decide +kernel⟩,
    ⟨blank (dom (stg 3 4 true false)), op 34 (rq (b8 [3,0,1,0])), c0, ⟨by decide +kernel, by decide +kernel,
    by decide +kernel⟩, by unfold HasRoom; decide +kernel, by decide +kernel⟩,
    ⟨blank { act with eng.activation := some A0 }, c0, A0, by decide +kernel⟩,
    ⟨blank (stg 2 4 true false), op 34 (rq (b8 [2,0,0,0])), ⟨by decide +kernel, by decide +kernel,
    by decide +kernel⟩, by unfold HasRoom; decide +kernel, by decide +kernel⟩,
    ⟨blank { act with led.slotChange := some (true, 0) }, true, (0 : Word32), by decide +kernel⟩⟩

theorem witness_FunctionCommands :
    (∃ (s : State) (r : Request), Admitted s 48 false r ∧ HasRoom s 48 r ∧ r.length = 4 ∧ (began s r).fnExists
    (rqField r 0 2) = true ∧ (began s r).spareOrRetired (rqField r 0 2) = true) ∧
    (∃ (s : State) (fn : BitVec 16), (s.blade.csr.striking.contains fn.toNat = false ∨ s.blade.strikeReached fn.toNat
    = false)) ∧
    (∃ (s : State) (r : Request), Admitted s 49 false r ∧ r.length = 4 ∧ (began s r).csr.striking.contains (rqField r
    0 2) = false ∧ (began s r).struck (rqField r 0 2) = true ∧ rqField r 0 2 < 34 ∧ (began s r).hoistCheck (rqField r
    0 2) = true) ∧
    (∃ (s : State) (r : Request), Admitted s 48 false r ∧ HasRoom s 48 r ∧ r.length = 4 ∧ (began s r).strikeStatus
    (rqField r 0 2) = 0 ∧ (began s r).struck (rqField r 0 2) = true ∧ (began s r).csr.striking.contains (rqField r 0
    2) = false) ∧
    (∃ (s : State) (fn : BitVec 16), (s.blade.csr.striking.contains fn.toNat = false ∨ s.blade.strikeReached fn.toNat
    = false)) ∧
    (∃ (s : State) (r : Request) (k : ℕ), Admitted s 49 false r ∧ r.length = 4 ∧ (began s r).csr.striking.contains
    (rqField r 0 2) = false ∧ (began s r).struck (rqField r 0 2) = true ∧ k < 64 ∧ rqField r 0 2 = 512 + k ∧ (began s
    r).hoistCheck (rqField r 0 2) = true ∧ (began s r).bank.zeroed.getLsbD k = true) ∧
    (∃ (s : State) (r : Request), Admitted s 48 false r ∧ HasRoom s 48 r ∧ r.length = 4 ∧ 512 ≤ rqField r 0 2 ∧
    rqField r 0 2 < 516 ∧ (began s r).pair.role ≠ BladeRole.starting) ∧
    (∃ (s : State) (fn : BitVec 16), (s.blade.csr.striking.contains fn.toNat = false ∨ s.blade.strikeReached fn.toNat
    = false)) ∧
    (∃ (s : State) (r : Request), Admitted s 49 false r ∧ r.length = 4 ∧ (began s r).fnExists (rqField r 0 2) = true
    ∧ (began s r).csr.striking.contains (rqField r 0 2) = false ∧ (began s r).struck (rqField r 0 2) = false) ∧
    (∃ (s : State) (fn : BitVec 16) (w : Deferred), s.blade.csr.striking.contains fn.toNat = true ∧
    s.blade.strikeReached fn.toNat = true ∧ s.blade.deferredOf 48 = some w ∧ w.operand = fn.toNat) ∧
    (∃ (s : State) (r : Request), Admitted s 49 false r ∧ r.length = 4 ∧ (began s r).fnExists (rqField r 0 2) = true
    ∧ (began s r).csr.striking.contains (rqField r 0 2) = true) ∧
    (∃ (s : State) (r : Request), Admitted s 48 false r ∧ HasRoom s 48 r ∧ r.length = 4 ∧ (began s r).strikeStatus
    (rqField r 0 2) = 0 ∧ (began s r).struck (rqField r 0 2) = false ∧ rqField r 0 2 ≠ 784 ∧ strikesOwnUplink
    (rqField r 0 2) r.transport = false) ∧
    (∃ (s : State) (r : Request), Admitted s 48 false r ∧ HasRoom s 48 r ∧ r.length = 4 ∧ (began s r).fnExists
    (rqField r 0 2) = false) ∧
    (∃ (s : State) (r : Request), Admitted s 49 false r ∧ r.length = 4 ∧ (began s r).fnExists (rqField r 0 2) =
    false) ∧
    (∃ (s : State) (r : Request), Admitted s 49 false r ∧ r.length = 4 ∧ (began s r).csr.striking.contains (rqField r
    0 2) = false ∧ (began s r).struck (rqField r 0 2) = true ∧ rqField r 0 2 < 34 ∧ (began s r).hoistCheck (rqField r
    0 2) = false) ∧
    (∃ (s : State) (r : Request), Admitted s 48 false r ∧ HasRoom s 48 r ∧ r.length = 4 ∧ (began s r).strikeStatus
    (rqField r 0 2) = 0 ∧ (began s r).struck (rqField r 0 2) = false ∧ rqField r 0 2 ≠ 784 ∧ strikesOwnUplink
    (rqField r 0 2) r.transport = true) :=
  ⟨⟨blank ((tl_2 act).setStruck 0x21 true), op 48 (fn 0x21), ⟨by decide +kernel, by decide +kernel,
   by decide +kernel⟩, by unfold HasRoom; decide +kernel, by decide +kernel⟩,
    ⟨blank ((tl_2 act).setStruck 0x21 true), (5 : BitVec 16), by decide +kernel⟩,
    ⟨blank ((tl_2 act).setStruck 0x21 true), op 49 (fn 0x21), ⟨by decide +kernel, by decide +kernel,
    by decide +kernel⟩, by decide +kernel⟩,
    ⟨blank { (tl_2 act).setStruck 0x23F true with bank.zeroed := 0xFFFFFFFFFFFFFFFF }, op 48 (fn 0x23F),
    ⟨by decide +kernel, by decide +kernel, by decide +kernel⟩, by unfold HasRoom; decide +kernel, by decide +kernel⟩,
    ⟨blank { (tl_2 act).setStruck 0x23F true with bank.zeroed := 0xFFFFFFFFFFFFFFFF }, (0x1005 : BitVec 16),
    by decide +kernel⟩,
    ⟨blank { (tl_2 act).setStruck 0x23F true with bank.zeroed := 0xFFFFFFFFFFFFFFFF }, op 49 (fn 0x23F), (0x3F :
    Nat), ⟨by decide +kernel, by decide +kernel, by decide +kernel⟩, by decide +kernel⟩,
    ⟨blank (tl_2 act), op 48 (fn 0x203), ⟨by decide +kernel, by decide +kernel, by decide +kernel⟩,
    by unfold HasRoom; decide +kernel, by decide +kernel⟩,
    ⟨blank (tl_2 act), (0 : BitVec 16), by decide +kernel⟩,
    ⟨blank (tl_2 act), op 49 (fn 0x203), ⟨by decide +kernel, by decide +kernel, by decide +kernel⟩,
    by decide +kernel⟩,
    ⟨blank
    { act with csr.striking := [0x1005], csr.struck := [(0x1005, true)], eng.deferred := [dfr 0x30 0x1005 []] },
    (0x1005 : BitVec 16), dfr 0x30 0x1005 [], by decide +kernel⟩,
    ⟨blank
    { act with csr.striking := [0x1005], csr.struck := [(0x1005, true)], eng.deferred := [dfr 0x30 0x1005 []] }, op
    49 (fn 0x1005), ⟨by decide +kernel, by decide +kernel, by decide +kernel⟩, by decide +kernel⟩,
    ⟨dom act |> blank, op 48 (fn 0x1005), ⟨by decide +kernel, by decide +kernel, by decide +kernel⟩,
    by unfold HasRoom; decide +kernel, by decide +kernel⟩,
    ⟨S, op 48 (fn 0x22), ⟨by decide +kernel, by decide +kernel, by decide +kernel⟩,
    by unfold HasRoom; decide +kernel, by decide +kernel⟩,
    ⟨S, op 49 (fn 0x22), ⟨by decide +kernel, by decide +kernel, by decide +kernel⟩, by decide +kernel⟩,
    ⟨blank { (tl_2 act).setStruck 3 true with net.retiredTiles := 8 }, op 49 (fn 3), ⟨by decide +kernel,
    by decide +kernel, by decide +kernel⟩, by decide +kernel⟩,
    ⟨blank kb, upr, ⟨by decide +kernel, by decide +kernel, by decide +kernel⟩, by unfold HasRoom; decide +kernel,
    by decide +kernel⟩⟩

theorem witness_RetirementResults :
    (∃ (s : State) (r : Request), Admitted s 50 false r ∧ HasRoom s 50 r ∧ r.length = 4 ∧ rqField r 0 1 < 34 ∧ (began
    s r).activeTile (rqField r 0 1) = false) ∧
    (∃ (s : State), s.blade.net.migration = none) ∧
    (∃ (s : State), s.blade.net.migration = none) ∧
    (∃ (s : State) (r : Request) (target : ℕ), Admitted s 50 false r ∧ HasRoom s 50 r ∧ r.length = 4 ∧ rqField r 0 1
    < 34 ∧ (began s r).activeTile (rqField r 0 1) = true ∧ (began s r).net.migration = none ∧ ((began s r).wakeTarget
    (rqField r 0 1)).retireTarget (rqField r 0 1) = some target ∧ target < 34 ∧ target ≠ rqField r 0 1) ∧
    (∃ (s : State) (t : TileId) (target : ℕ), s.blade.activeTile ↑t = true ∧ s.blade.flt.fenced = false ∧
    s.blade.net.migration = none ∧ (s.blade.wakeTarget ↑t).retireTarget ↑t = some target ∧ target < 34 ∧ target ≠ ↑t) ∧
    (∃ (s : State) (r : Request) (g : Migration), Admitted s 50 false r ∧ HasRoom s 50 r ∧ r.length = 4 ∧ rqField r 0
    1 < 34 ∧ (began s r).activeTile (rqField r 0 1) = true ∧ (began s r).net.migration = some g) ∧
    (∃ (s : State) (t : TileId) (g : Migration), s.blade.activeTile ↑t = true ∧ s.blade.flt.fenced = false ∧
    s.blade.net.migration = some g) ∧
    (∃ (s : State) (t : TileId) (g : Migration), (s.blade.activeTile ↑t = false ∨ s.blade.flt.fenced = true) ∧
    s.blade.net.migration = some g ∧ g.barrier = false ∧ (∀ k < 512, k ∈ g.moved) ∧ 512 ≤ g.moved.length ∧
    s.blade.net.retireQueue = []) ∧
    (∃ (s : State) (r : Request), Admitted s 50 false r ∧ HasRoom s 50 r ∧ r.length = 4 ∧ 34 ≤ rqField r 0 1) ∧
    (∃ (s : State) (g : Migration), s.blade.net.migration = some g ∧ g.barrier = true) :=
  ⟨⟨blank (tl_2 act), op 50 (rq [33,0,0,0]), ⟨by decide +kernel, by decide +kernel, by decide +kernel⟩,
   by unfold HasRoom; decide +kernel, by decide +kernel⟩,
    ⟨blank (tl_2 act), by decide +kernel⟩,
    ⟨blank { (tl_2 act) with net.activeTiles := 0x3FFFFFFFE }, by decide +kernel⟩,
    ⟨blank (tl (dom act)), op 50 (rq [3,0,0,0]), (32 : Nat), ⟨by decide +kernel, by decide +kernel,
    by decide +kernel⟩, by unfold HasRoom; decide +kernel, by decide +kernel⟩,
    ⟨blank (tl (dom act)), t0_3, (32 : Nat), by decide +kernel⟩,
    ⟨blank { tl (dom act) with net.migration := some g0_2 }, op 50 (rq [3,0,0,0]), g0_2, ⟨by decide +kernel,
    by decide +kernel, by decide +kernel⟩, by unfold HasRoom; decide +kernel, by decide +kernel⟩,
    ⟨blank { tl (dom act) with net.migration := some g0_2 }, t0_3, g0_2, by decide +kernel⟩,
    ⟨blank { act with net.migration := some g1_3 }, t3, g1_3, by decide +kernel⟩,
    ⟨blank (tl (dom act)), op 50 (rq [34,0,0,0]), ⟨by decide +kernel, by decide +kernel, by decide +kernel⟩,
    by unfold HasRoom; decide +kernel, by decide +kernel⟩,
    ⟨blank { act with net.migration := some g0_3 }, g0_3, by decide +kernel⟩⟩

theorem witness_SweepResults :
    (∃ (algorithm : ℕ) (backgrounds : List ℕ) (ws : List MarchWord) (s : State) (r : Request) (x : LiveRepair) (k :
    ℕ), (∀ w ∈ ws, ∀ x ∈ w.returned, ∀ (r : MarchRead), (marchReads algorithm backgrounds (↑w.row)
    w.word.toNat)[x.1]? = some r → x.2 = r.expects) ∧ s.blade.flag 34144260 8 = true ∧ s.blade.flt.fenced = false ∧
    s.mem.mark (4294967296 + 8 * (BitVec.toNat (s.blade.reg 34144264) % 2 ^ 30)) = WordMark.sound ∧
    (s.blade.bank.march = none ∨ ∃ y, s.blade.bank.march = some y ∧ BitVec.getLsbD y.word 6 = false) ∧
    s.blade.bank.repair = none ∧ s.blade.bank.march = none ∧ s.blade.flag 34209792 0 = true ∧ 7 ≤
    s.blade.hw.startStep.toNat ∧ k < 64 ∧ s.blade.sweepBank k = some k ∧ BitVec.toNat (s.blade.reg 34209804) % 64 = k
    ∧ BitVec.toNat (s.blade.reg 34209804) / 64 % 2 ^ 14 + 1 < s.blade.borrows k) ∧
    (∃ (s : State) (r : Request), Admitted s 51 true r ∧ r.length = 4 ∧ (BitVec.ofNat 32 (rqField r 0 4)).getLsbD 31
    = false ∧ (began s r).deferBusy 51 = false ∧ (BitVec.ofNat 32 (rqField r 0 4)).getLsbD 6 = false ∧ (began s
    r).bank.march = none) ∧
    (∃ (s : State) (r : Request), Admitted s 51 true r ∧ r.length = 4 ∧ (BitVec.ofNat 32 (rqField r 0 4)).getLsbD 31
    = false ∧ (began s r).deferBusy 51 = false ∧ (BitVec.ofNat 32 (rqField r 0 4)).getLsbD 6 = true ∧ 4 ≤
    (BitVec.ofNat 32 (rqField r 0 4)).toNat % 64 ∧ (began s r).bankOffline ((BitVec.ofNat 32 (rqField r 0 4)).toNat %
    64) = true ∧ (began s r).bank.march = none ∧ (BitVec.ofNat 32 (rqField r 0 4)).toNat / 128 % 4 ≠ 3) ∧
    (∃ (s : State) (r : Request) (g : MarchRun), Admitted s 51 true r ∧ r.length = 4 ∧ (BitVec.ofNat 32 (rqField r 0
    4)).getLsbD 31 = true ∧ (began s r).bank.march = some g ∧ ↑g.bank = (BitVec.ofNat 32 (rqField r 0 4)).toNat % 64) ∧
    (∃ (s : State) (g : MarchRun) (ws : List MarchWord) (f : MarchFail), s.blade.bank.march = some g ∧ BitVec.getLsbD
    g.word 6 = true ∧ marchFails (BitVec.toNat g.word / 128 % 4) (marchBackgrounds g.word) ws = [f] ∧ BitVec.getLsbD
    g.word 13 = false) ∧
    (∃ (s : State) (r : Request), Admitted s 51 true r ∧ r.length = 4 ∧ (BitVec.ofNat 32 (rqField r 0 4)).getLsbD 31
    = true ∧ ((began s r).bank.march = none ∨ ∃ y, (began s r).bank.march = some y ∧ ↑y.bank ≠ (BitVec.ofNat 32
    (rqField r 0 4)).toNat % 64)) ∧
    (∃ (s : State) (x : LiveRepair), s.blade.bank.repair = some x ∧ x.copied < 7 ∧ s.blade.flt.fenced = false) ∧
    (∃ (s : State) (r : Request) (g : MarchRun), Admitted s 51 true r ∧ r.length = 4 ∧ (BitVec.ofNat 32 (rqField r 0
    4)).getLsbD 31 = false ∧ (began s r).deferBusy 51 = false ∧ (BitVec.ofNat 32 (rqField r 0 4)).getLsbD 6 = true ∧
    4 ≤ (BitVec.ofNat 32 (rqField r 0 4)).toNat % 64 ∧ (began s r).bankOffline ((BitVec.ofNat 32 (rqField r 0
    4)).toNat % 64) = true ∧ (began s r).bank.march = some g) ∧
    (∃ (s : State) (g : MarchRun), s.blade.bank.repair = none ∧ s.blade.flt.fenced = false ∧ s.blade.bank.march =
    some g ∧ BitVec.getLsbD g.word 6 = false) ∧
    (∃ (s : State) (x : LiveRepair), (s.blade.bank.repair = some x ∧ 7 ≤ x.copied ∨ s.blade.flt.fenced = true) ∧
    (s.blade.flag 34144260 8 = false ∨ s.blade.flt.fenced = true)) ∧
    (∃ (s : State) (r : Request), Admitted s 51 true r ∧ r.length = 4 ∧ (BitVec.ofNat 32 (rqField r 0 4)).getLsbD 31
    = false ∧ (began s r).deferBusy 51 = false ∧ (BitVec.ofNat 32 (rqField r 0 4)).getLsbD 6 = true ∧ (BitVec.ofNat
    32 (rqField r 0 4)).toNat % 64 < 4) ∧
    (∃ (s : State) (r : Request), Admitted s 51 true r ∧ r.length = 4 ∧ (BitVec.ofNat 32 (rqField r 0 4)).getLsbD 31
    = false ∧ (began s r).deferBusy 51 = false ∧ (BitVec.ofNat 32 (rqField r 0 4)).getLsbD 6 = true ∧ 4 ≤
    (BitVec.ofNat 32 (rqField r 0 4)).toNat % 64 ∧ (began s r).bankOffline ((BitVec.ofNat 32 (rqField r 0 4)).toNat %
    64) = false) ∧
    (∃ (s : State) (r : Request) (g : MarchRun), Admitted s 51 true r ∧ r.length = 4 ∧ (BitVec.ofNat 32 (rqField r 0
    4)).getLsbD 31 = false ∧ (began s r).deferBusy 51 = false ∧ (BitVec.ofNat 32 (rqField r 0 4)).getLsbD 6 = false ∧
    (began s r).bank.march = some g) ∧
    (∃ (s : State) (r : Request), Admitted s 51 true r ∧ r.length = 4 ∧ (BitVec.ofNat 32 (rqField r 0 4)).getLsbD 31
    = false ∧ (began s r).deferBusy 51 = true) ∧
    (∃ (s : State) (g : MarchRun) (ws : List MarchWord), s.blade.bank.march = some g ∧ BitVec.getLsbD g.word 6 = true
    ∧ marchFails (BitVec.toNat g.word / 128 % 4) (marchBackgrounds g.word) ws = []) ∧
    (∃ (s : State) (r : Request), Admitted s 51 true r ∧ r.length = 4 ∧ (BitVec.ofNat 32 (rqField r 0 4)).getLsbD 31
    = false ∧ (began s r).deferBusy 51 = false ∧ (BitVec.ofNat 32 (rqField r 0 4)).getLsbD 6 = true ∧ 4 ≤
    (BitVec.ofNat 32 (rqField r 0 4)).toNat % 64 ∧ (began s r).bankOffline ((BitVec.ofNat 32 (rqField r 0 4)).toNat %
    64) = true ∧ (began s r).bank.march = none ∧ (BitVec.ofNat 32 (rqField r 0 4)).toNat / 128 % 4 = 3) :=
  ⟨⟨(4 : Nat), ([0] : List Nat), noWords, blank
   { ((act.setReg 0x020A0000 1).setReg 0x020A000C (4 + 64 * 8000)).setStruck 0x204 false with hw.startStep := 11 },
   mw 5, lr, (4 : Nat), by decide +kernel⟩,
    ⟨blank
    { ((act.setReg 0x020A0000 1).setReg 0x020A000C (4 + 64 * 8000)).setStruck 0x204 false with hw.startStep := 11 },
    op 51 (mw 5), ⟨by decide +kernel, by decide +kernel, by decide +kernel⟩, by decide +kernel⟩,
    ⟨blank (act.setStruck 0x204 true), op 51 (mw 0x44), ⟨by decide +kernel, by decide +kernel, by decide +kernel⟩,
    by decide +kernel⟩,
    ⟨blank { act with bank.march := some g2 }, op 51 (mw 0x80000005), g2, ⟨by decide +kernel, by decide +kernel,
    by decide +kernel⟩, by decide +kernel⟩,
    ⟨blank { act with bank.march := some g2 }, g2, ws0, mf, by decide +kernel⟩,
    ⟨blank { act with bank.repair := some lr }, op 51 (mw 0x80000005), ⟨by decide +kernel, by decide +kernel,
    by decide +kernel⟩, by decide +kernel⟩,
    ⟨blank { act with bank.repair := some lr }, lr, by decide +kernel⟩,
    ⟨blank { act.setStruck 0x204 true with bank.march := some g1_2 }, op 51 (mw 0x44), g1_2, ⟨by decide +kernel,
    by decide +kernel, by decide +kernel⟩, by decide +kernel⟩,
    ⟨blank { act.setStruck 0x204 true with bank.march := some g1_2 }, g1_2, by decide +kernel⟩,
    ⟨blank { act.setReg 0x02090004 0x100 with flt.fenced := true }, lr, by decide +kernel⟩,
    ⟨S, op 51 (mw 0x43), ⟨by decide +kernel, by decide +kernel, by decide +kernel⟩, by decide +kernel⟩,
    ⟨S, op 51 (mw 0x44), ⟨by decide +kernel, by decide +kernel, by decide +kernel⟩, by decide +kernel⟩,
    ⟨blank { act with bank.march := some g1_2 }, op 51 (mw 4), g1_2, ⟨by decide +kernel, by decide +kernel,
    by decide +kernel⟩, by decide +kernel⟩,
    ⟨blank { act with eng.deferred := [dfr 0x33 0 []] }, op 51 (mw 4), ⟨by decide +kernel, by decide +kernel,
    by decide +kernel⟩, by decide +kernel⟩,
    ⟨blank { act with bank.march := some g2 }, g2, ws1, by decide +kernel⟩,
    ⟨blank (act.setStruck 0x204 true), op 51 (mw 0x1C4), ⟨by decide +kernel, by decide +kernel, by decide +kernel⟩,
    by decide +kernel⟩⟩

theorem witness_FaultCommands :
    (∃ (s : State) (r : Request), Admitted s 64 true r ∧ Armed s r ∧ r.length = 8 ∧ (decide (rqField r 0 2 < 1536) &&
    decide ((((began s r).disarm Port.command).sourceOf (rqField r 0 2)).1 ≠ FaultClass.unassigned) && (decide
    (rqField r 2 1 = 0) || (injectModes (rqField r 0 2)).contains (rqField r 2 1))) = true) ∧
    (∃ (s : State) (src : BitVec 11), s.blade.armed src.toNat 3 = false) ∧
    (∃ (s : State) (r : Request), Admitted s 65 true r ∧ r.length = 8 ∧ 47 < rqField r 0 1) ∧
    (∃ (s : State) (r : Request), Admitted s 64 true r ∧ Armed s r ∧ r.length = 8 ∧ (decide (rqField r 0 2 < 1536) &&
    decide ((((began s r).disarm Port.command).sourceOf (rqField r 0 2)).1 ≠ FaultClass.unassigned) && (decide
    (rqField r 2 1 = 0) || (injectModes (rqField r 0 2)).contains (rqField r 2 1))) = false) ∧
    (∃ (s : State) (src : BitVec 11), s.blade.armed src.toNat 3 = false) ∧
    (∃ (s : State) (r : Request) (k : ℕ), Admitted s 65 true r ∧ r.length = 8 ∧ rqField r 0 1 ≤ 47 ∧ k < 32 ∧ bitOf
    (rqField r 4 4) k = true ∧ ((began s r).source (32 * rqField r 0 1 + k)).cause = false) ∧
    (∃ (s : State) (r : Request), Admitted s 64 true r ∧ Armed s r ∧ r.length = 8 ∧ (decide (rqField r 0 2 < 1536) &&
    decide ((((began s r).disarm Port.command).sourceOf (rqField r 0 2)).1 ≠ FaultClass.unassigned) && (decide
    (rqField r 2 1 = 0) || (injectModes (rqField r 0 2)).contains (rqField r 2 1))) = true) ∧
    (∃ (s : State) (src : BitVec 11), s.blade.armed src.toNat 3 = false) ∧
    (∃ (s : State) (r : Request), Admitted s 65 true r ∧ r.length = 8 ∧ 47 < rqField r 0 1) ∧
    (∃ (s : State) (src : BitVec 11), s.blade.armed src.toNat 3 = false) ∧
    (∃ (s : State) (r : Request), Admitted s 72 true r ∧ r.length = 4 ∧ 1 ≤ rqField r 2 2 ∧ rqField r 2 2 ≤ 32 ∧
    (8192 ≤ rqField r 0 2 ∨ 4096 ≤ rqField r 0 2 ∧ (began s r).flt.saved = none)) ∧
    (∃ (s : State) (r : Request), Admitted s 73 true r ∧ r.length = 4 ∧ rqField r 0 1 = 0 ∧ (began s r).isArmed
    Port.command = false) ∧
    (∃ (s : State) (src : BitVec 11), s.blade.armed src.toNat 3 = false) ∧
    (∃ (s : State) (r : Request), Admitted s 72 true r ∧ r.length = 4 ∧ 1 ≤ rqField r 2 2 ∧ rqField r 2 2 ≤ 32 ∧
    (8192 ≤ rqField r 0 2 ∨ 4096 ≤ rqField r 0 2 ∧ (began s r).flt.saved = none)) ∧
    (∃ (s : State) (r : Request), Admitted s 73 true r ∧ r.length = 4 ∧ rqField r 0 1 = 0 ∧ (began s r).isArmed
    Port.command = false) ∧
    (∃ (s : State) (src : BitVec 11), s.blade.armed src.toNat 3 = false) ∧
    (∃ (s : State) (r : Request), Admitted s 72 true r ∧ r.length = 4 ∧ 1 ≤ rqField r 2 2 ∧ rqField r 2 2 ≤ 32 ∧
    rqField r 0 2 < 4096 ∧ (began s r).flt.ringHurt = []) ∧
    (∃ (s : State) (r : Request), Admitted s 73 true r ∧ r.length = 4 ∧ rqField r 0 1 ≠ 0 ∧ (began s r).flt.frozen =
    false) ∧
    (∃ (s : State) (src : BitVec 11), s.blade.armed src.toNat 3 = false) ∧
    (∃ (s : State) (r : Request), Admitted s 72 true r ∧ r.length = 4 ∧ (rqField r 2 2 = 0 ∨ 32 < rqField r 2 2)) ∧
    (∃ (s : State) (r : Request), Admitted s 73 true r ∧ r.length = 4 ∧ rqField r 0 1 ≠ 0 ∧ (began s r).flt.frozen =
    false) ∧
    (∃ (s : State) (src : BitVec 11), s.blade.armed src.toNat 3 = true ∧ logicTile src.toNat = none ∧
    s.blade.flt.fenced = false) ∧
    (∃ (s : State) (r : Request), Admitted s 73 true r ∧ r.length = 4 ∧ rqField r 0 1 = 0 ∧ (began s r).isArmed
    Port.command = true ∧ (began s r).flt.frozen = true) ∧
    (∃ (s : State) (r : Request), Admitted s 64 true r ∧ ¬Armed s r ∧ r.length = 8) ∧
    (∃ (s : State) (r : Request), Admitted s 73 true r ∧ r.length = 4 ∧ rqField r 0 1 ≠ 0 ∧ (began s r).flt.frozen =
    true) ∧
    (∃ (s : State) (r : Request) (k : ℕ), Admitted s 64 true r ∧ Armed s r ∧ r.length = 8 ∧ (decide (rqField r 0 2 <
    1536) && decide ((((began s r).disarm Port.command).sourceOf (rqField r 0 2)).1 ≠ FaultClass.unassigned) &&
    (decide (rqField r 2 1 = 0) || (injectModes (rqField r 0 2)).contains (rqField r 2 1))) = true ∧ checkerPartner
    (rqField r 0 2) = some k) :=
  ⟨⟨S, op 64 (inj 1535 0 5 0x10), ⟨by decide +kernel, by decide +kernel, by decide +kernel⟩,
   by unfold Armed; decide +kernel, by decide +kernel⟩,
    ⟨S, (65 : BitVec 11), by decide +kernel⟩,
    ⟨S, op 65 (inj 1535 0 5 0x10), ⟨by decide +kernel, by decide +kernel, by decide +kernel⟩, by decide +kernel⟩,
    ⟨S, op 64 (inj 1536 0 5 0x10), ⟨by decide +kernel, by decide +kernel, by decide +kernel⟩,
    by unfold Armed; decide +kernel, by decide +kernel⟩,
    ⟨S, (65 : BitVec 11), by decide +kernel⟩,
    ⟨S, op 65 (inj 1536 0 5 0x10), (0 : Nat), ⟨by decide +kernel, by decide +kernel, by decide +kernel⟩,
    by decide +kernel⟩,
    ⟨S, op 64 (inj 1505 0 5 0x10), ⟨by decide +kernel, by decide +kernel, by decide +kernel⟩,
    by unfold Armed; decide +kernel, by decide +kernel⟩,
    ⟨S, (65 : BitVec 11), by decide +kernel⟩,
    ⟨S, op 65 (inj 1505 0 5 0x10), ⟨by decide +kernel, by decide +kernel, by decide +kernel⟩, by decide +kernel⟩,
    ⟨S, (65 : BitVec 11), by decide +kernel⟩,
    ⟨S, op 72 (rq [0x00,0x10,32,0]), ⟨by decide +kernel, by decide +kernel, by decide +kernel⟩, by decide +kernel⟩,
    ⟨S, op 73 (rq [0x00,0x10,32,0]), ⟨by decide +kernel, by decide +kernel, by decide +kernel⟩, by decide +kernel⟩,
    ⟨S, (65 : BitVec 11), by decide +kernel⟩,
    ⟨S, op 72 (rq [0x00,0x20,32,0]), ⟨by decide +kernel, by decide +kernel, by decide +kernel⟩, by decide +kernel⟩,
    ⟨S, op 73 (rq [0x00,0x20,32,0]), ⟨by decide +kernel, by decide +kernel, by decide +kernel⟩, by decide +kernel⟩,
    ⟨S, (65 : BitVec 11), by decide +kernel⟩,
    ⟨S, op 72 (rq [0xFF,0x0F,32,0]), ⟨by decide +kernel, by decide +kernel, by decide +kernel⟩, by decide +kernel⟩,
    ⟨S, op 73 (rq [0xFF,0x0F,32,0]), ⟨by decide +kernel, by decide +kernel, by decide +kernel⟩, by decide +kernel⟩,
    ⟨S, (65 : BitVec 11), by decide +kernel⟩,
    ⟨S, op 72 (rq [0xFF,0x0F,0,0]), ⟨by decide +kernel, by decide +kernel, by decide +kernel⟩, by decide +kernel⟩,
    ⟨S, op 73 (rq [0xFF,0x0F,0,0]), ⟨by decide +kernel, by decide +kernel, by decide +kernel⟩, by decide +kernel⟩,
    ⟨blank (src_2 65 s3 act), (65 : BitVec 11), by decide +kernel⟩,
    ⟨blank { act with flt.frozen := true, flt.cause := 3 }, op 73 (rq [0,0,0,0] 0x10), ⟨by decide +kernel,
    by decide +kernel, by decide +kernel⟩, by decide +kernel⟩,
    ⟨S, op 64 (inj 65 3 5 0), ⟨by decide +kernel, by decide +kernel, by decide +kernel⟩,
    by unfold Armed; decide +kernel, by decide +kernel⟩,
    ⟨blank { act with flt.frozen := true }, op 73 (rq [1,0,0,0]), ⟨by decide +kernel, by decide +kernel,
    by decide +kernel⟩, by decide +kernel⟩,
    ⟨S, op 64 (inj 34 0 5 0x10), (35 : Nat), ⟨by decide +kernel, by decide +kernel, by decide +kernel⟩,
    by unfold Armed; decide +kernel, by decide +kernel⟩⟩

theorem witness_ContextCommands :
    (∃ (s : State) (r : Request), Admitted s 90 true r ∧ r.length = 4 ∧ ((began s r).ctx (rqField r 0 2)).hurt =
    WordMark.sound) ∧
    (∃ (s : State) (r : Request), Admitted s 91 false r ∧ r.length = 4 ∧ ((began s r).ctx (rqField r 0 2)).hurt =
    WordMark.sound ∧ (began s r).cancelHolds (rqField r 0 2) = false ∧ rqField r 0 2 < 256) ∧
    (∃ (s : State) (r : Request), Admitted s 104 false r ∧ ¬Armed s r ∧ r.length = 4) ∧
    (∃ (s : State) (r : Request), Admitted s 88 false r ∧ HasRoom s 88 r ∧ r.length = 4 ∧ rqField r 0 2 < 256) ∧
    (∃ (s : State) (r : Request), Admitted s 89 false r ∧ HasRoom s 89 r ∧ r.length = 4 ∧ (rqField r 0 2 < 256 ∨
    ((began s r).ctx (rqField r 0 2)).state ≠ CtxState.parked)) ∧
    (∃ (s : State) (r : Request), Admitted s 90 true r ∧ r.length = 4 ∧ ((began s r).ctx (rqField r 0 2)).hurt =
    WordMark.sound) ∧
    (∃ (s : State) (r : Request), Admitted s 91 false r ∧ r.length = 4 ∧ ((began s r).ctx (rqField r 0 2)).hurt =
    WordMark.sound ∧ (began s r).cancelHolds (rqField r 0 2) = false ∧ 256 ≤ rqField r 0 2 ∧ (((began s r).ctx
    (rqField r 0 2)).state = CtxState.live ∨ ((began s r).ctx (rqField r 0 2)).state = CtxState.damaged) ∧ ((began s
    r).ctx (rqField r 0 2)).recordLost = false ∧ (began s r).ord.flows = [] ∧ (began s r).led.parking = none) ∧
    (∃ (s : State) (r : Request), Admitted s 104 false r ∧ ¬Armed s r ∧ r.length = 4) ∧
    (∃ (s : State) (r : Request), Admitted s 88 false r ∧ HasRoom s 88 r ∧ r.length = 4 ∧ 256 ≤ rqField r 0 2 ∧
    ((began s r).ctx (rqField r 0 2)).state = CtxState.live ∧ (began s r).parkFits (rqField r 0 2) = true ∧ (began s
    r).led.parking = none) ∧
    (∃ (s : State) (r : Request), Admitted s 89 false r ∧ HasRoom s 89 r ∧ r.length = 4 ∧ (rqField r 0 2 < 256 ∨
    ((began s r).ctx (rqField r 0 2)).state ≠ CtxState.parked)) ∧
    (∃ (s : State) (r : Request), Admitted s 90 true r ∧ r.length = 4 ∧ ((began s r).ctx (rqField r 0 2)).hurt =
    WordMark.sound) ∧
    (∃ (s : State) (r : Request), Admitted s 91 false r ∧ r.length = 4 ∧ ((began s r).ctx (rqField r 0 2)).hurt =
    WordMark.sound ∧ (began s r).cancelHolds (rqField r 0 2) = false ∧ 256 ≤ rqField r 0 2 ∧ ((began s r).ctx
    (rqField r 0 2)).state = CtxState.closed) ∧
    (∃ (s : State) (r : Request), Admitted s 104 false r ∧ ¬Armed s r ∧ r.length = 4) ∧
    (∃ (s : State) (r : Request), Admitted s 88 false r ∧ HasRoom s 88 r ∧ r.length = 4 ∧ 256 ≤ rqField r 0 2 ∧
    (((began s r).ctx (rqField r 0 2)).state ≠ CtxState.live ∨ (began s r).parkFits (rqField r 0 2) = false)) ∧
    (∃ (s : State) (r : Request), Admitted s 89 false r ∧ HasRoom s 89 r ∧ r.length = 4 ∧ (rqField r 0 2 < 256 ∨
    ((began s r).ctx (rqField r 0 2)).state ≠ CtxState.parked)) ∧
    (∃ (s : State) (r : Request), Admitted s 90 true r ∧ r.length = 4 ∧ ((began s r).ctx (rqField r 0 2)).hurt =
    WordMark.sound) ∧
    (∃ (s : State) (r : Request), Admitted s 104 false r ∧ ¬Armed s r ∧ r.length = 4) ∧
    (∃ (s : State) (r : Request), Admitted s 88 false r ∧ HasRoom s 88 r ∧ r.length = 4 ∧ 256 ≤ rqField r 0 2 ∧
    (((began s r).ctx (rqField r 0 2)).state ≠ CtxState.live ∨ (began s r).parkFits (rqField r 0 2) = false)) ∧
    (∃ (s : State) (r : Request), Admitted s 89 false r ∧ HasRoom s 89 r ∧ r.length = 4 ∧ 256 ≤ rqField r 0 2 ∧
    ((began s r).ctx (rqField r 0 2)).state = CtxState.parked ∧ (began s r).net.throttling = false ∧ (began s
    r).led.parking = none ∧ (((began s r).image (rqField r 0 2)).stored = false ∨ (began s r).anyCarrier = true)) ∧
    (∃ (s : State) (r : Request), Admitted s 90 true r ∧ r.length = 4 ∧ ((began s r).ctx (rqField r 0 2)).hurt =
    WordMark.sound) ∧
    (∃ (s : State) (r : Request), Admitted s 91 false r ∧ r.length = 4 ∧ ((began s r).ctx (rqField r 0 2)).hurt =
    WordMark.sound ∧ (began s r).cancelHolds (rqField r 0 2) = false ∧ 256 ≤ rqField r 0 2 ∧ (((began s r).ctx
    (rqField r 0 2)).state = CtxState.live ∨ ((began s r).ctx (rqField r 0 2)).state = CtxState.damaged) ∧ ((began s
    r).ctx (rqField r 0 2)).recordLost = false ∧ (began s r).ord.flows = [] ∧ (began s r).led.parking = none) ∧
    (∃ (s : State) (r : Request), Admitted s 104 false r ∧ ¬Armed s r ∧ r.length = 4) ∧
    (∃ (s : State) (r : Request), Admitted s 88 false r ∧ HasRoom s 88 r ∧ r.length = 4 ∧ 256 ≤ rqField r 0 2 ∧
    ((began s r).ctx (rqField r 0 2)).state = CtxState.live ∧ (began s r).parkFits (rqField r 0 2) = true ∧ (began s
    r).led.parking = none) ∧
    (∃ (s : State) (r : Request), Admitted s 89 false r ∧ HasRoom s 89 r ∧ r.length = 4 ∧ (rqField r 0 2 < 256 ∨
    ((began s r).ctx (rqField r 0 2)).state ≠ CtxState.parked)) ∧
    (∃ (s : State) (r : Request), Admitted s 96 false r ∧ r.length = 20 ∧ ((began s r).ctx (rqField r 0 2)).state ≠
    CtxState.free ∧ ((began s r).ctx (rqField r 0 2)).state ≠ CtxState.closed ∧ rqField r 4 4 < s.mem.nodeCount
    ((began s r).slotOf (rqField r 0 2)) ∧ rqField r 2 1 < 3 ∧ rqField r 8 2 < 4096 ∧ ((began s r).ctx (rqField r 0
    2)).flow = none) ∧
    (∃ (s : State) (r : Request), Admitted s 96 false r ∧ r.length = 20 ∧ (((began s r).ctx (rqField r 0 2)).state =
    CtxState.free ∨ ((began s r).ctx (rqField r 0 2)).state = CtxState.closed ∨ s.mem.nodeCount ((began s r).slotOf
    (rqField r 0 2)) ≤ rqField r 4 4 ∨ 3 ≤ rqField r 2 1)) ∧
    (∃ (s : State) (r : Request), Admitted s 90 true r ∧ r.length = 4 ∧ ((began s r).ctx (rqField r 0 2)).hurt =
    WordMark.sound) ∧
    (∃ (s : State) (r : Request), Admitted s 91 false r ∧ r.length = 4 ∧ ((began s r).ctx (rqField r 0 2)).hurt =
    WordMark.sound ∧ (began s r).cancelHolds (rqField r 0 2) = false ∧ 256 ≤ rqField r 0 2 ∧ ((began s r).ctx
    (rqField r 0 2)).state = CtxState.free) ∧
    (∃ (s : State) (r : Request), Admitted s 104 false r ∧ Armed s r ∧ r.length = 4 ∧ rqField r 0 2 ≤ 1023 ∧ ((began
    s r).disarm Port.command).semAllowed 2 (rqField r 0 2) = true ∧ (((began s r).disarm Port.command).sem (rqField r
    0 2)).held = true ∧ (((began s r).disarm Port.command).sem (rqField r 0 2)).generation.toNat = rqField r 2 2) ∧
    (∃ (s : State) (r : Request), Admitted s 88 false r ∧ HasRoom s 88 r ∧ r.length = 4 ∧ 256 ≤ rqField r 0 2 ∧
    (((began s r).ctx (rqField r 0 2)).state ≠ CtxState.live ∨ (began s r).parkFits (rqField r 0 2) = false)) ∧
    (∃ (s : State) (r : Request), Admitted s 89 false r ∧ HasRoom s 89 r ∧ r.length = 4 ∧ (rqField r 0 2 < 256 ∨
    ((began s r).ctx (rqField r 0 2)).state ≠ CtxState.parked)) ∧
    (∃ (s : State) (r : Request), Admitted s 90 true r ∧ r.length = 4 ∧ ((began s r).ctx (rqField r 0 2)).hurt =
    WordMark.sound) ∧
    (∃ (s : State) (r : Request), Admitted s 91 false r ∧ r.length = 4 ∧ ((began s r).ctx (rqField r 0 2)).hurt =
    WordMark.sound ∧ (began s r).cancelHolds (rqField r 0 2) = false ∧ rqField r 0 2 < 256) ∧
    (∃ (s : State) (r : Request), Admitted s 104 false r ∧ Armed s r ∧ r.length = 4 ∧ rqField r 0 2 ≤ 1023 ∧ ((began
    s r).disarm Port.command).semAllowed 2 (rqField r 0 2) = true ∧ (((began s r).disarm Port.command).sem (rqField r
    0 2)).held = true ∧ (((began s r).disarm Port.command).sem (rqField r 0 2)).generation.toNat = rqField r 2 2) ∧
    (∃ (s : State) (r : Request), Admitted s 88 false r ∧ HasRoom s 88 r ∧ r.length = 4 ∧ rqField r 0 2 < 256) ∧
    (∃ (s : State) (r : Request), Admitted s 89 false r ∧ HasRoom s 89 r ∧ r.length = 4 ∧ (rqField r 0 2 < 256 ∨
    ((began s r).ctx (rqField r 0 2)).state ≠ CtxState.parked)) ∧
    (∃ (s : State) (r : Request), Admitted s 90 true r ∧ r.length = 4 ∧ ((began s r).ctx (rqField r 0 2)).hurt =
    WordMark.sound) ∧
    (∃ (s : State) (r : Request), Admitted s 91 false r ∧ r.length = 4 ∧ ((began s r).ctx (rqField r 0 2)).hurt =
    WordMark.sound ∧ (began s r).cancelHolds (rqField r 0 2) = false ∧ rqField r 0 2 < 256) ∧
    (∃ (s : State) (r : Request), Admitted s 104 false r ∧ Armed s r ∧ r.length = 4 ∧ rqField r 0 2 ≤ 1023 ∧ ((began
    s r).disarm Port.command).semAllowed 2 (rqField r 0 2) = true ∧ ((((began s r).disarm Port.command).sem (rqField
    r 0 2)).held = false ∨ (((began s r).disarm Port.command).sem (rqField r 0 2)).generation.toNat ≠ rqField r 2 2)) ∧
    (∃ (s : State) (r : Request), Admitted s 88 false r ∧ HasRoom s 88 r ∧ r.length = 4 ∧ rqField r 0 2 < 256) ∧
    (∃ (s : State) (r : Request), Admitted s 89 false r ∧ HasRoom s 89 r ∧ r.length = 4 ∧ (rqField r 0 2 < 256 ∨
    ((began s r).ctx (rqField r 0 2)).state ≠ CtxState.parked)) ∧
    (∃ (s : State) (r : Request), Admitted s 90 true r ∧ r.length = 4 ∧ ((began s r).ctx (rqField r 0 2)).hurt =
    WordMark.uncorrectable ∧ ((began s r).ctx (rqField r 0 2)).recordLost = false ∧ ((began s r).ctx (rqField r 0
    2)).state ≠ CtxState.free) ∧
    (∃ (s : State) (r : Request), Admitted s 88 false r ∧ HasRoom s 88 r ∧ r.length = 4 ∧ 256 ≤ rqField r 0 2 ∧
    ((began s r).ctx (rqField r 0 2)).state = CtxState.live ∧ (began s r).parkFits (rqField r 0 2) = true ∧ (began s
    r).led.parking ≠ none) ∧
    (∃ (s : State) (r : Request), Admitted s 89 false r ∧ HasRoom s 89 r ∧ r.length = 4 ∧ 256 ≤ rqField r 0 2 ∧
    ((began s r).ctx (rqField r 0 2)).state = CtxState.parked ∧ ((began s r).net.throttling = true ∨ (began s
    r).led.parking ≠ none)) ∧
    (∃ (s : State) (r : Request), Admitted s 104 false r ∧ Armed s r ∧ r.length = 4 ∧ rqField r 0 2 ≤ 1023 ∧ ((began
    s r).disarm Port.command).semAllowed 2 (rqField r 0 2) = false) ∧
    (∃ (s : State) (r : Request), Admitted s 104 false r ∧ Armed s r ∧ r.length = 4 ∧ 1023 < rqField r 0 2) ∧
    (∃ (s : State) (r : Request), Admitted s 91 false r ∧ r.length = 4 ∧ (began s r).cancelHolds (rqField r 0 2) =
    true) ∧
    (∃ (s : State) (r : Request), Admitted s 89 false r ∧ HasRoom s 89 r ∧ r.length = 4 ∧ 256 ≤ rqField r 0 2 ∧
    ((began s r).ctx (rqField r 0 2)).state = CtxState.parked ∧ (began s r).net.throttling = false ∧ (began s
    r).led.parking = none ∧ ((began s r).image (rqField r 0 2)).stored = true ∧ (began s r).anyCarrier = false) :=
  ⟨⟨S, op 90 (rc 255), ⟨by decide +kernel, by decide +kernel, by decide +kernel⟩, by decide +kernel⟩,
    ⟨S, op 91 (rc 255), ⟨by decide +kernel, by decide +kernel, by decide +kernel⟩, by decide +kernel⟩,
    ⟨S, op 104 (rc 255), ⟨by decide +kernel, by decide +kernel, by decide +kernel⟩, by unfold Armed; decide +kernel,
    by decide +kernel⟩,
    ⟨S, op 88 (rc 255), ⟨by decide +kernel, by decide +kernel, by decide +kernel⟩, by unfold HasRoom; decide +kernel,
    by decide +kernel⟩,
    ⟨S, op 89 (rc 255), ⟨by decide +kernel, by decide +kernel, by decide +kernel⟩, by unfold HasRoom; decide +kernel,
    by decide +kernel⟩,
    ⟨blank (cx_4 65535 .live none 3), op 90 (rc 65535), ⟨by decide +kernel, by decide +kernel, by decide +kernel⟩,
    by decide +kernel⟩,
    ⟨blank (cx_4 65535 .live none 3), op 91 (rc 65535), ⟨by decide +kernel, by decide +kernel, by decide +kernel⟩,
    by decide +kernel⟩,
    ⟨blank (cx_4 65535 .live none 3), op 104 (rc 65535), ⟨by decide +kernel, by decide +kernel, by decide +kernel⟩,
    by unfold Armed; decide +kernel, by decide +kernel⟩,
    ⟨blank (cx_4 65535 .live none 3), op 88 (rc 65535), ⟨by decide +kernel, by decide +kernel, by decide +kernel⟩,
    by unfold HasRoom; decide +kernel, by decide +kernel⟩,
    ⟨blank (cx_4 65535 .live none 3), op 89 (rc 65535), ⟨by decide +kernel, by decide +kernel, by decide +kernel⟩,
    by unfold HasRoom; decide +kernel, by decide +kernel⟩,
    ⟨blank (cx_4 65535 .closed none 3), op 90 (rc 65535), ⟨by decide +kernel, by decide +kernel, by decide +kernel⟩,
    by decide +kernel⟩,
    ⟨blank (cx_4 65535 .closed none 3), op 91 (rc 65535), ⟨by decide +kernel, by decide +kernel, by decide +kernel⟩,
    by decide +kernel⟩,
    ⟨blank (cx_4 65535 .closed none 3), op 104 (rc 65535), ⟨by decide +kernel, by decide +kernel, by decide +kernel⟩,
    by unfold Armed; decide +kernel, by decide +kernel⟩,
    ⟨blank (cx_4 65535 .closed none 3), op 88 (rc 65535), ⟨by decide +kernel, by decide +kernel, by decide +kernel⟩,
    by unfold HasRoom; decide +kernel, by decide +kernel⟩,
    ⟨blank (cx_4 65535 .closed none 3), op 89 (rc 65535), ⟨by decide +kernel, by decide +kernel, by decide +kernel⟩,
    by unfold HasRoom; decide +kernel, by decide +kernel⟩,
    ⟨blank (cx_4 65535 .parked none 3), op 90 (rc 65535), ⟨by decide +kernel, by decide +kernel, by decide +kernel⟩,
    by decide +kernel⟩,
    ⟨blank (cx_4 65535 .parked none 3), op 104 (rc 65535), ⟨by decide +kernel, by decide +kernel, by decide +kernel⟩,
    by unfold Armed; decide +kernel, by decide +kernel⟩,
    ⟨blank (cx_4 65535 .parked none 3), op 88 (rc 65535), ⟨by decide +kernel, by decide +kernel, by decide +kernel⟩,
    by unfold HasRoom; decide +kernel, by decide +kernel⟩,
    ⟨blank (cx_4 65535 .parked none 3), op 89 (rc 65535), ⟨by decide +kernel, by decide +kernel, by decide +kernel⟩,
    by unfold HasRoom; decide +kernel, by decide +kernel⟩,
    ⟨blank { cx_4 65535 .live (some 0x80) 3 with led.free := .full 256 256 }, op 90 (rc 65535), ⟨by decide +kernel,
    by decide +kernel, by decide +kernel⟩, by decide +kernel⟩,
    ⟨blank { cx_4 65535 .live (some 0x80) 3 with led.free := .full 256 256 }, op 91 (rc 65535), ⟨by decide +kernel,
    by decide +kernel, by decide +kernel⟩, by decide +kernel⟩,
    ⟨blank { cx_4 65535 .live (some 0x80) 3 with led.free := .full 256 256 }, op 104 (rc 65535), ⟨by decide +kernel,
    by decide +kernel, by decide +kernel⟩, by unfold Armed; decide +kernel, by decide +kernel⟩,
    ⟨blank { cx_4 65535 .live (some 0x80) 3 with led.free := .full 256 256 }, op 88 (rc 65535), ⟨by decide +kernel,
    by decide +kernel, by decide +kernel⟩, by unfold HasRoom; decide +kernel, by decide +kernel⟩,
    ⟨blank { cx_4 65535 .live (some 0x80) 3 with led.free := .full 256 256 }, op 89 (rc 65535), ⟨by decide +kernel,
    by decide +kernel, by decide +kernel⟩, by unfold HasRoom; decide +kernel, by decide +kernel⟩,
    ⟨withCode (cx_4 0x100 .live none 0), op 96 (post 2 7 4095), ⟨by decide +kernel, by decide +kernel,
    by decide +kernel⟩, by decide +kernel⟩,
    ⟨withCode (cx_4 0x100 .live none 0), op 96 (post 2 8 4095), ⟨by decide +kernel, by decide +kernel,
    by decide +kernel⟩, by decide +kernel⟩,
    ⟨blank (sm_4 1023 7 true), op 90 (rq [0xFF,3,4,0] 0x10), ⟨by decide +kernel, by decide +kernel,
    by decide +kernel⟩, by decide +kernel⟩,
    ⟨blank (sm_4 1023 7 true), op 91 (rq [0xFF,3,4,0] 0x10), ⟨by decide +kernel, by decide +kernel,
    by decide +kernel⟩, by decide +kernel⟩,
    ⟨blank (sm_4 1023 7 true), op 104 (rq [0xFF,3,4,0] 0x10), ⟨by decide +kernel, by decide +kernel,
    by decide +kernel⟩, by unfold Armed; decide +kernel, by decide +kernel⟩,
    ⟨blank (sm_4 1023 7 true), op 88 (rq [0xFF,3,4,0] 0x10), ⟨by decide +kernel, by decide +kernel,
    by decide +kernel⟩, by unfold HasRoom; decide +kernel, by decide +kernel⟩,
    ⟨blank (sm_4 1023 7 true), op 89 (rq [0xFF,3,4,0] 0x10), ⟨by decide +kernel, by decide +kernel,
    by decide +kernel⟩, by unfold HasRoom; decide +kernel, by decide +kernel⟩,
    ⟨blank (sm_4 0 7 true), op 90 (rq [0,0,4,0] 0x10), ⟨by decide +kernel, by decide +kernel, by decide +kernel⟩,
    by decide +kernel⟩,
    ⟨blank (sm_4 0 7 true), op 91 (rq [0,0,4,0] 0x10), ⟨by decide +kernel, by decide +kernel, by decide +kernel⟩,
    by decide +kernel⟩,
    ⟨blank (sm_4 0 7 true), op 104 (rq [0,0,4,0] 0x10), ⟨by decide +kernel, by decide +kernel, by decide +kernel⟩,
    by unfold Armed; decide +kernel, by decide +kernel⟩,
    ⟨blank (sm_4 0 7 true), op 88 (rq [0,0,4,0] 0x10), ⟨by decide +kernel, by decide +kernel, by decide +kernel⟩,
    by unfold HasRoom; decide +kernel, by decide +kernel⟩,
    ⟨blank (sm_4 0 7 true), op 89 (rq [0,0,4,0] 0x10), ⟨by decide +kernel, by decide +kernel, by decide +kernel⟩,
    by unfold HasRoom; decide +kernel, by decide +kernel⟩,
    ⟨blank (sm_4 0 7 false), op 90 (rq [0,0,4,0] 0x10), ⟨by decide +kernel, by decide +kernel, by decide +kernel⟩,
    by decide +kernel⟩,
    ⟨blank (sm_4 0 7 false), op 91 (rq [0,0,4,0] 0x10), ⟨by decide +kernel, by decide +kernel, by decide +kernel⟩,
    by decide +kernel⟩,
    ⟨blank (sm_4 0 7 false), op 104 (rq [0,0,4,0] 0x10), ⟨by decide +kernel, by decide +kernel, by decide +kernel⟩,
    by unfold Armed; decide +kernel, by decide +kernel⟩,
    ⟨blank (sm_4 0 7 false), op 88 (rq [0,0,4,0] 0x10), ⟨by decide +kernel, by decide +kernel, by decide +kernel⟩,
    by unfold HasRoom; decide +kernel, by decide +kernel⟩,
    ⟨blank (sm_4 0 7 false), op 89 (rq [0,0,4,0] 0x10), ⟨by decide +kernel, by decide +kernel, by decide +kernel⟩,
    by unfold HasRoom; decide +kernel, by decide +kernel⟩,
    ⟨blank hurtc, op 90 (rq [0,1,0,0]), ⟨by decide +kernel, by decide +kernel, by decide +kernel⟩, by decide +kernel⟩,
    ⟨blank
    { cx .live none 0 with led.parking := some { context := 0x101, cause := .monitor, unparking := false, paused := false, waiting := [] } },
    op 88 (rq [0,1,0,0]), ⟨by decide +kernel, by decide +kernel, by decide +kernel⟩,
    by unfold HasRoom; decide +kernel, by decide +kernel⟩,
    ⟨blank
    { cx .parked none 0 with led.parking := some { context := 0x101, cause := .monitor, unparking := false, paused := false, waiting := [] } },
    op 89 (rq [0,1,0,0]), ⟨by decide +kernel, by decide +kernel, by decide +kernel⟩,
    by unfold HasRoom; decide +kernel, by decide +kernel⟩,
    ⟨blank (sm_3 act 3 true), op 104 (rq [5,0,4,0] 0x10), ⟨by decide +kernel, by decide +kernel, by decide +kernel⟩,
    by unfold Armed; decide +kernel, by decide +kernel⟩,
    ⟨blank (sm_3 act 3 true), op 104 (rq [0,4,4,0] 0x10), ⟨by decide +kernel, by decide +kernel, by decide +kernel⟩,
    by unfold Armed; decide +kernel, by decide +kernel⟩,
    ⟨blank (fullTrail (im false (au1 (tk_2 1 0)) (cx_3 .parked 1))), op 91 (rq [0,1,0,0]), ⟨by decide +kernel,
    by decide +kernel, by decide +kernel⟩, by decide +kernel⟩,
    ⟨blank (im true (tk_2 1 0) (cx_3 .parked 1)), op 89 (rq [0,1,0,0]), ⟨by decide +kernel, by decide +kernel,
    by decide +kernel⟩, by unfold HasRoom; decide +kernel, by decide +kernel⟩⟩

theorem witness_ParkingEvents :
    (∃ (s : State) (c : BitVec 16) (p : Parking), (s.blade.led.parking ≠ none ∨ s.blade.net.stallFrames <
    BitVec.toNat (s.blade.reg 33816584) % 16 ∨ s.blade.net.stallFrames = 0) ∧ (s.blade.flag 33816576 1 = false ∨
    BitVec.toNat (s.blade.reg 33816584) / 256 % 256 ≤ s.blade.net.stallTokens ∨ (List.filter s.blade.stalled
    s.blade.net.stallWaiting).head? ≠ some c.toNat) ∧ s.blade.led.parking ≠ none ∧ s.blade.led.parking = some p ∧
    p.unparking = false ∧ s.blade.outside p.context.toNat = 0 ∧ (s.blade.ctx p.context.toNat).state = CtxState.live ∧
    s.blade.stagingFull = false) ∧
    (∃ (s : State) (r : BitVec 16 × ParkCause), s.blade.led.parking = none ∧ BitVec.toNat (s.blade.reg 33816584) % 16
    ≤ s.blade.net.stallFrames ∧ s.blade.net.stallFrames ≠ 0 ∧ s.blade.flag 33816576 0 = true ∧ s.blade.parkChoice =
    none ∧ (List.find? (fun r => s.blade.parkDue r.1.toNat) s.blade.led.parkRequests = none)) ∧
    (∃ (s : State) (p : Parking), s.blade.led.parking = some p ∧ p.unparking = true ∧ s.blade.trailFull = false ∧
    (s.blade.ctx p.context.toNat).state = CtxState.parked ∧ (s.blade.image p.context.toNat).stored = false) ∧
    (∃ (s : State) (k : ℕ), s.blade.led.parking = none ∧ BitVec.toNat (s.blade.reg 33816584) % 16 ≤
    s.blade.net.stallFrames ∧ s.blade.net.stallFrames ≠ 0 ∧ s.blade.flag 33816576 0 = true ∧ s.blade.parkChoice =
    some k ∧ s.blade.parkFits k = false) ∧
    (∃ (s : State) (c : BitVec 16), s.blade.flag 33816576 1 = true ∧ s.blade.net.stallTokens < BitVec.toNat
    (s.blade.reg 33816584) / 256 % 256 ∧ (List.filter s.blade.stalled s.blade.net.stallWaiting).head? = some c.toNat) ∧
    (∃ (s : State) (p : Parking), s.blade.led.parking = some p ∧ p.unparking = false ∧ s.blade.outside
    p.context.toNat = 0 ∧ (s.blade.ctx p.context.toNat).state ≠ CtxState.live) ∧
    (∃ (s : State) (r : BitVec 16 × ParkCause), s.blade.led.parking = none ∧ (List.find? (fun r => s.blade.parkDue
    r.1.toNat) s.blade.led.parkRequests = some r) ∧ (s.blade.ctx r.1.toNat).state ≠ CtxState.live) ∧
    (∃ (s : State) (p : Parking), s.blade.led.parking = some p ∧ p.unparking = true ∧ s.blade.trailFull = false ∧
    (s.blade.ctx p.context.toNat).state ≠ CtxState.parked) ∧
    (∃ (s : State) (p : Parking), s.blade.led.parking = some p ∧ p.unparking = true ∧ s.blade.trailFull = false ∧
    (s.blade.ctx p.context.toNat).state = CtxState.parked ∧ (s.blade.image p.context.toNat).stored = true ∧
    s.blade.anyCarrier = false ∧ s.blade.stagingShort p.waiting.length = false) ∧
    (∃ (s : State) (k : ℕ), s.blade.led.parking = none ∧ BitVec.toNat (s.blade.reg 33816584) % 16 ≤
    s.blade.net.stallFrames ∧ s.blade.net.stallFrames ≠ 0 ∧ s.blade.flag 33816576 0 = true ∧ s.blade.parkChoice =
    some k ∧ s.blade.parkFits k = true) ∧
    (∃ (s : State), s.blade.led.parking = none ∧ BitVec.toNat (s.blade.reg 33816584) % 16 ≤ s.blade.net.stallFrames ∧
    s.blade.net.stallFrames ≠ 0 ∧ s.blade.flag 33816576 0 = false) ∧
    (∃ (s : State) (r : BitVec 16 × ParkCause), s.blade.led.parking = none ∧ (List.find? (fun r => s.blade.parkDue
    r.1.toNat) s.blade.led.parkRequests = some r) ∧ (s.blade.ctx r.1.toNat).state = CtxState.live ∧ s.blade.parkFits
    r.1.toNat = true) ∧
    (∃ (s : State) (p : Parking), s.blade.led.parking = some p ∧ p.unparking = false ∧ s.blade.outside
    p.context.toNat ≠ 0) ∧
    (∃ (s : State) (p : Parking), s.blade.led.parking = some p ∧ p.unparking = true ∧ s.blade.resendHolds s.mem
    p.context.toNat = true) :=
  ⟨⟨blank (pk (cx_2 .live 3) false), C, P false, by decide +kernel⟩,
    ⟨blank (sf (cx_2 .live 0) 4), rq0, by decide +kernel⟩,
    ⟨blank (pk (cx_2 .parked 0) true), P true, by decide +kernel⟩,
    ⟨blank { cx_3 .live 0xFFFFFFFF with net.stallFrames := 4 }, (0x100 : Nat), by decide +kernel⟩,
    ⟨blank stl_2, C, by decide +kernel⟩,
    ⟨blank (pk act false), P false, by decide +kernel⟩,
    ⟨blank (req (cx_2 .closed 3)), rq0, by decide +kernel⟩,
    ⟨blank (pk (cx_2 .closed 0) true), P true, by decide +kernel⟩,
    ⟨blank (im true (tk_2 1 0) (pk_2 (cx_3 .parked 1) true)), P_2 true, by decide +kernel⟩,
    ⟨blank (sf ((cx_2 .live 3)) 4), K, by decide +kernel⟩,
    ⟨blank (sf ((cx_2 .live 3).setReg 0x02040000 2) 4), by decide +kernel⟩,
    ⟨blank (req (cx_2 .live 3)), rq0, by decide +kernel⟩,
    ⟨blank { pk (cx_2 .live 3) false with net.release := [.emission tk] }, P false, by decide +kernel⟩,
    ⟨blank (fullTrail (im false (au1 (tk_2 1 0)) (pk_2 (cx_3 .parked 1) true))), P_2 true, by decide +kernel⟩⟩

end Sys2Proof.Tests
end

