-- ==== Sys2Proof/Tests/Witness4.lean ====
section
/-! SUPPORT. For every statement a concrete state and operands that meet its hypotheses together, clause by clause: part 4. -/

open Sys2Proof Sys2Proof.Machine Sys2Proof.Safety

-- One proof at a time: every proof is an evaluation in the kernel.
set_option Elab.async false

namespace Sys2Proof.Tests

theorem witness_MatchingEvents :
    (∃ (s : State) (t : TileId) (tok : Token) (e : MatchEntry) (ws : List MatchEntry), Arrives s.blade tok ∧
    TileUnharmed s.blade ↑t ∧ (mget [] (↑t) s.blade.net.home = [] ∨ s.blade.readyFull ↑t = true ∨ 16 ≤ (s.blade.tile
    ↑t).waiting.length) ∧ s.blade.tileBlocked ↑t = true ∧ (s.blade.tile ↑t).waiting = [tok] ∧ (s.blade.mset (↑t)
    tok.set).lock = none ∧ s.blade.readyFull ↑t = false ∧ (((s.blade.mset (↑t) tok.set).ways.all fun x => decide
    (x.damage = 0)) = true) ∧ ((s.blade.mset (↑t) tok.set).live = 0 ∨ (s.blade.mset (↑t) tok.set).filter.getLsbD
    (filterBit tok.context.toNat tok.iteration.toNat tok.node.toNat) = false) ∧ joinIndex (s.blade.mset (↑t)
    tok.set).ways tok = none ∧ s.blade.net.migration = none ∧ (s.blade.mset (↑t) tok.set).ways = e :: ws ∧ ws.length
    = 7 ∧ s.blade.cancelling e.context.toNat = false ∧ s.blade.noBlock (s.blade.mset (↑t) tok.set) = false ∧
    e.presence ≠ 0 ∧ (s.blade.tile ↑t).spillOps < 8 ∧ s.blade.armed (srcWide 2 3) 1 = false) ∧
    (∃ (s : State) (t : TileId) (tok : Token) (rest : List Token) (e : MatchEntry) (ws : List MatchEntry), Arrives
    s.blade tok ∧ DescriptorSound s tok ∧ TileUnharmed s.blade ↑t ∧ mget [] (↑t) s.blade.net.home = tok :: rest ∧
    s.blade.readyFull ↑t = false ∧ (s.blade.tile ↑t).waiting = [] ∧ s.blade.trailFull = false ∧ s.blade.net.migration
    = none ∧ tok.port.toNat < (s.mem.desc (s.blade.slotOf tok.context.toNat) tok.node.toNat).arity ∧ (s.mem.desc
    (s.blade.slotOf tok.context.toNat) tok.node.toNat).arity ≠ 1 ∧ tok.ordered = false ∧ (s.blade.mset (↑t)
    tok.set).lock = none ∧ (((s.blade.mset (↑t) tok.set).ways.all fun x => decide (x.damage = 0)) = true) ∧
    ((s.blade.mset (↑t) tok.set).live = 0 ∨ (s.blade.mset (↑t) tok.set).filter.getLsbD (filterBit tok.context.toNat
    tok.iteration.toNat tok.node.toNat) = false) ∧ (joinIndex (s.blade.mset (↑t) tok.set).ways
    { context := tok.context, iteration := tok.iteration, port := tok.port, kind := 0, node := tok.node, cls := if tok.kind = 0 then tok.cls else 0, ordered := tok.ordered, poison := tok.poison, sequence := 0, flow := 0, value := tok.value, parityBad := tok.parityBad }
    = none) ∧ (s.blade.mset (↑t) tok.set).ways = e :: ws ∧ ws.length = 7 ∧ s.blade.cancelling e.context.toNat = false
    ∧ (s.blade.mset (↑t) tok.set).stack = [] ∧ e.presence ≠ 0 ∧ (s.blade.tile ↑t).spillOps < 8 ∧ s.blade.spillBlocks
    < 2097152 ∧ s.blade.armed (srcWide 2 3) 1 = false ∧ s.blade.tileBlocked ↑t = false) ∧
    (∃ (s : State) (t : TileId) (tok : Token) (rest : List Token) (e : MatchEntry) (ws : List MatchEntry), Arrives
    s.blade tok ∧ DescriptorSound s tok ∧ TileUnharmed s.blade ↑t ∧ mget [] (↑t) s.blade.net.home = tok :: rest ∧
    s.blade.readyFull ↑t = false ∧ (s.blade.tile ↑t).waiting = [] ∧ s.blade.trailFull = false ∧ s.blade.net.migration
    = none ∧ tok.port.toNat < (s.mem.desc (s.blade.slotOf tok.context.toNat) tok.node.toNat).arity ∧ (s.mem.desc
    (s.blade.slotOf tok.context.toNat) tok.node.toNat).arity ≠ 1 ∧ tok.ordered = false ∧ (s.blade.mset (↑t)
    tok.set).lock = none ∧ (((s.blade.mset (↑t) tok.set).ways.all fun x => decide (x.damage = 0)) = true) ∧
    ((s.blade.mset (↑t) tok.set).live = 0 ∨ (s.blade.mset (↑t) tok.set).filter.getLsbD (filterBit tok.context.toNat
    tok.iteration.toNat tok.node.toNat) = false) ∧ (joinIndex (s.blade.mset (↑t) tok.set).ways
    { context := tok.context, iteration := tok.iteration, port := tok.port, kind := 0, node := tok.node, cls := if tok.kind = 0 then tok.cls else 0, ordered := tok.ordered, poison := tok.poison, sequence := 0, flow := 0, value := tok.value, parityBad := tok.parityBad }
    = none) ∧ (s.blade.mset (↑t) tok.set).ways = e :: ws ∧ ws.length = 7 ∧ s.blade.cancelling e.context.toNat = true) ∧
    (∃ (s : State) (t : TileId) (tok : Token) (rest : List Token), Arrives s.blade tok ∧ DescriptorSound s tok ∧
    TileUnharmed s.blade ↑t ∧ mget [] (↑t) s.blade.net.home = tok :: rest ∧ s.blade.readyFull ↑t = false ∧
    (s.blade.tile ↑t).waiting = [] ∧ s.blade.trailFull = false ∧ s.blade.net.migration = none ∧ (s.mem.desc
    (s.blade.slotOf tok.context.toNat) tok.node.toNat).arity ≤ tok.port.toNat ∧ (s.blade.ctx
    tok.context.toNat).balance ≠ 0) ∧
    (∃ (s : State) (t : TileId) (tok : Token) (rest : List Token), Arrives s.blade tok ∧ DescriptorSound s tok ∧
    TileUnharmed s.blade ↑t ∧ mget [] (↑t) s.blade.net.home = tok :: rest ∧ s.blade.readyFull ↑t = false ∧
    (s.blade.tile ↑t).waiting = [] ∧ s.blade.trailFull = false ∧ s.blade.net.migration = none ∧ tok.port.toNat <
    (s.mem.desc (s.blade.slotOf tok.context.toNat) tok.node.toNat).arity ∧ (s.mem.desc (s.blade.slotOf
    tok.context.toNat) tok.node.toNat).arity = 1) ∧
    (∃ (s : State) (t : TileId) (tok : Token) (rest : List Token) (e : MatchEntry) (i : ℕ), Arrives s.blade tok ∧
    DescriptorSound s tok ∧ TileUnharmed s.blade ↑t ∧ mget [] (↑t) s.blade.net.home = tok :: rest ∧ s.blade.readyFull
    ↑t = false ∧ (s.blade.tile ↑t).waiting = [] ∧ s.blade.trailFull = false ∧ s.blade.net.migration = none ∧
    tok.port.toNat < (s.mem.desc (s.blade.slotOf tok.context.toNat) tok.node.toNat).arity ∧ (s.mem.desc
    (s.blade.slotOf tok.context.toNat) tok.node.toNat).arity ≠ 1 ∧ tok.ordered = false ∧ (s.blade.mset (↑t)
    tok.set).lock = none ∧ (((s.blade.mset (↑t) tok.set).ways.all fun x => decide (x.damage = 0)) = true) ∧
    ((s.blade.mset (↑t) tok.set).live = 0 ∨ (s.blade.mset (↑t) tok.set).filter.getLsbD (filterBit tok.context.toNat
    tok.iteration.toNat tok.node.toNat) = false) ∧ (joinIndex (s.blade.mset (↑t) tok.set).ways
    { context := tok.context, iteration := tok.iteration, port := tok.port, kind := 0, node := tok.node, cls := if tok.kind = 0 then tok.cls else 0, ordered := tok.ordered, poison := tok.poison, sequence := 0, flow := 0, value := tok.value, parityBad := tok.parityBad }
    = some i) ∧ (s.blade.mset (↑t) tok.set).ways[i]? = some e ∧ ((e.fill
    { context := tok.context, iteration := tok.iteration, port := tok.port, kind := 0, node := tok.node, cls := if tok.kind = 0 then tok.cls else 0, ordered := tok.ordered, poison := tok.poison, sequence := 0, flow := 0, value := tok.value, parityBad := tok.parityBad }).complete
    = true)) ∧
    (∃ (s : State) (t : TileId) (tok : Token) (rest : List Token), Arrives s.blade tok ∧ DescriptorSound s tok ∧
    TileUnharmed s.blade ↑t ∧ mget [] (↑t) s.blade.net.home = tok :: rest ∧ s.blade.readyFull ↑t = false ∧
    (s.blade.tile ↑t).waiting = [] ∧ s.blade.trailFull = false ∧ s.blade.net.migration = none ∧ tok.port.toNat <
    (s.mem.desc (s.blade.slotOf tok.context.toNat) tok.node.toNat).arity ∧ (s.mem.desc (s.blade.slotOf
    tok.context.toNat) tok.node.toNat).arity ≠ 1 ∧ tok.ordered = false ∧ (s.blade.mset (↑t) tok.set).lock ≠ none) ∧
    (∃ (s : State) (t : TileId) (tok : Token) (rest : List Token), Arrives s.blade tok ∧ DescriptorSound s tok ∧
    TileUnharmed s.blade ↑t ∧ mget [] (↑t) s.blade.net.home = tok :: rest ∧ s.blade.readyFull ↑t = false ∧
    (s.blade.tile ↑t).waiting = [] ∧ s.blade.trailFull = false ∧ s.blade.net.migration = none ∧ tok.port.toNat <
    (s.mem.desc (s.blade.slotOf tok.context.toNat) tok.node.toNat).arity ∧ (s.mem.desc (s.blade.slotOf
    tok.context.toNat) tok.node.toNat).arity ≠ 1 ∧ tok.ordered = false ∧ (s.blade.mset (↑t) tok.set).lock = none ∧
    (((s.blade.mset (↑t) tok.set).ways.all fun x => decide (x.damage = 0)) = true) ∧ 0 < (s.blade.mset (↑t)
    tok.set).live ∧ (s.blade.mset (↑t) tok.set).filter.getLsbD (filterBit tok.context.toNat tok.iteration.toNat
    tok.node.toNat) = true ∧ (s.blade.tile ↑t).spillOps < 8) ∧
    (∃ (s : State) (t : TileId) (tok : Token), Arrives s.blade tok ∧ TileUnharmed s.blade ↑t ∧ s.blade.tileBlocked ↑t
    = true ∧ (s.blade.tile ↑t).waiting = [tok] ∧ (s.blade.mset (↑t) tok.set).lock = none ∧ s.blade.readyFull ↑t =
    false ∧ (((s.blade.mset (↑t) tok.set).ways.all fun x => decide (x.damage = 0)) = true) ∧ ((s.blade.mset (↑t)
    tok.set).live = 0 ∨ (s.blade.mset (↑t) tok.set).filter.getLsbD (filterBit tok.context.toNat tok.iteration.toNat
    tok.node.toNat) = false) ∧ joinIndex (s.blade.mset (↑t) tok.set).ways tok = none ∧ s.blade.net.migration = none ∧
    (s.blade.mset (↑t) tok.set).ways.length < 8) ∧
    (∃ (s : State) (t : TileId) (tok : Token) (rest : List Token) (e : MatchEntry) (i : ℕ), Arrives s.blade tok ∧
    DescriptorSound s tok ∧ TileUnharmed s.blade ↑t ∧ mget [] (↑t) s.blade.net.home = tok :: rest ∧ s.blade.readyFull
    ↑t = false ∧ (s.blade.tile ↑t).waiting = [] ∧ s.blade.trailFull = false ∧ s.blade.net.migration = none ∧
    tok.port.toNat < (s.mem.desc (s.blade.slotOf tok.context.toNat) tok.node.toNat).arity ∧ (s.mem.desc
    (s.blade.slotOf tok.context.toNat) tok.node.toNat).arity ≠ 1 ∧ tok.ordered = false ∧ (s.blade.mset (↑t)
    tok.set).lock = none ∧ (((s.blade.mset (↑t) tok.set).ways.all fun x => decide (x.damage = 0)) = true) ∧
    ((s.blade.mset (↑t) tok.set).live = 0 ∨ (s.blade.mset (↑t) tok.set).filter.getLsbD (filterBit tok.context.toNat
    tok.iteration.toNat tok.node.toNat) = false) ∧ (joinIndex (s.blade.mset (↑t) tok.set).ways
    { context := tok.context, iteration := tok.iteration, port := tok.port, kind := 0, node := tok.node, cls := if tok.kind = 0 then tok.cls else 0, ordered := tok.ordered, poison := tok.poison, sequence := 0, flow := 0, value := tok.value, parityBad := tok.parityBad }
    = some i) ∧ (s.blade.mset (↑t) tok.set).ways[i]? = some e ∧ ((e.fill
    { context := tok.context, iteration := tok.iteration, port := tok.port, kind := 0, node := tok.node, cls := if tok.kind = 0 then tok.cls else 0, ordered := tok.ordered, poison := tok.poison, sequence := 0, flow := 0, value := tok.value, parityBad := tok.parityBad }).complete
    = false)) ∧
    (∃ (s : State) (t : TileId) (tok : Token) (rest : List Token), Arrives s.blade tok ∧ DescriptorSound s tok ∧
    TileUnharmed s.blade ↑t ∧ mget [] (↑t) s.blade.net.home = tok :: rest ∧ s.blade.readyFull ↑t = false ∧
    (s.blade.tile ↑t).waiting = [] ∧ s.blade.trailFull = false ∧ s.blade.net.migration = none ∧ tok.port.toNat <
    (s.mem.desc (s.blade.slotOf tok.context.toNat) tok.node.toNat).arity ∧ (s.mem.desc (s.blade.slotOf
    tok.context.toNat) tok.node.toNat).arity ≠ 1 ∧ tok.ordered = false ∧ (s.blade.mset (↑t) tok.set).lock = none ∧
    (((s.blade.mset (↑t) tok.set).ways.all fun x => decide (x.damage = 0)) = true) ∧ ((s.blade.mset (↑t)
    tok.set).live = 0 ∨ (s.blade.mset (↑t) tok.set).filter.getLsbD (filterBit tok.context.toNat tok.iteration.toNat
    tok.node.toNat) = false) ∧ (joinIndex (s.blade.mset (↑t) tok.set).ways
    { context := tok.context, iteration := tok.iteration, port := tok.port, kind := 0, node := tok.node, cls := if tok.kind = 0 then tok.cls else 0, ordered := tok.ordered, poison := tok.poison, sequence := 0, flow := 0, value := tok.value, parityBad := tok.parityBad }
    = none) ∧ (s.blade.mset (↑t) tok.set).ways.length < 8) ∧
    (∃ (s : State) (t : TileId) (tok : Token) (rest : List Token), mget [] (↑t) s.blade.net.home = tok :: rest ∧
    s.blade.trailFull = true ∧ s.blade.formsRecord s.mem tok = true) :=
  ⟨⟨withCode (bl [tk_2 2 1] (pset { MatchSet.init with blocked := true, ways := (List.range 8).map other } (cx_3
   .live 3))), t0, tk_2 2 1, other 0, ((List.range 7).map fun i => other (i + 1)), ⟨by decide +kernel,
   by decide +kernel, by decide +kernel, by decide +kernel, by decide +kernel, by decide +kernel⟩,
   by unfold TileUnharmed; decide +kernel, by decide +kernel⟩,
    ⟨S0 [tk_2 2 1] (pset { MatchSet.init with ways := (List.range 8).map other }), t0, tk_2 2 1, L, other 0,
    ((List.range 7).map fun i => other (i+1)), ⟨by decide +kernel, by decide +kernel, by decide +kernel,
    by decide +kernel, by decide +kernel, by decide +kernel⟩, ⟨by decide +kernel, by decide +kernel,
    by decide +kernel⟩, by unfold TileUnharmed; decide +kernel, by decide +kernel⟩,
    ⟨withCode fullSet, t0, tk_2 2 1, ([] : List Token), other_2 0, ((List.range 7).map fun i => other_2 (i+1)),
    ⟨by decide +kernel, by decide +kernel, by decide +kernel, by decide +kernel, by decide +kernel,
    by decide +kernel⟩, ⟨by decide +kernel, by decide +kernel, by decide +kernel⟩,
    by unfold TileUnharmed; decide +kernel, by decide +kernel⟩,
    ⟨S0 [tk_2 1 1], t0, tk_2 1 1, L, ⟨by decide +kernel, by decide +kernel, by decide +kernel, by decide +kernel,
    by decide +kernel, by decide +kernel⟩, ⟨by decide +kernel, by decide +kernel, by decide +kernel⟩,
    by unfold TileUnharmed; decide +kernel, by decide +kernel⟩,
    ⟨S0 [tk_2 1 0], t0, tk_2 1 0, L, ⟨by decide +kernel, by decide +kernel, by decide +kernel, by decide +kernel,
    by decide +kernel, by decide +kernel⟩, ⟨by decide +kernel, by decide +kernel, by decide +kernel⟩,
    by unfold TileUnharmed; decide +kernel, by decide +kernel⟩,
    ⟨S0 [tk_2 2 1] (pset { MatchSet.init with ways := [e1] }), t0, tk_2 2 1, L, e1, (0 : Nat), ⟨by decide +kernel,
    by decide +kernel, by decide +kernel, by decide +kernel, by decide +kernel, by decide +kernel⟩,
    ⟨by decide +kernel, by decide +kernel, by decide +kernel⟩, by unfold TileUnharmed; decide +kernel,
    by decide +kernel⟩,
    ⟨S0 [tk_2 2 1] (pset { MatchSet.init with lock := some .push }), t0, tk_2 2 1, L, ⟨by decide +kernel,
    by decide +kernel, by decide +kernel, by decide +kernel, by decide +kernel, by decide +kernel⟩,
    ⟨by decide +kernel, by decide +kernel, by decide +kernel⟩, by unfold TileUnharmed; decide +kernel,
    by decide +kernel⟩,
    ⟨S0 [tk_2 2 1] (pset { MatchSet.init with stack := [e1], filter := 0xFFFFFFFF }), t0, tk_2 2 1, L,
    ⟨by decide +kernel, by decide +kernel, by decide +kernel, by decide +kernel, by decide +kernel,
    by decide +kernel⟩, ⟨by decide +kernel, by decide +kernel, by decide +kernel⟩,
    by unfold TileUnharmed; decide +kernel, by decide +kernel⟩,
    ⟨withCode (bl [tk_2 2 1] (pset { MatchSet.init with blocked := true } (cx_3 .live 3))), t0, tk_2 2 1,
    ⟨by decide +kernel, by decide +kernel, by decide +kernel, by decide +kernel, by decide +kernel,
    by decide +kernel⟩, by unfold TileUnharmed; decide +kernel, by decide +kernel⟩,
    ⟨S0 [tk_2 3 1] (pset3 { MatchSet.init with ways := [e3] }), t0, tk_2 3 1, L, e3, (0 : Nat), ⟨by decide +kernel,
    by decide +kernel, by decide +kernel, by decide +kernel, by decide +kernel, by decide +kernel⟩,
    ⟨by decide +kernel, by decide +kernel, by decide +kernel⟩, by unfold TileUnharmed; decide +kernel,
    by decide +kernel⟩,
    ⟨S0 [tk_2 2 1], t0, tk_2 2 1, L, ⟨by decide +kernel, by decide +kernel, by decide +kernel, by decide +kernel,
    by decide +kernel, by decide +kernel⟩, ⟨by decide +kernel, by decide +kernel, by decide +kernel⟩,
    by unfold TileUnharmed; decide +kernel, by decide +kernel⟩,
    ⟨withCode (home [au1 (tk_2 1 0)] (can (fullTrail act))), t0, au1 (tk_2 1 0), L, by decide +kernel⟩⟩

theorem witness_SpillEvents :
    (∃ (s : State) (t : TileId) (k : Fin 512) (way : Fin 8) (e : MatchEntry) (below : List MatchEntry) (tombs : List
    MatchEntry), ((∀ (q : Token), (s.blade.mset ↑t ↑k).lock ≠ some (SetLock.search q)) ∨ s.blade.readyFull ↑t = true)
    ∧ s.blade.led.parking = none ∧ (s.blade.tile ↑t).waiting = [] ∧ (((s.blade.mset ↑t ↑k).stack.all fun x => decide
    (x.damage = 0)) = true) ∧ (s.blade.led.trail.length + (List.flatMap (fun x => x.tokens) (s.blade.mset ↑t
    ↑k).stack).length ≤ 256) ∧ (∀ y ∈ (s.blade.mset ↑t ↑k).stack, s.blade.cancelling y.context.toNat = true →
    (List.flatMap (fun x => x.tokens) (List.filter (fun x => decide (x.context = y.context)) (s.blade.mset ↑t
    ↑k).stack)).length ≤ (s.blade.ctx y.context.toNat).balance.toNat) ∧ (s.blade.mset ↑t ↑k).ways[↑way]? = some e ∧
    s.blade.cancelling e.context.toNat = true ∧ e.damage = 0 ∧ s.blade.trailFull = false ∧ (s.blade.mset ↑t ↑k).lock
    ≠ some SetLock.push ∧ (s.blade.mset ↑t ↑k).lock = none ∧ (s.blade.mset ↑t ↑k).ways.length ≤ 4 ∧ (s.blade.tile
    ↑t).spillOps < 8 ∧ (s.blade.mset ↑t ↑k).stack = below ++ e :: tombs ∧ (∀ y ∈ tombs, y.presence = 0) ∧ e.presence
    ≠ 0 ∧ ((s.blade.mset ↑t ↑k).sparse = false ∨ (s.blade.mset ↑t ↑k).lock ≠ none ∨ 8 ≤ (s.blade.tile ↑t).spillOps)) ∧
    (∃ (s : State) (t : TileId) (k : Fin 512) (way : Fin 8) (tok : Token) (e : MatchEntry) (i : ℕ), TileUnharmed
    s.blade ↑t ∧ (s.blade.mset ↑t ↑k).ways[↑way]? = none ∧ (s.blade.mset ↑t ↑k).lock = some (SetLock.search tok) ∧
    s.blade.readyFull ↑t = false ∧ (s.blade.tile ↑t).waiting = [] ∧ s.blade.net.migration = none ∧ (((s.blade.mset ↑t
    ↑k).stack.all fun x => decide (x.damage = 0)) = true) ∧ s.blade.cancelling tok.context.toNat = false ∧ joinIndex
    (s.blade.mset ↑t ↑k).stack tok = some i ∧ (s.blade.mset ↑t ↑k).stack[i]? = some e ∧ (e.fill tok).complete = true
    ∧ ((s.blade.mset ↑t ↑k).lock ≠ none ∨ 4 < (s.blade.mset ↑t ↑k).ways.length ∨ (s.blade.mset ↑t ↑k).live = 0 ∨ 8 ≤
    (s.blade.tile ↑t).spillOps)) ∧
    (∃ (s : State) (t : TileId) (k : Fin 512) (tok : Token), TileUnharmed s.blade ↑t ∧ (s.blade.mset ↑t ↑k).lock =
    some (SetLock.search tok) ∧ s.blade.readyFull ↑t = false ∧ (s.blade.tile ↑t).waiting = [] ∧ s.blade.net.migration
    = none ∧ (((s.blade.mset ↑t ↑k).stack.all fun x => decide (x.damage = 0)) = true) ∧ s.blade.cancelling
    tok.context.toNat = false ∧ joinIndex (s.blade.mset ↑t ↑k).stack tok = none ∧ joinIndex (s.blade.mset ↑t ↑k).ways
    tok = none ∧ (s.blade.mset ↑t ↑k).ways.length < 8) ∧
    (∃ (s : State) (t : TileId) (k : Fin 512), (s.blade.mset ↑t ↑k).lock = some SetLock.push ∧ (s.blade.tile
    ↑t).waiting = [] ∧ s.blade.net.migration = none) ∧
    (∃ (s : State) (t : TileId) (k : Fin 512) (way : Fin 8) (e : MatchEntry), (s.blade.mset ↑t ↑k).sparse = true ∧
    (s.blade.mset ↑t ↑k).lock = none ∧ (s.blade.tile ↑t).spillOps < 8 ∧ (s.blade.tile ↑t).waiting = [] ∧
    (((s.blade.mset ↑t ↑k).stack.all fun x => decide (x.damage = 0)) = true) ∧ (s.blade.mset ↑t ↑k).ways[↑way]? =
    some e ∧ s.blade.cancelling e.context.toNat = false) ∧
    (∃ (s : State) (t : TileId) (k : Fin 512) (tok : Token) (e : MatchEntry) (i : ℕ), TileUnharmed s.blade ↑t ∧
    (s.blade.mset ↑t ↑k).lock = some (SetLock.search tok) ∧ s.blade.readyFull ↑t = false ∧ (s.blade.tile ↑t).waiting
    = [] ∧ s.blade.net.migration = none ∧ (((s.blade.mset ↑t ↑k).stack.all fun x => decide (x.damage = 0)) = true) ∧
    s.blade.cancelling tok.context.toNat = true ∧ s.blade.trailFull = false ∧ joinIndex (s.blade.mset ↑t ↑k).stack
    tok = some i ∧ (s.blade.mset ↑t ↑k).stack[i]? = some e) ∧
    (∃ (s : State) (t : TileId) (k : Fin 512) (tok : Token) (e : MatchEntry) (i : ℕ), TileUnharmed s.blade ↑t ∧
    (s.blade.mset ↑t ↑k).lock = some (SetLock.search tok) ∧ s.blade.readyFull ↑t = false ∧ (s.blade.tile ↑t).waiting
    = [] ∧ s.blade.net.migration = none ∧ (((s.blade.mset ↑t ↑k).stack.all fun x => decide (x.damage = 0)) = true) ∧
    s.blade.cancelling tok.context.toNat = false ∧ joinIndex (s.blade.mset ↑t ↑k).stack tok = some i ∧ (s.blade.mset
    ↑t ↑k).stack[i]? = some e ∧ (e.fill tok).complete = false) ∧
    (∃ (s : State) (t : TileId) (k : Fin 512) (e : MatchEntry) (below : List MatchEntry) (tombs : List MatchEntry),
    (s.blade.mset ↑t ↑k).lock = none ∧ (s.blade.mset ↑t ↑k).ways.length ≤ 4 ∧ (s.blade.tile ↑t).spillOps < 8 ∧
    (s.blade.tile ↑t).waiting = [] ∧ (s.blade.mset ↑t ↑k).stack = below ++ e :: tombs ∧ (∀ y ∈ tombs, y.presence = 0)
    ∧ e.presence ≠ 0 ∧ e.damage = 0 ∧ s.blade.trailFull = false ∧ s.blade.cancelling e.context.toNat = false) ∧
    (∃ (s : State) (t : TileId) (k : Fin 512) (tok : Token), (s.blade.mset ↑t ↑k).lock = some (SetLock.search tok) ∧
    s.blade.cancelling tok.context.toNat = true ∧ s.blade.trailFull = true) ∧
    (∃ (s : State) (t : TileId) (k : Fin 512) (way : Fin 8) (e : MatchEntry), (s.blade.mset ↑t ↑k).ways[↑way]? = some
    e ∧ s.blade.cancelling e.context.toNat = true ∧ s.blade.trailHolds e.tokens = true) :=
  ⟨⟨S0 [] (fun b => can (pset { MatchSet.init with ways := [e1], stack := [other 1, e1, tomb] } b)), t0, k0_2, w0_2,
   e1, [other 1], [tomb], .inl (no_search (by decide +kernel)), by decide +kernel⟩,
    ⟨S0 [] (pset { MatchSet.init with lock := some (.search (tk_2 2 1)), stack := [e1] }), t0, k0_2, w0_2, tk_2 2 1,
    e1, (0 : Nat), by unfold TileUnharmed; decide +kernel, by decide +kernel⟩,
    ⟨S0 [] (pset { MatchSet.init with lock := some (.search (tk_2 2 1)), stack := [other 1] }), t0, k0_2, tk_2 2 1,
    by unfold TileUnharmed; decide +kernel, by decide +kernel⟩,
    ⟨S0 [] (pset { MatchSet.init with lock := some .push, stack := [e1] }), t0, k0_2, by decide +kernel⟩,
    ⟨S0 [] (fun b => (pset { MatchSet.init with ways := [e1], stack := other 1 :: List.replicate 20 tomb } b)), t0,
    k0_2, w0_2, e1, by decide +kernel⟩,
    ⟨withCode (pset { MatchSet.init with lock := some (.search (tk_2 2 1)), stack := [e1] } (can act)), t0, k0_2,
    tk_2 2 1, e1, (0 : Nat), by unfold TileUnharmed; decide +kernel, by decide +kernel⟩,
    ⟨S0 [] (pset3 { MatchSet.init with lock := some (.search (tk_2 3 1)), stack := [e3] }), t0, k3, tk_2 3 1, e3, (0
    : Nat), by unfold TileUnharmed; decide +kernel, by decide +kernel⟩,
    ⟨S0 [] (pset { MatchSet.init with stack := [other 1, e1, tomb] }), t0, k0_2, e1, [other 1], [tomb],
    by decide +kernel⟩,
    ⟨withCode (pset { MatchSet.init with lock := some (.search (tk_2 2 1)), stack := [e1] } (can (fullTrail act))),
    t0, k0_2, tk_2 2 1, by decide +kernel⟩,
    ⟨withCode (pset { MatchSet.init with ways := [{ e1 with cls0 := 1 }] } (can (fullTrail act))), t0, k0_2, w0_2,
    { e1 with cls0 := 1 }, by decide +kernel⟩⟩

theorem witness_DispatchAndRelease :
    (∃ (s : State) (t : TileId) (rest : List ReleaseItem) (fl : BitVec 12) (q : BitVec 16) (c : ClusterId) (h : ℕ) (y
    : HeldToken), (∀ (k : Token) (r : List ReleaseItem), s.blade.net.release ≠ ReleaseItem.emission k :: r) ∧ (∀ y ∈
    (s.blade.tile ↑t).ready, s.blade.cancelling y.context = false ∧ (s.blade.ctx y.context).recordLost = false) ∧
    s.blade.struck (fnTile ↑t) = false ∧ (s.blade.tile ↑t).firing = none ∧ s.blade.sampleLog.pair.throttled = false ∧
    s.blade.stopped = false ∧ (s.blade.tile ↑t).reruns = [] ∧ (s.blade.tile ↑t).ready = [] ∧ s.blade.net.release =
    ReleaseItem.marker fl q :: rest ∧ (s.blade.flow fl.toNat).outstanding q = true ∧ q = (s.blade.flow fl.toNat).head
    ∧ (s.blade.flow fl.toNat).retired = [] ∧ (s.blade.flow fl.toNat).held = [] ∧ (∀ h < 16, s.blade.laneNotice (16 *
    ↑c + h) = none)) ∧
    (∃ (s : State) (t : TileId) (c : ClusterId) (h : ℕ) (y : HeldToken) (k : Token) (o : Bool), (∀ (k : BitVec 12) (j
    : BitVec 16) (r : List ReleaseItem), s.blade.net.release ≠ ReleaseItem.marker k j :: r) ∧ (∀ y ∈ (s.blade.tile
    ↑t).ready, s.blade.cancelling y.context = false ∧ (s.blade.ctx y.context).recordLost = false) ∧ (s.blade.struck
    (fnTile ↑t) = true ∨ s.blade.sampleLog.pair.throttled = true ∨ s.blade.stopped = true ∨ (s.blade.tile
    ↑t).firing.isSome = true ∧ (s.blade.tile ↑t).prefetched.isSome = true) ∧ (List.find? (fun h =>
    (s.blade.laneNotice (16 * ↑c + h)).isSome) (List.map (fun k => ((s.blade.cluster ↑c).injectNext + k) % 16)
    (List.range 16)) = some h) ∧ s.blade.laneNotice (16 * ↑c + h) = some (k, o) ∧ (s.blade.ctx k.context.toNat).state
    ≠ CtxState.free ∧ (s.blade.ctx k.context.toNat).state ≠ CtxState.closed) ∧
    (∃ (s : State) (rest : List ReleaseItem) (fl : BitVec 12) (q : BitVec 16), s.blade.net.release =
    ReleaseItem.marker fl q :: rest ∧ (s.blade.flow fl.toNat).outstanding q = true ∧ q ≠ (s.blade.flow fl.toNat).head
    ∧ (s.blade.flow fl.toNat).retired.contains (s.blade.flow fl.toNat).head = false) ∧
    (∃ (s : State) (rest : List ReleaseItem) (fl : BitVec 12) (q : BitVec 16) (y : HeldToken), s.blade.net.release =
    ReleaseItem.marker fl q :: rest ∧ (s.blade.flow fl.toNat).outstanding q = true ∧ q = (s.blade.flow fl.toNat).head
    ∧ (s.blade.flow fl.toNat).retired = [] ∧ s.blade.trailFull = false ∧ (s.blade.flow fl.toNat).held = [y] ∧
    y.token.sequence = (s.blade.flow fl.toNat).head + 1 ∧ y.due = false ∧ y.cancelled = false) ∧
    (∃ (s : State) (t : TileId) (e : ReadyEntry) (pre : List ReadyEntry) (post : List ReadyEntry) (y : HeldToken), (∀
    y ∈ (s.blade.tile ↑t).ready, s.blade.cancelling y.context = false ∧ (s.blade.ctx y.context).recordLost = false) ∧
    s.blade.struck (fnTile ↑t) = false ∧ (s.blade.tile ↑t).firing = none ∧ s.blade.sampleLog.pair.throttled = false ∧
    s.blade.stopped = false ∧ (s.blade.tile ↑t).reruns = [] ∧ (s.blade.tile ↑t).prefetched = none ∧ (s.blade.tile
    ↑t).ready = pre ++ e :: post ∧ (∀ y ∈ (s.blade.tile ↑t).ready, y.sequence = none ∧ s.blade.parkHeld y.context =
    false) ∧ (∀ y ∈ pre, s.blade.level s.mem e < s.blade.level s.mem y ∧ y.age ≠ e.age) ∧ (∀ y ∈ post, s.blade.level
    s.mem e ≤ s.blade.level s.mem y ∧ y.age ≠ e.age) ∧ e.unreadable = false ∧ ((e.tokens.all fun k => !k.poison) =
    true)) ∧
    (∃ (s : State) (t : TileId) (e : ReadyEntry) (pre : List ReadyEntry) (post : List ReadyEntry) (y : HeldToken), (∀
    y ∈ (s.blade.tile ↑t).ready, s.blade.cancelling y.context = false ∧ (s.blade.ctx y.context).recordLost = false) ∧
    s.blade.struck (fnTile ↑t) = false ∧ (s.blade.tile ↑t).firing = none ∧ s.blade.sampleLog.pair.throttled = false ∧
    s.blade.stopped = false ∧ (s.blade.tile ↑t).reruns = [] ∧ (s.blade.tile ↑t).prefetched = none ∧ (s.blade.tile
    ↑t).ready = pre ++ e :: post ∧ (∀ y ∈ (s.blade.tile ↑t).ready, y.sequence = none ∧ s.blade.parkHeld y.context =
    false) ∧ (∀ y ∈ pre, s.blade.level s.mem e < s.blade.level s.mem y ∧ y.age ≠ e.age) ∧ (∀ y ∈ post, s.blade.level
    s.mem e ≤ s.blade.level s.mem y ∧ y.age ≠ e.age) ∧ e.unreadable = false ∧ ((e.tokens.any fun x => x.poison) =
    true) ∧ s.blade.trailFull = false) ∧
    (∃ (s : State) (t : TileId) (f : Firing) (fs : List Firing) (y : HeldToken), (∀ y ∈ (s.blade.tile ↑t).ready,
    s.blade.cancelling y.context = false ∧ (s.blade.ctx y.context).recordLost = false) ∧ s.blade.struck (fnTile ↑t) =
    false ∧ (s.blade.tile ↑t).firing = none ∧ s.blade.sampleLog.pair.throttled = false ∧ s.blade.stopped = false ∧
    (s.blade.tile ↑t).reruns = f :: fs) ∧
    (∃ (s : State) (tok : Token) (rest : List ReleaseItem), Arrives s.blade tok ∧ SendsUnharmed s.blade ∧
    s.blade.net.release = ReleaseItem.emission tok :: rest ∧ s.blade.net.migration = none ∧ tok.sequence =
    (s.blade.flow tok.flow.toNat).head ∧ s.blade.struck fnRelease = false ∧ (s.blade.trailFull = false ∨ ∀ z ∈
    (s.blade.flow tok.flow.toNat).held, z.due = false) ∧ tok.node.toNat < s.mem.nodeCount (s.blade.slotOf
    tok.context.toNat)) ∧
    (∃ (s : State) (tok : Token) (rest : List ReleaseItem) (y : HeldToken) (r : BitVec 16 × Reservation), Arrives
    s.blade tok ∧ SendsUnharmed s.blade ∧ s.blade.net.release = ReleaseItem.emission tok :: rest ∧
    s.blade.net.migration = none ∧ (tok.sequence ≠ (s.blade.flow tok.flow.toNat).head ∨ s.blade.struck fnRelease =
    true) ∧ (List.find? (fun y => decide (y.1 = tok.sequence) && decide (0 < y.2.left)) (s.blade.flow
    tok.flow.toNat).booked = some r) ∧ (tok.sequence ≠ (s.blade.flow tok.flow.toNat).head ∨ (s.blade.flow
    tok.flow.toNat).held = [])) ∧
    (∃ (s : State) (t : TileId) (e : ReadyEntry) (y : HeldToken), (∀ y ∈ (s.blade.tile ↑t).ready, s.blade.cancelling
    y.context = false ∧ (s.blade.ctx y.context).recordLost = false) ∧ s.blade.struck (fnTile ↑t) = false ∧
    (s.blade.tile ↑t).firing = none ∧ s.blade.sampleLog.pair.throttled = false ∧ s.blade.stopped = false ∧
    (s.blade.tile ↑t).reruns = [] ∧ (s.blade.tile ↑t).prefetched = some e.age ∧ (List.find? (fun x => decide (x.age =
    e.age)) (s.blade.tile ↑t).ready = some e) ∧ s.blade.parkHeld e.context = false ∧ e.unreadable = false ∧
    ((e.tokens.all fun k => !k.poison) = true)) ∧
    (∃ (s : State) (tok : Token) (rest : List ReleaseItem) (y : HeldToken), Arrives s.blade tok ∧ SendsUnharmed
    s.blade ∧ s.blade.net.release = ReleaseItem.emission tok :: rest ∧ s.blade.net.migration = none ∧ (tok.sequence ≠
    (s.blade.flow tok.flow.toNat).head ∨ s.blade.struck fnRelease = true) ∧ (List.find? (fun y => decide (y.1 =
    tok.sequence) && decide (0 < y.2.left)) (s.blade.flow tok.flow.toNat).booked = none)) ∧
    (∃ (s : State) (rest : List ReleaseItem) (fl : BitVec 12) (q : BitVec 16), s.blade.net.release =
    ReleaseItem.marker fl q :: rest ∧ (s.blade.flow fl.toNat).outstanding q = false) ∧
    (∃ (s : State) (tok : Token) (rest : List ReleaseItem), s.blade.net.release = ReleaseItem.emission tok :: rest ∧
    s.blade.trailFull = true ∧ s.blade.receiveForms tok = true) :=
  ⟨⟨S0_2 (fun b => (rel [.marker 0x80 7] fl b)), t0, RI, (0x80 : BitVec 12), (7 : BitVec 16), c0, (0 : Nat), hy0,
   no_emission (by decide +kernel), by decide +kernel⟩,
    ⟨withCode (inj_3 (cx_3 .live 3)), t0, c0, (3 : Nat), hy0_2, tk_2 1 1, false, no_marker (by decide +kernel),
    by decide +kernel⟩,
    ⟨S0_2 (fun b => (rel [.marker 0x80 8] fl b).setStruck fnRelease true), RI, (0x80 : BitVec 12), (8 : BitVec 16),
    by decide +kernel⟩,
    ⟨S0_2 (fun b => (rel [.marker 0x80 7] { fl with booked := [], held := [hy0] } b)), RI, (0x80 : BitVec 12), (7 :
    BitVec 16), hy0, by decide +kernel⟩,
    ⟨S0_2 (rdy [ent 1 4, ent 4 5]), t0, ent 1 4, E, [ent 4 5], hy0, by decide +kernel⟩,
    ⟨S0_2 (rdy [pe]), t0, pe, E, E, hy0, by decide +kernel⟩,
    ⟨S0_2 (fun b => b.setTile 0 { Tile.init with reruns := [f0_4, f0_4] }), t0, f0_4, [f0_4], hy0, by decide +kernel⟩,
    ⟨S0_2 (rel [.emission (otk 7)] fl), otk 7, RI, ⟨by decide +kernel, by decide +kernel, by decide +kernel,
    by decide +kernel, by decide +kernel, by decide +kernel⟩, by unfold SendsUnharmed; decide +kernel,
    by decide +kernel⟩,
    ⟨S0_2 (rel [.emission (otk 8)] fl), otk 8, RI, hy0, ((8, { left := 1, ofHeads := false }) : BitVec 16 ×
    Reservation), ⟨by decide +kernel, by decide +kernel, by decide +kernel, by decide +kernel, by decide +kernel,
    by decide +kernel⟩, by unfold SendsUnharmed; decide +kernel, by decide +kernel⟩,
    ⟨S0_2 (fun b => b.setTile 0 { Tile.init with ready := [ent 1 4, ent 4 5], prefetched := some 5 }), t0, ent 4 5,
    hy0, by decide +kernel⟩,
    ⟨S0_2 (rel [.emission (otk 9)] fl), otk 9, RI, hy0, ⟨by decide +kernel, by decide +kernel, by decide +kernel,
    by decide +kernel, by decide +kernel, by decide +kernel⟩, by unfold SendsUnharmed; decide +kernel,
    by decide +kernel⟩,
    ⟨S0_2 (fun b => (rel [.marker 0x80 9] fl b)), RI, (0x80 : BitVec 12), (9 : BitVec 16), by decide +kernel⟩,
    ⟨blank (rel_3 [.emission (au1 (tk_2 1 0))] (can (fullTrail act))), au1 (tk_2 1 0), ([] : List ReleaseItem),
    by decide +kernel⟩⟩

theorem witness_DelayAndWaiting :
    (∃ (s : State) (r : DelayRequest) (rest : List DelayRequest) (n : Fin 4) (i : ℕ), Arrives s.blade r.token ∧
    s.blade.net.delayIn = r :: rest ∧ s.blade.delayFull ↑r.list = false ∧ s.blade.armed srcDelayEcc 1 = false ∧ (∀ k
    ≤ ↑n, s.blade.struck (fnDelay k) = true ∨ (s.blade.delay k).hold = []) ∧ ((s.blade.delay ↑n).all ++
    (s.blade.delay ↑n).hold)[i]? = none ∧ s.blade.trailFull = false ∧ s.blade.pool.waiting = [] ∧
    s.blade.pair.unreleased = [] ∧ s.blade.eng.cancels = [] ∧ (∀ x ∈ s.blade.ord.flows, ∀ z ∈ x.2.held, z.due =
    false) ∧ s.blade.led.trail = [] ∧ s.blade.flag rQPOOL 1 = true ∧ s.blade.noticeChannel = none ∧ (s.blade.packet
    i).descBad = false) ∧
    (∃ (s : State), SendsUnharmed s.blade ∧ s.blade.net.delayIn = [] ∧ s.blade.trailFull = false ∧
    s.blade.net.migration = none) ∧
    (∃ (s : State) (r : DelayRequest) (rest : List DelayRequest), s.blade.net.delayIn = r :: rest ∧ s.blade.delayFull
    ↑r.list = false ∧ s.blade.trailFull = true ∧ s.blade.receiveForms r.token = true) :=
  ⟨⟨S0_2 (din [dr] DelayList.init), dr, DR, n1, (0 : Nat), ⟨by decide +kernel, by decide +kernel, by decide +kernel,
   by decide +kernel, by decide +kernel, by decide +kernel⟩, by decide +kernel⟩,
    ⟨blank (qa (onTile act fi)), by unfold SendsUnharmed; decide +kernel, by decide +kernel⟩,
    ⟨blank { can (fullTrail act) with net.delayIn := [dr_3] }, dr_3, ([] : List DelayRequest), by decide +kernel⟩⟩

theorem witness_ReceivedPennants :
    (∃ (s : State) (l : LaneId) (p : Pennant) (type : BitVec 4), GoodPennant s.blade (↑l) 2 p ∧ (s.blade.port
    ↑l).full = true ∧ p.sequence ≠ (s.blade.port ↑l).uExpected ∧ ((s.blade.port ↑l).uExpected - p.sequence).toNat <
    32768 ∧ s.blade.hears ↑l = true ∧ (type = 0 ∨ 8 < type.toNat) ∧ (p.codeGroupError || p.innerStart || decide
    (p.crc ≠ crc32 (pennantBody type.toNat p))) = true) ∧
    (∃ (s : State) (l : LaneId), s.blade.hears ↑l = false) ∧
    (∃ (s : State) (l : LaneId) (p : Pennant) (type : BitVec 4), GoodPennant s.blade ↑l (Instr.mgmtPennant l p, 7).2
    p ∧ (s.blade.port ↑l).full = true ∧ p.sequence = (s.blade.port ↑l).rxExpected ∧ blocksOf p.payload ≤
    ((s.blade.port ↑l).grant p.endpoint.toNat).outstanding ∧ s.blade.armed (srcPktCorr ↑l) 1 = false ∧ s.blade.armed
    (srcPktUncorr ↑l) 1 = false ∧ s.blade.hears ↑l = true ∧ type.toNat = (Instr.ackPennant l p, 3).2 ∧
    (p.codeGroupError || p.innerStart || decide (p.crc ≠ crc32 (pennantBody type.toNat p))) = true ∧ 1 ≤ type.toNat ∧
    type.toNat ≤ 8) ∧
    (∃ (s : State) (l : LaneId) (p : Pennant) (type : BitVec 4), s.blade.hears ↑l = true ∧ type.toNat =
    (Instr.dataPennant l p, 1).2 ∧ (p.codeGroupError || p.innerStart || decide (p.crc ≠ crc32 (pennantBody type.toNat
    p))) = true) ∧
    (∃ (s : State) (l : LaneId) (p : Pennant), GoodPennant s.blade ↑l (Instr.dataPennant l p, 1).2 p ∧ (s.blade.port
    ↑l).full = true ∧ p.sequence ≠ (s.blade.port ↑l).rxExpected ∧ ((s.blade.port ↑l).rxExpected - p.sequence).toNat <
    32768) ∧
    (∃ (s : State) (l : LaneId) (p : Pennant) (type : BitVec 4), s.blade.hears ↑l = true ∧ type.toNat =
    (Instr.nakPennant l p, 4).2 ∧ (p.codeGroupError || p.innerStart || decide (p.crc ≠ crc32 (pennantBody type.toNat
    p))) = true) ∧
    (∃ (s : State) (l : LaneId) (p : Pennant), GoodPennant s.blade ↑l (Instr.mgmtPennant l p, 7).2 p ∧ (s.blade.port
    ↑l).full = true ∧ p.sequence ≠ (s.blade.port ↑l).rxExpected ∧ ((s.blade.port ↑l).rxExpected - p.sequence).toNat <
    32768) ∧
    (∃ (s : State) (l : LaneId) (p : Pennant) (type : BitVec 4), s.blade.hears ↑l = true ∧ type.toNat =
    (Instr.mgmtPennant l p, 7).2 ∧ (p.codeGroupError || p.innerStart || decide (p.crc ≠ crc32 (pennantBody type.toNat
    p))) = true) ∧
    (∃ (s : State) (l : LaneId) (p : Pennant), GoodPennant s.blade ↑l (Instr.dataPennant l p, 1).2 p ∧ (s.blade.port
    ↑l).full = true ∧ p.sequence = (s.blade.port ↑l).rxExpected ∧ blocksOf p.payload ≤ ((s.blade.port ↑l).grant
    p.endpoint.toNat).outstanding ∧ s.blade.armed (srcPktCorr ↑l) 1 = false ∧ s.blade.armed (srcPktUncorr ↑l) 1 =
    false) ∧
    (∃ (s : State) (l : LaneId) (p : Pennant), GoodPennant s.blade (↑l) 2 p ∧ (s.blade.port ↑l).full = true ∧
    p.sequence = (s.blade.port ↑l).uExpected ∧ s.blade.urgentInUse ↑l < s.blade.urgentSlots ↑l ∧ s.blade.armed
    (srcPktCorr ↑l) 1 = false ∧ s.blade.armed (srcPktUncorr ↑l) 1 = false) ∧
    (∃ (s : State) (l : LaneId) (p : Pennant), GoodPennant s.blade ↑l (Instr.dataPennant l p, 1).2 p ∧ (s.blade.port
    ↑l).full = false) ∧
    (∃ (s : State) (l : LaneId) (p : Pennant) (type : BitVec 4), s.blade.hears ↑l = true ∧ type.toNat =
    (Instr.mgmtPennant l p, 7).2 ∧ (p.codeGroupError || p.innerStart || decide (p.crc ≠ crc32 (pennantBody type.toNat
    p))) = false ∧ s.blade.armed (srcPort (↑l) 0) 1 = false ∧ headerValid (Instr.mgmtPennant l p, 7).2 p = false ∧
    (s.blade.port ↑l).full = true) ∧
    (∃ (s : State) (l : LaneId) (p : Pennant), GoodPennant s.blade ↑l (Instr.dataPennant l p, 1).2 p ∧ (s.blade.port
    ↑l).full = true ∧ p.sequence = (s.blade.port ↑l).rxExpected ∧ ((s.blade.port ↑l).grant
    p.endpoint.toNat).outstanding < blocksOf p.payload) ∧
    (∃ (s : State) (l : LaneId) (p : Pennant), GoodPennant s.blade ↑l (Instr.dataPennant l p, 1).2 p ∧ (s.blade.port
    ↑l).full = true ∧ 32768 ≤ ((s.blade.port ↑l).rxExpected - p.sequence).toNat) ∧
    (∃ (s : State) (l : LaneId) (p : Pennant), GoodPennant s.blade (↑l) 2 p ∧ (s.blade.port ↑l).state = 2) ∧
    (∃ (s : State) (l : LaneId) (p : Pennant), GoodPennant s.blade (↑l) 2 p ∧ (s.blade.port ↑l).full = false ∧
    (s.blade.port ↑l).state ≠ 2) ∧
    (∃ (s : State) (l : LaneId) (p : Pennant), GoodPennant s.blade (↑l) 2 p ∧ (s.blade.port ↑l).full = true ∧ 32768 ≤
    ((s.blade.port ↑l).uExpected - p.sequence).toNat) ∧
    (∃ (s : State) (l : LaneId) (p : Pennant), GoodPennant s.blade (↑l) 2 p ∧ (s.blade.port ↑l).full = true ∧
    p.sequence = (s.blade.port ↑l).uExpected ∧ s.blade.urgentSlots ↑l ≤ s.blade.urgentInUse ↑l) ∧
    (∃ (s : State) (l : LaneId) (p : Pennant) (type : BitVec 4), s.blade.hears ↑l = true ∧ (type = 0 ∨ 8 <
    type.toNat) ∧ (p.codeGroupError || p.innerStart || decide (p.crc ≠ crc32 (pennantBody type.toNat p))) = false ∧
    (s.blade.port ↑l).full = true) ∧
    (∃ (s : State) (l : LaneId) (p : Pennant) (type : BitVec 4), s.blade.hears ↑l = true ∧ (type = 0 ∨ 8 <
    type.toNat) ∧ (p.codeGroupError || p.innerStart || decide (p.crc ≠ crc32 (pennantBody type.toNat p))) = false ∧
    (s.blade.port ↑l).full = false) ∧
    (∃ (s : State) (l : LaneId) (p : Pennant) (type : BitVec 4), s.blade.hears ↑l = true ∧ type.toNat =
    (Instr.dataPennant l p, 1).2 ∧ (p.codeGroupError || p.innerStart || decide (p.crc ≠ crc32 (pennantBody type.toNat
    p))) = false ∧ s.blade.armed (srcPort (↑l) 0) 1 = false ∧ headerValid (Instr.dataPennant l p, 1).2 p = false ∧
    (s.blade.port ↑l).full = true) ∧
    (∃ (s : State) (l : LaneId) (p : Pennant) (type : BitVec 4), s.blade.hears ↑l = true ∧ type.toNat =
    (Instr.ackPennant l p, 3).2 ∧ (p.codeGroupError || p.innerStart || decide (p.crc ≠ crc32 (pennantBody type.toNat
    p))) = false ∧ s.blade.armed (srcPort (↑l) 0) 1 = false ∧ headerValid (Instr.ackPennant l p, 3).2 p = false ∧
    (s.blade.port ↑l).full = true) ∧
    (∃ (s : State) (l : LaneId) (p : Pennant) (type : BitVec 4), s.blade.hears ↑l = true ∧ type.toNat =
    (Instr.nakPennant l p, 4).2 ∧ (p.codeGroupError || p.innerStart || decide (p.crc ≠ crc32 (pennantBody type.toNat
    p))) = false ∧ s.blade.armed (srcPort (↑l) 0) 1 = false ∧ headerValid (Instr.nakPennant l p, 4).2 p = false ∧
    (s.blade.port ↑l).full = true) ∧
    (∃ (s : State) (l : LaneId) (p : Pennant), GoodPennant s.blade ↑l (Instr.mgmtPennant l p, 7).2 p ∧ (s.blade.port
    ↑l).full = true ∧ 32768 ≤ ((s.blade.port ↑l).rxExpected - p.sequence).toNat) ∧
    (∃ (s : State) (l : LaneId) (p : Pennant), GoodPennant s.blade ↑l (Instr.mgmtPennant l p, 7).2 p ∧ (s.blade.port
    ↑l).full = false) ∧
    (∃ (s : State) (l : LaneId) (p : Pennant), GoodPennant s.blade ↑l (Instr.mgmtPennant l p, 7).2 p ∧ (s.blade.port
    ↑l).full = true ∧ p.sequence = (s.blade.port ↑l).rxExpected ∧ ((s.blade.port ↑l).grant
    p.endpoint.toNat).outstanding < blocksOf p.payload) :=
  ⟨⟨S_2 (po 3), l0_2, urg 4, ty 0, ⟨by decide +kernel, by decide +kernel, by decide +kernel, by decide +kernel,
   by decide +kernel, by decide +kernel⟩, by decide +kernel⟩,
    ⟨S_2 { po 0 with energy := false, lock := false }, l0_2, by decide +kernel⟩,
    ⟨S_2 (po 3), l0_2, mk 7 { z with endpoint := 0, payload := List.replicate 8 1 }, ty 3, ⟨by decide +kernel,
    by decide +kernel, by decide +kernel, by decide +kernel, by decide +kernel, by decide +kernel⟩,
    by decide +kernel⟩,
    ⟨S_2 { po 3 with up := [] }, l0_2, mgm, ty 1, by decide +kernel⟩,
    ⟨S_2 { po 3 with rxExpected := 6, uExpected := 6 }, l0_2, dat, ⟨by decide +kernel, by decide +kernel,
    by decide +kernel, by decide +kernel, by decide +kernel, by decide +kernel⟩, by decide +kernel⟩,
    ⟨S_2 (po 3), l0_2, { bad 4 with innerStart := true }, ty 4, by decide +kernel⟩,
    ⟨S_2 (po 3), l0_2, mk 7 { z with payload := List.replicate 8 1, sequence := 4 }, ⟨by decide +kernel,
    by decide +kernel, by decide +kernel, by decide +kernel, by decide +kernel, by decide +kernel⟩,
    by decide +kernel⟩,
    ⟨on3 po_2, l0_2, { aud_2 with codeGroupError := true }, (7 : BitVec 4), by decide +kernel⟩,
    ⟨S_2 (po 3), l0_2, dat, ⟨by decide +kernel, by decide +kernel, by decide +kernel, by decide +kernel,
    by decide +kernel, by decide +kernel⟩, by decide +kernel⟩,
    ⟨S_2 (po 3), l0_2, urg 5, ⟨by decide +kernel, by decide +kernel, by decide +kernel, by decide +kernel,
    by decide +kernel, by decide +kernel⟩, by decide +kernel⟩,
    ⟨S_2 (po 1), l0_2, dat, ⟨by decide +kernel, by decide +kernel, by decide +kernel, by decide +kernel,
    by decide +kernel, by decide +kernel⟩, by decide +kernel⟩,
    ⟨S_2 (po 3), l0_2, mgm, ty 7, by decide +kernel⟩,
    ⟨S_2 { po 3 with up := [] }, l0_2, dat, ⟨by decide +kernel, by decide +kernel, by decide +kernel,
    by decide +kernel, by decide +kernel, by decide +kernel⟩, by decide +kernel⟩,
    ⟨S_2 { po 3 with rxExpected := 4, uExpected := 4 }, l0_2, dat, ⟨by decide +kernel, by decide +kernel,
    by decide +kernel, by decide +kernel, by decide +kernel, by decide +kernel⟩, by decide +kernel⟩,
    ⟨S_2 (po 2), l0_2, urg 5, ⟨by decide +kernel, by decide +kernel, by decide +kernel, by decide +kernel,
    by decide +kernel, by decide +kernel⟩, by decide +kernel⟩,
    ⟨S_2 (po 1), l0_2, urg 5, ⟨by decide +kernel, by decide +kernel, by decide +kernel, by decide +kernel,
    by decide +kernel, by decide +kernel⟩, by decide +kernel⟩,
    ⟨S_2 (po 3), l0_2, urg 6, ⟨by decide +kernel, by decide +kernel, by decide +kernel, by decide +kernel,
    by decide +kernel, by decide +kernel⟩, by decide +kernel⟩,
    ⟨S_2 (po 3) (fun b => b.setReg (rPORT 3) 0x80080401), l0_2, urg 5, ⟨by decide +kernel, by decide +kernel,
    by decide +kernel, by decide +kernel, by decide +kernel, by decide +kernel⟩, by decide +kernel⟩,
    ⟨S_2 (po 3), l0_2, mk 9 dat, ty 9, by decide +kernel⟩,
    ⟨S_2 (po 1), l0_2, mk 9 dat, ty 9, by decide +kernel⟩,
    ⟨S_2 (po 3), l0_2, bad 1, ty 1, by decide +kernel⟩,
    ⟨S_2 (po 3), l0_2, bad 3, ty 3, by decide +kernel⟩,
    ⟨S_2 (po 3), l0_2, bad 4, ty 4, by decide +kernel⟩,
    ⟨S_2 (po 3), l0_2, mk 7 { z with payload := List.replicate 8 1, sequence := 6 }, ⟨by decide +kernel,
    by decide +kernel, by decide +kernel, by decide +kernel, by decide +kernel, by decide +kernel⟩,
    by decide +kernel⟩,
    ⟨S_2 (po 1), l0_2, mk 7 { z with payload := List.replicate 8 1, sequence := 6 }, ⟨by decide +kernel,
    by decide +kernel, by decide +kernel, by decide +kernel, by decide +kernel, by decide +kernel⟩,
    by decide +kernel⟩,
    ⟨S_2 { po 3 with up := [] }, l0_2, mk 7 { z with payload := List.replicate 8 1 }, ⟨by decide +kernel,
    by decide +kernel, by decide +kernel, by decide +kernel, by decide +kernel, by decide +kernel⟩,
    by decide +kernel⟩⟩

set_option maxRecDepth 10000 in
theorem witness_PodMessages :
    (∃ (s : State) (l : LaneId) (p : Pennant) (a : AuditSent), GoodPennant s.blade (↑l) 6 p ∧ ((heard s.blade (↑l)
    p).port ↑l).full = true ∧ (List.find? (fun a => decide (List.take 2 a.payload = List.take 2 p.payload)) ((heard
    s.blade (↑l) p).port ↑l).audits = some a) ∧ a.payload ≠ p.payload ∧ ((heard s.blade (↑l) p).port ↑l).auditPending
    = false) ∧
    (∃ (s : State) (l : LaneId) (p : Pennant) (t : TxPennant), GoodPennant s.blade (↑l) 3 p ∧ ((heard s.blade (↑l)
    p).port ↑l).full = true ∧ p.uspace = false ∧ ((((heard s.blade (↑l) p).port ↑l).tx.any fun t => t.sent && decide
    (t.sequence = p.sequence)) = true) ∧ (List.filter (fun t => t.sent && decide ((p.sequence - t.sequence).toNat <
    32768)) ((heard s.blade (↑l) p).port ↑l).tx = [t])) ∧
    (∃ (s : State) (l : LaneId) (p : Pennant) (b0 : Byte) (b1 : Byte) (b2 : Byte) (b3 : Byte), GoodPennant s.blade
    (↑l) 5 p ∧ ((heard s.blade (↑l) p).port ↑l).hoisting = true ∧ (((heard s.blade (↑l) p).port ↑l).state ≠ 2 ∨
    ((heard s.blade (↑l) p).port ↑l).echoed = false) ∧ p.payload = [b0, b1, b2, b3]) ∧
    (∃ (s : State) (l : LaneId) (p : Pennant), GoodPennant s.blade (↑l) 8 p ∧ ((heard s.blade (↑l) p).port ↑l).state
    = 1) ∧
    (∃ (s : State) (l : LaneId) (p : Pennant), GoodPennant s.blade (↑l) 5 p ∧ ((heard s.blade (↑l) p).port
    ↑l).hoisting = true ∧ ((heard s.blade (↑l) p).port ↑l).state = 2 ∧ ((heard s.blade (↑l) p).port ↑l).echoed =
    true) ∧
    (∃ (s : State) (l : LaneId) (p : Pennant) (a : AuditSent), GoodPennant s.blade (↑l) 6 p ∧ ((heard s.blade (↑l)
    p).port ↑l).full = true ∧ (List.find? (fun a => decide (List.take 2 a.payload = List.take 2 p.payload)) ((heard
    s.blade (↑l) p).port ↑l).audits = some a) ∧ a.payload ≠ p.payload ∧ ((heard s.blade (↑l) p).port ↑l).auditPending
    = true) ∧
    (∃ (s : State) (l : LaneId) (p : Pennant), GoodPennant s.blade (↑l) 8 p ∧ ((heard s.blade (↑l) p).port ↑l).state
    = 2 ∧ (1 ≤ (BitVec.ofNat 16 (fieldAt p.payload 0 2) - BitVec.ofNat 16 (BitVec.toNat ((heard s.blade (↑l) p).port
    ↑l).syncFrame)).toNat ∧ (BitVec.ofNat 16 (fieldAt p.payload 0 2) - BitVec.ofNat 16 (BitVec.toNat ((heard s.blade
    (↑l) p).port ↑l).syncFrame)).toNat ≤ BitVec.toNat (s.blade.frame - ((heard s.blade (↑l) p).port ↑l).syncFrame)) ∧
    ((heard s.blade (↑l) p).port ↑l).podCredit = false) ∧
    (∃ (s : State) (l : LaneId) (p : Pennant) (a : AuditSent), GoodPennant s.blade (↑l) 6 p ∧ ((heard s.blade (↑l)
    p).port ↑l).full = true ∧ (List.find? (fun a => decide (List.take 2 a.payload = List.take 2 p.payload)) ((heard
    s.blade (↑l) p).port ↑l).audits = some a) ∧ a.payload = p.payload) ∧
    (∃ (s : State) (l : LaneId) (p : Pennant) (t : TxPennant), GoodPennant s.blade (↑l) 3 p ∧ (((heard s.blade (↑l)
    p).port ↑l).full = false ∨ p.uspace = true ∨ (((heard s.blade (↑l) p).port ↑l).tx.any fun t => t.sent && decide
    (t.sequence = p.sequence)) = false)) ∧
    (∃ (s : State) (l : LaneId) (p : Pennant), GoodPennant s.blade (↑l) 4 p ∧ ((heard s.blade (↑l) p).port ↑l).full =
    true) ∧
    (∃ (s : State) (l : LaneId) (p : Pennant), GoodPennant s.blade (↑l) 4 p ∧ ((heard s.blade (↑l) p).port ↑l).full =
    false) ∧
    (∃ (s : State) (l : LaneId) (p : Pennant), GoodPennant s.blade (↑l) 5 p ∧ ((heard s.blade (↑l) p).port
    ↑l).hoisting = false) ∧
    (∃ (s : State) (l : LaneId) (p : Pennant), GoodPennant s.blade (↑l) 8 p ∧ ((heard s.blade (↑l) p).port ↑l).state
    ≠ 1 ∧ ((heard s.blade (↑l) p).port ↑l).state ≠ 2) ∧
    (∃ (s : State) (l : LaneId) (p : Pennant) (a : AuditSent), GoodPennant s.blade (↑l) 6 p ∧ (((heard s.blade (↑l)
    p).port ↑l).full = false ∨ ∀ a ∈ ((heard s.blade (↑l) p).port ↑l).audits, List.take 2 a.payload ≠ List.take 2
    p.payload)) :=
  ⟨⟨on3 { po_2 with audits := [aw 1] }, l0_2, aud_2, aw 1, ⟨by decide +kernel, by decide +kernel, by decide +kernel,
   by decide +kernel, by decide +kernel, by decide +kernel⟩, by decide +kernel⟩,
    ⟨S_2 (hasSent 5 (po 3)), l0_2, mk 3 z, tx0, ⟨by decide +kernel, by decide +kernel, by decide +kernel,
    by decide +kernel, by decide +kernel, by decide +kernel⟩, by decide +kernel⟩,
    ⟨S_2 (po 3), l0_2, cr, o 4, o 0, o 9, o 1, ⟨by decide +kernel, by decide +kernel, by decide +kernel,
    by decide +kernel, by decide +kernel, by decide +kernel⟩, by decide +kernel⟩,
    ⟨S_2 (po 1) (fr 7), l0_2, fi_2, ⟨by decide +kernel, by decide +kernel, by decide +kernel, by decide +kernel,
    by decide +kernel, by decide +kernel⟩, by decide +kernel⟩,
    ⟨S_2 { po 2 with echoed := true }, l0_2, cr, ⟨by decide +kernel, by decide +kernel, by decide +kernel,
    by decide +kernel, by decide +kernel, by decide +kernel⟩, by decide +kernel⟩,
    ⟨on3 { po_2 with audits := [aw 1], auditPending := true }, l0_2, aud_2, aw 1, ⟨by decide +kernel,
    by decide +kernel, by decide +kernel, by decide +kernel, by decide +kernel, by decide +kernel⟩,
    by decide +kernel⟩,
    ⟨S_2 { po 2 with podCredit := false, lastEcho := some 4 } (fr 7), l0_2, fi_2, ⟨by decide +kernel,
    by decide +kernel, by decide +kernel, by decide +kernel, by decide +kernel, by decide +kernel⟩,
    by decide +kernel⟩,
    ⟨on3 { po_2 with audits := [aw 0] }, l0_2, aud_2, aw 0, ⟨by decide +kernel, by decide +kernel, by decide +kernel,
    by decide +kernel, by decide +kernel, by decide +kernel⟩, by decide +kernel⟩,
    ⟨S_2 (po 3), l0_2, mk 3 z, tx0, ⟨by decide +kernel, by decide +kernel, by decide +kernel, by decide +kernel,
    by decide +kernel, by decide +kernel⟩, by decide +kernel⟩,
    ⟨S_2 (hasSent 5 (po 3)), l0_2, mk 4 { z with payload := [1,0,0,0] }, ⟨by decide +kernel, by decide +kernel,
    by decide +kernel, by decide +kernel, by decide +kernel, by decide +kernel⟩, by decide +kernel⟩,
    ⟨S_2 (hasSent 5 (po 2)), l0_2, mk 4 { z with payload := [1,0,0,0] }, ⟨by decide +kernel, by decide +kernel,
    by decide +kernel, by decide +kernel, by decide +kernel, by decide +kernel⟩, by decide +kernel⟩,
    ⟨S_2 (po 1), l0_2, cr, ⟨by decide +kernel, by decide +kernel, by decide +kernel, by decide +kernel,
    by decide +kernel, by decide +kernel⟩, by decide +kernel⟩,
    ⟨S_2 (po 3) (fr 7), l0_2, fi_2, ⟨by decide +kernel, by decide +kernel, by decide +kernel, by decide +kernel,
    by decide +kernel, by decide +kernel⟩, by decide +kernel⟩,
    ⟨on3 po_2, l0_2, aud_2, aw 0, ⟨by decide +kernel, by decide +kernel, by decide +kernel, by decide +kernel,
    by decide +kernel, by decide +kernel⟩, by decide +kernel⟩⟩

theorem witness_LinkEvents :
    (∃ (s : State) (l : LaneId) (a : AuditSent), (s.blade.port ↑l).hoisting = true ∧ 8 ≤ BitVec.toNat (s.blade.frame
    - (s.blade.port ↑l).lastValid) ∧ (s.blade.port ↑l).state ≠ 5 ∧ BitVec.toNat s.blade.frame % 64 = 0 ∧
    (s.blade.port ↑l).windowFrame ≠ s.blade.frame ∧ s.blade.onLane ↑l = true ∧ (s.blade.port ↑l).nakDue = [] ∧
    ((s.blade.port ↑l).full = false ∨ (((s.blade.port ↑l).creditDue = none ∧ (s.blade.port ↑l).auditDue = none ∧
    (s.blade.port ↑l).uackDue = none) ∧ (∀ (m : ℕ), (s.blade.port ↑l).ackDue = some m → s.blade.now < m + 20) ∧
    (s.blade.port ↑l).ackAlone = false) ∧ (s.blade.port ↑l).tx = []) ∧ (s.blade.port ↑l).sentThisFrame = false ∧
    (List.find? (fun x => x.sent) (s.blade.port ↑l).tx = none) ∧ ((s.blade.port ↑l).full = false ∨ (s.blade.port
    ↑l).auditDue = none ∨ s.blade.onLane ↑l = false) ∧ ((s.blade.port ↑l).full = false ∨ ∀ a ∈ (s.blade.port
    ↑l).audits, BitVec.toNat (s.blade.frame - a.frame) < 4) ∧ ((s.blade.port ↑l).state ≠ 1 ∨ s.blade.onLane ↑l =
    false)) ∧
    (∃ (s : State) (l : LaneId), ((s.blade.port ↑l).hoisting = false ∨ BitVec.toNat (s.blade.frame - (s.blade.port
    ↑l).lastValid) < 8) ∧ (s.blade.port ↑l).state = 5 ∧ (BitVec.toNat s.blade.frame % 64 ≠ 0 ∨ (s.blade.port
    ↑l).windowFrame = s.blade.frame) ∧ ((s.blade.port ↑l).hoisting = false ∨ s.blade.onLane ↑l = false)) ∧
    (∃ (s : State) (l : LaneId) (n : ℕ), (s.blade.port ↑l).hoisting = true ∧ s.blade.onLane ↑l = true ∧ (s.blade.port
    ↑l).nakDue = [] ∧ (s.blade.port ↑l).full = true ∧ (s.blade.port ↑l).creditDue = none ∧ (s.blade.port ↑l).auditDue
    = some n) ∧
    (∃ (s : State) (l : LaneId) (a : AuditSent), (s.blade.port ↑l).full = true ∧ (List.find? (fun a => decide (4 ≤
    BitVec.toNat (s.blade.frame - a.frame))) (s.blade.port ↑l).audits = some a) ∧ (s.blade.port ↑l).auditPending =
    false) ∧
    (∃ (s : State) (l : LaneId) (reason : BitVec 8) (uspace : Bool) (q : BitVec 16) (rest : List (BitVec 8 × Bool ×
    BitVec 16)), (s.blade.port ↑l).hoisting = true ∧ s.blade.onLane ↑l = true ∧ (s.blade.port ↑l).nakDue = (reason,
    uspace, q) :: rest) ∧
    (∃ (s : State) (l : LaneId) (n : ℕ), (s.blade.port ↑l).hoisting = true ∧ s.blade.onLane ↑l = true ∧ (s.blade.port
    ↑l).nakDue = [] ∧ (s.blade.port ↑l).full = true ∧ (s.blade.port ↑l).creditDue = some n ∧ n + 20 ≤ s.blade.now) ∧
    (∃ (s : State) (l : LaneId), (s.blade.port ↑l).hoisting = true ∧ s.blade.onLane ↑l = true ∧ (s.blade.port
    ↑l).nakDue = [] ∧ (s.blade.port ↑l).full = true ∧ (s.blade.port ↑l).creditDue = none ∧ (s.blade.port ↑l).auditDue
    = none ∧ ((¬∀ (m : ℕ), (s.blade.port ↑l).ackDue = some m → s.blade.now < m + 20) ∨ (s.blade.port ↑l).ackAlone =
    true ∧ (s.blade.port ↑l).tx = [] ∧ (s.blade.port ↑l).uackDue = none)) ∧
    (∃ (s : State) (l : LaneId) (a : AuditSent), (s.blade.port ↑l).full = true ∧ (List.find? (fun a => decide (4 ≤
    BitVec.toNat (s.blade.frame - a.frame))) (s.blade.port ↑l).audits = some a) ∧ (s.blade.port ↑l).auditPending =
    true) ∧
    (∃ (s : State) (l : LaneId) (t : TxPennant), (s.blade.port ↑l).hoisting = true ∧ s.blade.onLane ↑l = true ∧
    (s.blade.port ↑l).nakDue = [] ∧ (s.blade.port ↑l).full = true ∧ ((s.blade.port ↑l).creditDue = none ∧
    (s.blade.port ↑l).auditDue = none ∧ (s.blade.port ↑l).uackDue = none) ∧ (∀ (m : ℕ), (s.blade.port ↑l).ackDue =
    some m → s.blade.now < m + 20) ∧ (s.blade.port ↑l).tx = [t] ∧ (t.resend = true ∨ t.sent = false) ∧ (s.blade.port
    ↑l).payable t = true ∧ t.lost = true) ∧
    (∃ (s : State) (l : LaneId), (s.blade.port ↑l).state = 1 ∧ s.blade.onLane ↑l = true) ∧
    (∃ (s : State) (l : LaneId), (s.blade.port ↑l).hoisting = true ∧ s.blade.onLane ↑l = true ∧ (s.blade.port
    ↑l).nakDue = [] ∧ ((s.blade.port ↑l).full = false ∨ (((s.blade.port ↑l).creditDue = none ∧ (s.blade.port
    ↑l).auditDue = none ∧ (s.blade.port ↑l).uackDue = none) ∧ (∀ (m : ℕ), (s.blade.port ↑l).ackDue = some m →
    s.blade.now < m + 20) ∧ (s.blade.port ↑l).ackAlone = false) ∧ (s.blade.port ↑l).tx = []) ∧ (s.blade.port
    ↑l).sentThisFrame = true) ∧
    (∃ (s : State) (l : LaneId) (t : TxPennant), (s.blade.port ↑l).hoisting = true ∧ s.blade.onLane ↑l = true ∧
    (s.blade.port ↑l).nakDue = [] ∧ (s.blade.port ↑l).full = true ∧ ((s.blade.port ↑l).creditDue = none ∧
    (s.blade.port ↑l).auditDue = none ∧ (s.blade.port ↑l).uackDue = none) ∧ (∀ (m : ℕ), (s.blade.port ↑l).ackDue =
    some m → s.blade.now < m + 20) ∧ (s.blade.port ↑l).tx = [t] ∧ (t.resend = true ∨ t.sent = false) ∧ (s.blade.port
    ↑l).payable t = true ∧ t.lost = false) ∧
    (∃ (s : State) (l : LaneId) (t : TxPennant), (List.find? (fun x => x.sent) (s.blade.port ↑l).tx = some t) ∧
    ((s.blade.port ↑l).full = false ∨ min (BitVec.toNat (s.blade.frame - t.sentFrame)) (BitVec.toNat (s.blade.frame -
    (s.blade.port ↑l).lastProgress)) ≤ s.blade.retxFrames ↑l)) ∧
    (∃ (s : State) (l : LaneId) (t : TxPennant), (List.find? (fun x => x.sent) (s.blade.port ↑l).tx = some t) ∧
    (s.blade.port ↑l).full = true ∧ s.blade.retxFrames ↑l < min (BitVec.toNat (s.blade.frame - t.sentFrame))
    (BitVec.toNat (s.blade.frame - (s.blade.port ↑l).lastProgress))) :=
  ⟨⟨LK { po 4 with goodWindows := 3 } (fr 64), l0_2, au, by decide +kernel⟩,
    ⟨LK { po 5 with audits := [au], auditPending := true } (fr 4), l0_2, by decide +kernel⟩,
    ⟨LK { po 3 with auditDue := some 0 } (fr 8), l0_2, (0 : Nat), by decide +kernel⟩,
    ⟨LK { po 3 with audits := [au] } (fr 4), l0_2, au, by decide +kernel⟩,
    ⟨LK { po 3 with nakDue := [(2, true, 9)] }, l0_2, (2 : BitVec 8), true, (9 : BitVec 16), R, by decide +kernel⟩,
    ⟨LK { po 3 with creditDue := some 0 } (fr 8), l0_2, (0 : Nat), by decide +kernel⟩,
    ⟨LK { po 3 with ackDue := some 0 } (fr 8), l0_2, by decide +kernel⟩,
    ⟨LK { po 3 with audits := [au], auditPending := true } (fr 4), l0_2, au, by decide +kernel⟩,
    ⟨LK_2 { po 3 with tx := [txl] } (fr 8), l0_2, txl, by decide +kernel⟩,
    ⟨LK (po 1), l0_2, by decide +kernel⟩,
    ⟨LK { po 3 with sentThisFrame := true }, l0_2, by decide +kernel⟩,
    ⟨LK
    { po 3 with tx := [{ tx0 with sent := false, paid := false }], down := [(4, { limit := 1, consumed := 0, acked := 0 })] }
    (fr 8), l0_2, { tx0 with sent := false, paid := false }, by decide +kernel⟩,
    ⟨LK { po 3 with tx := [tx0] } (fr 3), l0_2, tx0, by decide +kernel⟩,
    ⟨LK_2 { po 3 with tx := [tx0] } (fr 5), l0_2, tx0, by decide +kernel⟩⟩

theorem witness_ChannelCommands :
    (∃ (s : State) (r : Request), Admitted s 113 false r ∧ r.length = 4 ∧ rqField r 0 1 ≤ 31 ∧ ((began s r).channel
    (rqField r 0 1)).isOpen = true) ∧
    (∃ (s : State) (r : Request), Admitted s 114 true r ∧ r.length = 4 ∧ rqField r 0 1 ≤ 31) ∧
    (∃ (s : State) (r : Request), Admitted s 120 true r ∧ r.length = 0 ∧ (began s r).slaveUplink = none) ∧
    (∃ (s : State) (r : Request), Admitted s 113 false r ∧ r.length = 4 ∧ 31 < rqField r 0 1) ∧
    (∃ (s : State) (r : Request), Admitted s 114 true r ∧ r.length = 4 ∧ 31 < rqField r 0 1) ∧
    (∃ (s : State) (r : Request), Admitted s 112 false r ∧ r.length = 32 ∧ 31 < rqField r 0 1) ∧
    (∃ (s : State) (r : Request), Admitted s 112 false r ∧ r.length = 32 ∧ rqField r 0 1 ≤ 31 ∧ ((began s r).channel
    (rqField r 0 1)).isOpen = true) ∧
    (∃ (s : State) (r : Request), Admitted s 112 false r ∧ r.length = 32 ∧ rqField r 0 1 ≤ 31 ∧ ((began s r).channel
    (rqField r 0 1)).isOpen = false ∧ channelFields r = false) ∧
    (∃ (s : State) (r : Request), Admitted s 112 false r ∧ r.length = 32 ∧ rqField r 0 1 ≤ 31 ∧ ((began s r).channel
    (rqField r 0 1)).isOpen = false ∧ channelFields r = true ∧ (((began s r).key (rqField r 2 1)).present = false ∨
    (began s r).kindTaken (rqField r 1 1) = true)) ∧
    (∃ (s : State) (r : Request), Admitted s 113 false r ∧ r.length = 4 ∧ rqField r 0 1 ≤ 31 ∧ ((began s r).channel
    (rqField r 0 1)).isOpen = false) ∧
    (∃ (s : State) (r : Request) (u : UplinkId), Admitted s 120 true r ∧ r.length = 0 ∧ (began s r).slaveUplink =
    some u) ∧
    (∃ (s : State) (r : Request), Admitted s 112 false r ∧ r.length = 32 ∧ rqField r 0 1 ≤ 31 ∧ ((began s r).channel
    (rqField r 0 1)).isOpen = false ∧ channelFields r = true ∧ ((began s r).key (rqField r 2 1)).present = true ∧
    (began s r).kindTaken (rqField r 1 1) = false ∧ (rqField r 1 1 ≠ 2 ∨ (began s r).passEndpoint (rqField r 8 2)
    (rqField r 10 1) = true)) ∧
    (∃ (s : State) (r : Request), Admitted s 112 false r ∧ r.length = 32 ∧ rqField r 0 1 ≤ 31 ∧ ((began s r).channel
    (rqField r 0 1)).isOpen = false ∧ channelFields r = true ∧ ((began s r).key (rqField r 2 1)).present = true ∧
    (began s r).kindTaken (rqField r 1 1) = false ∧ rqField r 1 1 = 2 ∧ (began s r).passEndpoint (rqField r 8 2)
    (rqField r 10 1) = false) :=
  ⟨⟨blank (ch act 0 oc), op 113 (rq [0,0,0,0]), ⟨by decide +kernel, by decide +kernel, by decide +kernel⟩,
   by decide +kernel⟩,
    ⟨blank (ch act 0 oc), op 114 (rq [0,0,0,0]), ⟨by decide +kernel, by decide +kernel, by decide +kernel⟩,
    by decide +kernel⟩,
    ⟨blank act, op 120 (rq []), ⟨by decide +kernel, by decide +kernel, by decide +kernel⟩, by decide +kernel⟩,
    ⟨blank act, op 113 (rq [32,0,0,0]), ⟨by decide +kernel, by decide +kernel, by decide +kernel⟩, by decide +kernel⟩,
    ⟨blank act, op 114 (rq [32,0,0,0]), ⟨by decide +kernel, by decide +kernel, by decide +kernel⟩, by decide +kernel⟩,
    ⟨blank act, op 112 (opn 32 0 1 0 0), ⟨by decide +kernel, by decide +kernel, by decide +kernel⟩,
    by decide +kernel⟩,
    ⟨blank (ch act 0 oc), op 112 (opn 0 0 1 0 0), ⟨by decide +kernel, by decide +kernel, by decide +kernel⟩,
    by decide +kernel⟩,
    ⟨blank act, op 112 (opn 0 4 1 0 0), ⟨by decide +kernel, by decide +kernel, by decide +kernel⟩, by decide +kernel⟩,
    ⟨blank act, op 112 (opn 0 0 1 0 0), ⟨by decide +kernel, by decide +kernel, by decide +kernel⟩, by decide +kernel⟩,
    ⟨blank act, op 113 (rq [0,0,0,0]), ⟨by decide +kernel, by decide +kernel, by decide +kernel⟩, by decide +kernel⟩,
    ⟨blank { act.setStruck 0x320 false with csr.words := [(rUPLINK 0, 0x4001), (rUPLINK 0 + 4, 0xC)] }, op 120 (rq
    []), u0, ⟨by decide +kernel, by decide +kernel, by decide +kernel⟩, by decide +kernel⟩,
    ⟨blank K_2, tag 0x70 (opn 0 0 1 0 0), ⟨by decide +kernel, by decide +kernel, by decide +kernel⟩,
    by decide +kernel⟩,
    ⟨blank K_2, tag 0x70 (opn 0 2 1 0 1), ⟨by decide +kernel, by decide +kernel, by decide +kernel⟩,
    by decide +kernel⟩⟩

theorem witness_ChannelTraffic :
    (∃ (s : State) (d : Datagram) (ch : ChannelId) (i : ℕ) (k : ℕ), s.blade.flt.fenced = false ∧ d.type = 1 ∧
    (s.blade.frameIn (↑d.uplink) d.vlan d.fragment).1 = true ∧ (s.blade.frameIn (↑d.uplink) d.vlan d.fragment).2.owns
    (↑d.uplink) d.dest = true ∧ d.destPort.toNat = BitVec.toNat ((s.blade.frameIn (↑d.uplink) d.vlan
    d.fragment).2.reg rCMD) / 2 ^ 16 ∧ (s.blade.active = false ∨ s.blade.datagramGood d = false) ∧ d.type ≠ 2 ∧
    s.blade.channelReady ↑ch = true ∧ (s.blade.channel ↑ch).resend = [] ∧ (s.blade.channel ↑ch).sent.length < 64 ∧
    (s.blade.channel ↑ch).sending = some (i, k) ∧ (s.blade.channel ↑ch).rxAcked ≠ none ∧ ((s.blade.channel
    ↑ch).ackDue = true ∨ (s.blade.channel ↑ch).duplicateAck = true) ∧ ((s.blade.channel ↑ch).sent = [] ∨ BitVec.toNat
    (s.blade.frame - (s.blade.channel ↑ch).base) < 4 * (s.blade.channel ↑ch).retxMs) ∧ ((s.blade.channel ↑ch).isOpen
    = false ∨ (s.blade.channel ↑ch).stalled = true ∨ (s.blade.channel ↑ch).sent = [] ∧ (s.blade.key ↑(s.blade.channel
    ↑ch).slot).present = true ∨ BitVec.toNat (s.blade.frame - (s.blade.channel ↑ch).progress) < 8000)) ∧
    (∃ (s : State) (ch : ChannelId), (s.blade.channel ↑ch).isOpen = true ∧ (s.blade.channel ↑ch).stalled = false ∧
    ((s.blade.channel ↑ch).sent ≠ [] ∨ (s.blade.key ↑(s.blade.channel ↑ch).slot).present = false) ∧ 8000 ≤
    BitVec.toNat (s.blade.frame - (s.blade.channel ↑ch).progress) ∧ s.blade.channelReady ↑ch = true ∧
    ((s.blade.channel ↑ch).rxAcked = none ∨ (s.blade.channel ↑ch).ackDue = false ∧ (s.blade.channel ↑ch).duplicateAck
    = false) ∧ (s.blade.channel ↑ch).sent ≠ [] ∧ 4 * (s.blade.channel ↑ch).retxMs ≤ BitVec.toNat (s.blade.frame -
    (s.blade.channel ↑ch).base) ∧ s.blade.flt.fenced = false) ∧
    (∃ (s : State) (ch : ChannelId) (x : SentSegment) (rest : List SentSegment), s.blade.channelReady ↑ch = true ∧
    (s.blade.channel ↑ch).resend = x :: rest ∧ s.blade.flt.fenced = false) ∧
    (∃ (s : State) (d : Datagram), d.type = 2 ∧ (s.blade.frameIn (↑d.uplink) d.vlan d.fragment).1 = true ∧
    (s.blade.frameIn (↑d.uplink) d.vlan d.fragment).2.owns (↑d.uplink) d.dest = true ∧ d.destPort.toNat =
    BitVec.toNat ((s.blade.frameIn (↑d.uplink) d.vlan d.fragment).2.reg rCMD) / 2 ^ 16 ∧ (s.blade.active = false ∨
    s.blade.datagramGood d = false) ∧ d.type ≠ 1) ∧
    (∃ (s : State) (ch : ChannelId), s.blade.channelReady ↑ch = true ∧ (s.blade.channel ↑ch).resend = [] ∧ 64 ≤
    (s.blade.channel ↑ch).sent.length) ∧
    (∃ (s : State) (ch : ChannelId), s.blade.channelReady ↑ch = true ∧ (s.blade.channel ↑ch).resend = [] ∧
    (s.blade.channel ↑ch).sent.length < 64 ∧ (s.blade.channel ↑ch).sending = none ∧ (s.blade.channel ↑ch).kind ≠ 1 ∧
    s.blade.oldestVisible (chanOut ↑ch) = none) ∧
    (∃ (s : State) (d : Datagram) (ch : ChannelId), ((s.blade.frameIn (↑d.uplink) d.vlan d.fragment).1 = false ∨
    (s.blade.frameIn (↑d.uplink) d.vlan d.fragment).2.owns (↑d.uplink) d.dest = false ∨ d.destPort.toNat ≠
    BitVec.toNat ((s.blade.frameIn (↑d.uplink) d.vlan d.fragment).2.reg rCMD) / 2 ^ 16) ∧ d.type ≠ 2 ∧
    s.blade.channelReady ↑ch = false) ∧
    (∃ (s : State) (d : Datagram) (x : SentSegment) (rest : List SentSegment), (s.blade.frameIn (↑d.uplink) d.vlan
    d.fragment).1 = true ∧ (s.blade.frameIn (↑d.uplink) d.vlan d.fragment).2.owns (↑d.uplink) d.dest = true ∧
    d.destPort.toNat = BitVec.toNat ((s.blade.frameIn (↑d.uplink) d.vlan d.fragment).2.reg rCMD) / 2 ^ 16 ∧
    s.blade.active = true ∧ s.blade.datagramGood d = true ∧ d.type = 2 ∧ BitVec.getLsbD d.flags 2 = true ∧
    (s.blade.channel (BitVec.toNat d.channel)).sent = x :: rest ∧ x.sequence = d.ack) ∧
    (∃ (s : State) (d : Datagram), (s.blade.frameIn (↑d.uplink) d.vlan d.fragment).1 = true ∧ (s.blade.frameIn
    (↑d.uplink) d.vlan d.fragment).2.owns (↑d.uplink) d.dest = true ∧ d.destPort.toNat = BitVec.toNat
    ((s.blade.frameIn (↑d.uplink) d.vlan d.fragment).2.reg rCMD) / 2 ^ 16 ∧ s.blade.active = true ∧
    s.blade.datagramGood d = true ∧ d.type = 1 ∧ d.sequence = (s.blade.channel (BitVec.toNat d.channel)).rxExpected ∧
    (s.blade.channel (BitVec.toNat d.channel)).beyond < 64 ∧ s.blade.channelHeld (BitVec.toNat d.channel) = false ∧
    ((s.blade.channel (BitVec.toNat d.channel)).kind = 1 ∨ (s.blade.channel (BitVec.toNat d.channel)).kind = 3)) ∧
    (∃ (s : State) (d : Datagram), (s.blade.frameIn (↑d.uplink) d.vlan d.fragment).1 = true ∧ (s.blade.frameIn
    (↑d.uplink) d.vlan d.fragment).2.owns (↑d.uplink) d.dest = true ∧ d.destPort.toNat = BitVec.toNat
    ((s.blade.frameIn (↑d.uplink) d.vlan d.fragment).2.reg rCMD) / 2 ^ 16 ∧ s.blade.active = true ∧
    s.blade.datagramGood d = true ∧ d.type = 1 ∧ (d.sequence ≠ (s.blade.channel (BitVec.toNat d.channel)).rxExpected
    ∨ 64 ≤ (s.blade.channel (BitVec.toNat d.channel)).beyond ∨ s.blade.channelHeld (BitVec.toNat d.channel) = true)) ∧
    (∃ (s : State) (d : Datagram), s.blade.flt.fenced = true ∧ ((s.blade.frameIn (↑d.uplink) d.vlan d.fragment).1 =
    false ∨ (s.blade.frameIn (↑d.uplink) d.vlan d.fragment).2.owns (↑d.uplink) d.dest = false ∨ d.destPort.toNat ≠
    BitVec.toNat ((s.blade.frameIn (↑d.uplink) d.vlan d.fragment).2.reg rCMD) / 2 ^ 16) ∧ d.type ≠ 1) ∧
    (∃ (s : State) (d : Datagram), (s.blade.frameIn (↑d.uplink) d.vlan d.fragment).1 = true ∧ (s.blade.frameIn
    (↑d.uplink) d.vlan d.fragment).2.owns (↑d.uplink) d.dest = true ∧ d.destPort.toNat = BitVec.toNat
    ((s.blade.frameIn (↑d.uplink) d.vlan d.fragment).2.reg rCMD) / 2 ^ 16 ∧ s.blade.active = true ∧
    s.blade.datagramGood d = true ∧ d.type = 2 ∧ (BitVec.getLsbD d.flags 2 = false ∨ ∀ y ∈ (s.blade.channel
    (BitVec.toNat d.channel)).sent, y.sequence ≠ d.ack)) :=
  ⟨⟨blank (B0 { oc_2 with sending := some (0, 0), rxAcked := some 5, ackDue := true }), bad_2, ch_2, (0 : Nat), (0 :
   Nat), by decide +kernel⟩,
    ⟨blank { B0 { oc_2 with sent := [sg 0 0], retxMs := 1 } with frame := 8000 }, ch_2, by decide +kernel⟩,
    ⟨blank (B0 { oc_2 with resend := [sg 0 0] }), ch_2, sg 0 0, R_2, by decide +kernel⟩,
    ⟨blank (B0_2 oc_2), dbad, by decide +kernel⟩,
    ⟨blank (B0 { oc_2 with sent := List.replicate 64 (sg 0 0) }), ch_2, by decide +kernel⟩,
    ⟨blank (B0 { oc_2 with kind := 0 }), ch_2, by decide +kernel⟩,
    ⟨blank R0, d0 1 0 0 0, ch_2, by decide +kernel⟩,
    ⟨blank (B0 { oc_2 with sent := [sg 0 0] }), d0 2 4 0 3, sg 0 0, R_2, by decide +kernel⟩,
    ⟨blank (B0 oc_2), d0 1 0 0 0, by decide +kernel⟩,
    ⟨blank (B0 { oc_2 with rxExpected := 64 }), d0 1 0 64 0, by decide +kernel⟩,
    ⟨blank { B0 oc_2 with flt.fenced := true }, d0 2 4 0 3, by decide +kernel⟩,
    ⟨blank (B0 { oc_2 with sent := [] }), d0 2 4 0 3, by decide +kernel⟩⟩

theorem witness_UplinkEvents :
    (∃ (s : State) (u : UplinkId) (t4 : BitVec 32) (t6 : BitVec 128) (vlan : Option (BitVec 12)) (x : PtpMessage),
    s.blade.flt.fenced = false ∧ s.blade.uplinkOn ↑u = true ∧ s.blade.tagFits (↑u) vlan = true ∧ s.blade.owns4 (↑u)
    t4 = true ∧ s.blade.owns6 (↑u) t6 = true ∧ s.blade.owns (↑u) t6 = true ∧ ((s.blade.frameIn (↑u) x.vlan false).1
    && s.blade.flag (rUPLINK ↑u) 14 && decide (BitVec.toNat x.domain = s.blade.field (rUPLINK ↑u) 16 8) && decide
    (x.state.toNat ≤ 4)) = true ∧ (s.blade.eng.announcements = 0 ∨ s.blade.active = false)) ∧
    (∃ (s : State) (u : UplinkId) (vlan : Option (BitVec 12)) (x : PtpMessage) (up : Bool), s.blade.flt.fenced =
    false ∧ (s.blade.uplinkOn ↑u = false ∨ s.blade.tagFits (↑u) vlan = false) ∧ ((s.blade.frameIn (↑u) x.vlan
    false).1 && s.blade.flag (rUPLINK ↑u) 14 && decide (BitVec.toNat x.domain = s.blade.field (rUPLINK ↑u) 16 8) &&
    decide (x.state.toNat ≤ 4)) = false ∧ up = false) ∧
    (∃ (s : State), s.blade.flt.fenced = true) ∧
    (∃ (s : State) (u : UplinkId) (t4 : BitVec 32) (t6 : BitVec 128) (vlan : Option (BitVec 12)), s.blade.flt.fenced
    = false ∧ s.blade.uplinkOn ↑u = true ∧ s.blade.tagFits (↑u) vlan = true ∧ s.blade.owns4 (↑u) t4 = false ∧
    s.blade.owns6 (↑u) t6 = false ∧ s.blade.owns (↑u) t6 = false) ∧
    (∃ (s : State), 0 < s.blade.eng.announcements ∧ s.blade.active = true) :=
  ⟨⟨blank (uplink1 act), u1, (0x0A000001 : BitVec 32), (uplink1 act).address6 (rUPLINK 1 + 0x20), noVlan, ptp,
   by decide +kernel⟩,
    ⟨blank act, u1, noVlan, ptp, false, by decide +kernel⟩,
    ⟨blank { uplink1 act with flt.fenced := true }, by decide +kernel⟩,
    ⟨blank (uplink2 act), u2, (0x0A000002 : BitVec 32), (7 : BitVec 128), noVlan, by decide +kernel⟩,
    ⟨blank { uplink1 act with eng.announcements := 2 }, by decide +kernel⟩⟩

end Sys2Proof.Tests
end

