-- ==== Sys2Proof/Tests/Witness5.lean ====
section
/-! SUPPORT. For every statement a concrete state and operands that meet its hypotheses together, clause by clause: part 5. -/

open Sys2Proof Sys2Proof.Machine Sys2Proof.Safety

-- One proof at a time: every proof is an evaluation in the kernel.
set_option Elab.async false

namespace Sys2Proof.Tests

theorem witness_TimeEvents :
    (∃ (s : State) (n : Fin 4) (src : BitVec 11) (n : ℕ), (decide (4 ≤ s.blade.hw.startStep.toNat) &&
    !s.blade.flt.fenced) = true ∧ s.blade.active = true ∧ 1 ≤ ↑n ∧ (∀ e ∈ (s.blade.delay ↑n).all, 1 < e.left) ∧
    s.blade.fineTicks < 249 ∧ (∀ e ∈ (s.blade.delay 0).all, 1 < e.left) ∧ ((List.map (fun x => x.1)
    s.blade.lan.halyards).Nodup) ∧ ((s.blade.source src.toNat).sticky && decide ((s.blade.source src.toNat).eff.toNat
    = 1) && decide ((s.blade.source src.toNat).deadline = 1)) = true ∧ s.blade.flt.windowLeft = 0 ∧
    s.blade.flt.fencing = false ∧ s.blade.aliveRuns = true ∧ (s.blade.active = false ∨ s.blade.flt.moduleRuns =
    false)) ∧
    (∃ (s : State) (src : BitVec 11), ((s.blade.source src.toNat).sticky && decide ((s.blade.source
    src.toNat).eff.toNat = 1) && decide ((s.blade.source src.toNat).deadline = 1)) = false ∧ s.blade.flt.windowLeft ≠
    0 ∧ s.blade.flt.fencing = true) ∧
    (∃ (s : State), (decide (4 ≤ s.blade.hw.startStep.toNat) && !s.blade.flt.fenced) = true ∧ (s.blade.pair.role =
    BladeRole.standby ∨ s.blade.pair.role = BladeRole.active ∧ s.blade.pair.detected = true) ∧ s.blade.fineTicks <
    249 ∧ s.blade.active = false) ∧
    (∃ (s : State), (decide (4 ≤ s.blade.hw.startStep.toNat) && !s.blade.flt.fenced) = false ∧ s.blade.aliveRuns =
    false) ∧
    (∃ (s : State), (decide (4 ≤ s.blade.hw.startStep.toNat) && !s.blade.flt.fenced) = true ∧ s.blade.pair.role =
    BladeRole.starting) ∧
    (∃ (s : State), (decide (4 ≤ s.blade.hw.startStep.toNat) && !s.blade.flt.fenced) = true ∧ s.blade.active = true ∧
    s.blade.joined = true ∧ s.blade.struck fnToggle = false ∧ s.blade.mirrors = true) ∧
    (∃ (s : State), s.blade.aliveRuns = true ∧ s.blade.active = true ∧ s.blade.flt.moduleRuns = true) ∧
    (∃ (s : State), (decide (4 ≤ s.blade.hw.startStep.toNat) && !s.blade.flt.fenced) = true ∧ 249 ≤
    s.blade.fineTicks) :=
  ⟨⟨blank (run (act.setSource 65 so)), n1, src_3, (65 : Nat), by decide +kernel⟩,
    ⟨blank { run act with flt.windowLeft := 5, flt.fencing := true }, src_3, by decide +kernel⟩,
    ⟨blank (run sb), by decide +kernel⟩,
    ⟨blank act, by decide +kernel⟩,
    ⟨blank (run R0), by decide +kernel⟩,
    ⟨blank (J (run ((fl_2 act).setStruck 0x340 false))), by decide +kernel⟩,
    ⟨blank { run_2 act with flt.moduleRuns := true }, by decide +kernel⟩,
    ⟨blank { run (fl_2 act) with fineTicks := 249 }, by decide +kernel⟩⟩

theorem witness_ToggleBlocks :
    (∃ (s : State) (k : Fin 4) (sq : Word32) (addr : Word32) (v : Word32), s.blade.linkRuns = true ∧ s.blade.armed
    192 1 = false ∧ s.blade.pair.duplex ≠ Duplex.doubt ∧ s.blade.blockArrives.hw.waitingPartner = false ∧
    s.blade.blockArrives.follows = true ∧ s.blade.blockArrives.isStandby = true ∧ s.blade.blockArrives.joined = true
    ∧ s.blade.blockArrives.active = false ∧ (s.blade.blockArrives.pair.duplex = Duplex.joined ∨
    s.blade.blockArrives.pair.copyDone = true) ∧ (s.blade.blockArrives.followWrite none (BitVec.toNat addr) v).1 =
    true ∧ BitVec.toNat (s.blade.blockArrives.key ↑k).last < BitVec.toNat sq ∧ (s.blade.blockArrives.active = false ∨
    s.blade.blockArrives.flt.fatal = true)) ∧
    (∃ (s : State), s.blade.linkRuns = true ∧ s.blade.armed 192 1 = false ∧ s.blade.blockArrives.active = true ∧
    (s.blade.blockArrives.joined = true ∨ s.blade.blockArrives.pair.duplex = Duplex.joining) ∧
    (s.blade.blockArrives.isStandby = false ∨ s.blade.blockArrives.joined = false) ∧ s.blade.blockArrives.follows =
    false ∧ s.blade.blockArrives.flt.fatal = false ∧ s.blade.blockArrives.pair.duplex = Duplex.joining ∧
    s.blade.blockArrives.pair.copyDone = false) ∧
    (∃ (s : State), s.blade.linkRuns = false) ∧
    (∃ (s : State) (e : StartFacts), s.blade.linkRuns = true ∧ s.blade.armed 192 1 = false ∧
    s.blade.blockArrives.pair.role = BladeRole.starting ∧ s.blade.blockArrives.hw.waitingPartner = true ∧
    s.blade.blockArrives.hw.startFacts = some e ∧ s.blade.blockArrives.bladeB = true ∧ s.blade.blockArrives.active =
    false ∧ s.blade.blockArrives.follows = false) ∧
    (∃ (s : State) (addr : Word32) (v : Word32), s.blade.linkRuns = true ∧ s.blade.armed 192 1 = false ∧
    s.blade.blockArrives.follows = true ∧ s.blade.blockArrives.pair.duplex = Duplex.joining ∧
    s.blade.blockArrives.pair.copyDone = false ∧ (s.blade.blockArrives.followWrite none (BitVec.toNat addr) v).1 =
    false) ∧
    (∃ (s : State), s.blade.linkRuns = true ∧ s.blade.armed 192 1 = false ∧ s.blade.blockArrives.active = true ∧
    s.blade.blockArrives.flt.fatal = false ∧ s.blade.blockArrives.pair.duplex = Duplex.joining ∧
    s.blade.blockArrives.pair.copyDone = true) ∧
    (∃ (s : State) (k : Fin 4) (sq : Word32), s.blade.linkRuns = true ∧ s.blade.armed 192 1 = false ∧ BitVec.toNat sq
    ≤ BitVec.toNat (s.blade.blockArrives.key ↑k).last) :=
  ⟨⟨blank (sby .joined), k1_2, (3 : Word32), (0x02050020 : Word32), (4 : Word32), by decide +kernel⟩,
    ⟨blank (ac .joining), by decide +kernel⟩,
    ⟨blank R0, by decide +kernel⟩,
    ⟨blank st, e0_2, by decide +kernel⟩,
    ⟨blank (sby .joining), (0x020E0000 : Word32), (4 : Word32), by decide +kernel⟩,
    ⟨blank { ac .joining with pair.copyDone := true }, by decide +kernel⟩,
    ⟨blank ((sby .joined).setKeySlot 1 { key := [1], last := 3, floor := 0, request := [], reply := [] }), k1_2, (3 :
    Word32), by decide +kernel⟩⟩

theorem witness_PairEvents :
    (∃ (s : State) (skew : ℤ) (x : MuxId) (e : Bool), s.blade.isStandby = true ∧ s.blade.joined = true ∧
    (s.blade.pair.partnerClaim && s.blade.pair.partnerAlive) = true ∧ s.blade.flt.fenced = false ∧
    s.blade.pair.muxChosen.contains (muxNo x) = true ∧ s.blade.pair.muxB.contains (muxNo x) = false ∧ ((if
    s.blade.bladeB = true then s.blade.pair.partnerClaim && (s.blade.pair.partnerAlive || e) else s.blade.pair.claim
    && !s.blade.flt.fenced && decide (4 ≤ s.blade.hw.startStep.toNat) && !(s.blade.source 290).sticky) = false) ∧
    ((if s.blade.bladeB = true then s.blade.pair.claim && !s.blade.flt.fenced && decide (4 ≤
    s.blade.hw.startStep.toNat) && !(s.blade.source 290).sticky else s.blade.pair.partnerClaim &&
    (s.blade.pair.partnerAlive || e)) = true) ∧ (s.blade.pair.duplex ≠ Duplex.joined ∨ s.blade.flt.fenced = true ∨
    s.blade.struck fnToggle = true) ∧ s.blade.pair.duplex = Duplex.doubt ∧ s.blade.field rTOGGLE 8 8 ≤
    s.blade.pair.doubtFrames ∧ (s.blade.active = false ∨ s.blade.pair.duplex ≠ Duplex.doubt ∨
    s.blade.pair.doubtFrames < s.blade.field rTOGGLE 16 8) ∧ skew.natAbs ≤ 20) ∧
    (∃ (s : State), s.blade.active = true ∧ s.blade.pair.duplex = Duplex.doubt ∧ s.blade.pair.claim = true ∧
    s.blade.bladeB = true ∧ (s.blade.pair.partnerClaim && s.blade.pair.partnerAlive) = false ∧ (s.blade.isStandby =
    false ∨ s.blade.pair.duplex ≠ Duplex.doubt ∨ (s.blade.pair.partnerClaim && s.blade.pair.partnerAlive) = false ∨
    s.blade.pair.doubtFrames < s.blade.field rTOGGLE 8 8) ∧ s.blade.field rTOGGLE 16 8 ≤ s.blade.pair.doubtFrames ∧
    (s.blade.isStandby = false ∨ s.blade.flt.fenced = true)) ∧
    (∃ (s : State) (x : MuxId) (e : Bool), s.blade.active = true ∧ s.blade.pair.duplex ≠ Duplex.doubt ∧
    (s.blade.pair.partnerClaim && s.blade.pair.partnerAlive) = false ∧ (s.blade.pair.claim = false ∨ s.blade.bladeB =
    false) ∧ s.blade.pair.muxChosen.contains (muxNo x) = true ∧ s.blade.pair.muxB.contains (muxNo x) = false ∧ ((if
    s.blade.bladeB = true then s.blade.pair.partnerClaim && (s.blade.pair.partnerAlive || e) else s.blade.pair.claim
    && !s.blade.flt.fenced && decide (4 ≤ s.blade.hw.startStep.toNat) && !(s.blade.source 290).sticky) = true ∨ (if
    s.blade.bladeB = true then s.blade.pair.claim && !s.blade.flt.fenced && decide (4 ≤ s.blade.hw.startStep.toNat)
    && !(s.blade.source 290).sticky else s.blade.pair.partnerClaim && (s.blade.pair.partnerAlive || e)) = false) ∧
    s.blade.pair.duplex = Duplex.joined ∧ s.blade.flt.fenced = false ∧ s.blade.struck fnToggle = false ∧
    (s.blade.active = false ∨ s.blade.pair.partnerAlive = true)) ∧
    (∃ (s : State), s.blade.isStandby = true ∧ s.blade.joined = false ∧ (s.blade.pair.partnerClaim &&
    s.blade.pair.partnerAlive) = true ∧ s.blade.flt.fenced = false ∧ s.blade.pair.handingOver = none) ∧
    (∃ (s : State), s.blade.active = true ∧ s.blade.pair.duplex ≠ Duplex.doubt ∧ (s.blade.pair.partnerClaim &&
    s.blade.pair.partnerAlive) = true ∧ s.blade.flt.fenced = false) ∧
    (∃ (s : State), s.blade.pair.duplex = Duplex.joined ∧ s.blade.flt.fenced = false ∧ s.blade.struck fnToggle =
    false ∧ s.blade.active = true ∧ s.blade.pair.partnerAlive = false) ∧
    (∃ (s : State) (skew : ℤ), s.blade.isStandby = true ∧ s.blade.flt.fenced = false ∧ 20 < skew.natAbs ∧
    (s.blade.pair.misaligned < 3 ∨ s.blade.joined = false ∧ s.blade.pair.duplex ≠ Duplex.joining)) ∧
    (∃ (s : State) (skew : ℤ), s.blade.isStandby = true ∧ s.blade.flt.fenced = false ∧ 20 < skew.natAbs ∧ 3 ≤
    s.blade.pair.misaligned ∧ (s.blade.joined = true ∨ s.blade.pair.duplex = Duplex.joining)) ∧
    (∃ (s : State), s.blade.isStandby = true ∧ s.blade.joined = false ∧ (s.blade.pair.partnerClaim &&
    s.blade.pair.partnerAlive) = false) ∧
    (∃ (s : State) (d : Deferred), s.blade.isStandby = true ∧ s.blade.joined = false ∧ s.blade.pair.handingOver =
    some d ∧ d.data = [0]) ∧
    (∃ (s : State) (x : MuxId) (e : Bool), s.blade.pair.muxChosen.contains (muxNo x) = false ∧ ((if s.blade.bladeB =
    true then s.blade.pair.partnerClaim && (s.blade.pair.partnerAlive || e) else s.blade.pair.claim &&
    !s.blade.flt.fenced && decide (4 ≤ s.blade.hw.startStep.toNat) && !(s.blade.source 290).sticky) = true)) ∧
    (∃ (s : State) (x : MuxId) (e : Bool), s.blade.pair.muxChosen.contains (muxNo x) = false ∧ ((if s.blade.bladeB =
    true then s.blade.pair.partnerClaim && (s.blade.pair.partnerAlive || e) else s.blade.pair.claim &&
    !s.blade.flt.fenced && decide (4 ≤ s.blade.hw.startStep.toNat) && !(s.blade.source 290).sticky) = false) ∧ ((if
    s.blade.bladeB = true then s.blade.pair.claim && !s.blade.flt.fenced && decide (4 ≤ s.blade.hw.startStep.toNat)
    && !(s.blade.source 290).sticky else s.blade.pair.partnerClaim && (s.blade.pair.partnerAlive || e)) = true)) ∧
    (∃ (s : State) (x : MuxId) (e : Bool), s.blade.pair.muxChosen.contains (muxNo x) = true ∧
    s.blade.pair.muxB.contains (muxNo x) = true ∧ ((if s.blade.bladeB = true then s.blade.pair.claim &&
    !s.blade.flt.fenced && decide (4 ≤ s.blade.hw.startStep.toNat) && !(s.blade.source 290).sticky else
    s.blade.pair.partnerClaim && (s.blade.pair.partnerAlive || e)) = false) ∧ ((if s.blade.bladeB = true then
    s.blade.pair.partnerClaim && (s.blade.pair.partnerAlive || e) else s.blade.pair.claim && !s.blade.flt.fenced &&
    decide (4 ≤ s.blade.hw.startStep.toNat) && !(s.blade.source 290).sticky) = true)) ∧
    (∃ (s : State) (x : MuxId) (e : Bool), s.blade.pair.muxChosen.contains (muxNo x) = true ∧
    s.blade.pair.muxB.contains (muxNo x) = true ∧ ((if s.blade.bladeB = true then s.blade.pair.claim &&
    !s.blade.flt.fenced && decide (4 ≤ s.blade.hw.startStep.toNat) && !(s.blade.source 290).sticky else
    s.blade.pair.partnerClaim && (s.blade.pair.partnerAlive || e)) = true ∨ (if s.blade.bladeB = true then
    s.blade.pair.partnerClaim && (s.blade.pair.partnerAlive || e) else s.blade.pair.claim && !s.blade.flt.fenced &&
    decide (4 ≤ s.blade.hw.startStep.toNat) && !(s.blade.source 290).sticky) = false)) ∧
    (∃ (s : State) (x : MuxId) (e : Bool), s.blade.pair.muxChosen.contains (muxNo x) = false ∧ ((if s.blade.bladeB =
    true then s.blade.pair.partnerClaim && (s.blade.pair.partnerAlive || e) else s.blade.pair.claim &&
    !s.blade.flt.fenced && decide (4 ≤ s.blade.hw.startStep.toNat) && !(s.blade.source 290).sticky) = false) ∧ ((if
    s.blade.bladeB = true then s.blade.pair.claim && !s.blade.flt.fenced && decide (4 ≤ s.blade.hw.startStep.toNat)
    && !(s.blade.source 290).sticky else s.blade.pair.partnerClaim && (s.blade.pair.partnerAlive || e)) = false)) :=
  ⟨⟨blank { sby_2 .doubt with pair.doubtFrames := 0xC }, (20 : Int), mx, true, by decide +kernel⟩,
    ⟨blank { ac_2 .doubt with pair.doubtFrames := 0x1E, bladeB := true }, by decide +kernel⟩,
    ⟨blank (ac_2 .joined), mx, true, by decide +kernel⟩,
    ⟨blank (sby_2 .unjoined), by decide +kernel⟩,
    ⟨blank { ac_2 .solo with pair.partnerClaim := true, bladeB := true }, by decide +kernel⟩,
    ⟨blank { ac_2 .joined with pair.partnerAlive := false, pair.unreleased := [(7, 9)] }, by decide +kernel⟩,
    ⟨blank (sby_2 .joined), (-21 : Int), by decide +kernel⟩,
    ⟨blank { sby_2 .joined with pair.misaligned := 3 }, (-21 : Int), by decide +kernel⟩,
    ⟨blank { sby_2 .unjoined with pair.partnerAlive := false }, by decide +kernel⟩,
    ⟨blank { sby_2 .unjoined with pair.handingOver := some D_2 }, D_2, by decide +kernel⟩,
    ⟨blank (ac_3 .solo), mx, true, by decide +kernel⟩,
    ⟨blank { ac_3 .solo with bladeB := true }, mx, true, by decide +kernel⟩,
    ⟨blank { ac_2 .solo with pair.partnerAlive := false, pair.muxChosen := [10], pair.muxB := [10] }, mx, true,
    by decide +kernel⟩,
    ⟨blank { ac_2 .solo with bladeB := true, pair.muxChosen := [10], pair.muxB := [10] }, mx, true,
    by decide +kernel⟩,
    ⟨blank { ac_3 .solo with bladeB := true, pair.claim := false }, mx, true, by decide +kernel⟩⟩

theorem witness_JoinEvents :
    (∃ (s : State), (decide (s.blade.pair.role = BladeRole.active) && s.blade.pair.detected && s.blade.pair.claim &&
    !s.blade.flt.fenced) = true ∧ (s.blade.hw.startFacts = none ∨ s.blade.hw.waitingPartner = false) ∧
    (s.blade.hw.startFacts = none ∨ s.blade.active = false ∨ s.blade.hw.startStep ≠ 9) ∧ s.blade.mirrors = true ∧
    s.blade.flt.fenced = false ∧ (s.blade.pair.joinRetry = false ∨ s.blade.mayJoin = false ∨ s.blade.pair.lock =
    false) ∧ (s.blade.pair.duplex ≠ Duplex.joining ∨ s.blade.pair.copyDone = true) ∧ s.blade.pair.duplex ≠
    Duplex.joining) ∧
    (∃ (s : State) (f : PairFacts) (v : PairFacts), (decide (s.blade.pair.role = BladeRole.active) &&
    s.blade.pair.detected && s.blade.pair.claim && !s.blade.flt.fenced) = false ∧ s.blade.mayJoin = true ∧
    s.blade.matchesPartner f = true ∧ s.blade.armed 192 2 = false ∧ s.blade.pair.joinRetry = true ∧ s.blade.pair.lock
    = true ∧ s.blade.pair.partnerFacts = some v ∧ s.blade.matchesPartner v = true) ∧
    (∃ (s : State), s.blade.pair.duplex = Duplex.joining ∧ s.blade.pair.copyDone = false ∧ s.blade.isStandby = true) ∧
    (∃ (s : State) (e : StartFacts), s.blade.hw.startFacts = some e ∧ s.blade.hw.waitingPartner = true ∧
    e.carriersReady ≠ 0 ∧ s.blade.mayJoin = false ∧ (s.blade.mirrors = false ∨ s.blade.flt.fenced = true)) ∧
    (∃ (s : State) (e : StartFacts), s.blade.hw.startFacts = some e ∧ s.blade.active = true ∧ s.blade.hw.startStep =
    9) ∧
    (∃ (s : State) (f : PairFacts), s.blade.mayJoin = true ∧ s.blade.matchesPartner f = false ∧ s.blade.armed 192 2 =
    false ∧ s.blade.pair.joinRetry = true ∧ s.blade.pair.lock = true ∧ (∀ (v : PairFacts), s.blade.pair.partnerFacts
    = some v → s.blade.matchesPartner v = false)) ∧
    (∃ (s : State) (e : StartFacts), s.blade.hw.startFacts = some e ∧ s.blade.hw.waitingPartner = true ∧
    e.carriersReady = 0) ∧
    (∃ (s : State), s.blade.pair.duplex = Duplex.joining ∧ s.blade.pair.copyDone = false ∧ s.blade.isStandby = false) ∧
    (∃ (s : State) (f : PairFacts), s.blade.mayJoin = true ∧ s.blade.matchesPartner f = true ∧ s.blade.isStandby =
    false) :=
  ⟨⟨blank { ac_3 .joined with pair.detected := true }, by decide +kernel⟩,
    ⟨blank { sby_2 .unjoined with pair.joinRetry := true, pair.partnerFacts := some (pf 0) }, pf 0, pf 0,
    by decide +kernel⟩,
    ⟨blank (sby_2 .joining), by decide +kernel⟩,
    ⟨blank (st_2 3 (run_3 R0)), { e0_2 with carriersReady := 3 }, by decide +kernel⟩,
    ⟨blank { st_2 0 (ac_2 .solo) with hw.startStep := 9, hw.waitingPartner := false },
    { e0_2 with carriersReady := 0 }, by decide +kernel⟩,
    ⟨blank { sby_2 .unjoined with pair.joinRetry := true }, { pf 1 with sysId := 5 }, by decide +kernel⟩,
    ⟨blank (st_2 0 (run_3 R0)), { e0_2 with carriersReady := 0 }, by decide +kernel⟩,
    ⟨blank (ac_2 .joining), by decide +kernel⟩,
    ⟨blank { run_4 act with hw.nor := slot0 }, pf_2, by decide +kernel⟩⟩

theorem witness_RoleCommands :
    (∃ (s : State) (r : Request), Admitted s 83 true r ∧ Armed s r ∧ r.length = 4 ∧ rqField r 0 1 ≤ 1 ∧ (rqField r 1
    1 = 1 ∨ rqField r 1 1 = 2) ∧ (rqField r 0 1 = if ((began s r).disarm Port.command).bladeB = true then 1 else 0) ∧
    ((began s r).disarm Port.command).active = false ∧ rqField r 1 1 = 2 ∧ ((began s r).disarm
    Port.command).hw.startFailed = false ∧ ((began s r).disarm Port.command).flt.fenced = false) ∧
    (∃ (s : State) (r : Request), Admitted s 83 true r ∧ Armed s r ∧ r.length = 4 ∧ rqField r 0 1 ≤ 1 ∧ (rqField r 1
    1 = 1 ∨ rqField r 1 1 = 2) ∧ (rqField r 0 1 = if ((began s r).disarm Port.command).bladeB = true then 1 else 0) ∧
    ((began s r).disarm Port.command).active = false ∧ rqField r 1 1 = 1) ∧
    (∃ (s : State) (r : Request), Admitted s 80 false r ∧ Armed s r ∧ HasRoom s 80 r ∧ r.length = 0 ∧ ((began s
    r).disarm Port.command).pair.handingOver = none ∧ ((began s r).disarm Port.command).pair.duplex = Duplex.joined) ∧
    (∃ (s : State) (r : Request), Admitted s 83 true r ∧ ¬Armed s r ∧ r.length = 4) ∧
    (∃ (s : State) (r : Request), Admitted s 83 true r ∧ Armed s r ∧ r.length = 4 ∧ (1 < rqField r 0 1 ∨ rqField r 1
    1 = 0 ∨ 2 < rqField r 1 1)) ∧
    (∃ (s : State) (r : Request), Admitted s 83 true r ∧ Armed s r ∧ r.length = 4 ∧ rqField r 0 1 ≤ 1 ∧ (rqField r 1
    1 = 1 ∨ rqField r 1 1 = 2) ∧ (rqField r 0 1 = if ((began s r).disarm Port.command).bladeB = true then 1 else 0) ∧
    ((began s r).disarm Port.command).active = true ∧ ((began s r).disarm Port.command).pair.duplex = Duplex.joined ∧
    ((began s r).disarm Port.command).pair.handingOver = none) ∧
    (∃ (s : State) (r : Request), Admitted s 83 true r ∧ Armed s r ∧ r.length = 4 ∧ rqField r 0 1 ≤ 1 ∧ (rqField r 1
    1 = 1 ∨ rqField r 1 1 = 2) ∧ (rqField r 0 1 = if ((began s r).disarm Port.command).bladeB = true then 1 else 0) ∧
    ((began s r).disarm Port.command).active = true ∧ (((began s r).disarm Port.command).pair.duplex ≠ Duplex.joined
    ∨ ((began s r).disarm Port.command).pair.handingOver ≠ none)) ∧
    (∃ (s : State) (r : Request), Admitted s 83 true r ∧ Armed s r ∧ r.length = 4 ∧ rqField r 0 1 ≤ 1 ∧ (rqField r 1
    1 = 1 ∨ rqField r 1 1 = 2) ∧ (rqField r 0 1 ≠ if ((began s r).disarm Port.command).bladeB = true then 1 else 0) ∧
    ((began s r).disarm Port.command).pair.partnerPresent = true ∧ ((began s r).disarm Port.command).partnerClaims =
    false ∧ rqField r 1 1 = 1) ∧
    (∃ (s : State) (r : Request), Admitted s 83 true r ∧ Armed s r ∧ r.length = 4 ∧ rqField r 0 1 ≤ 1 ∧ (rqField r 1
    1 = 1 ∨ rqField r 1 1 = 2) ∧ (rqField r 0 1 ≠ if ((began s r).disarm Port.command).bladeB = true then 1 else 0) ∧
    ((began s r).disarm Port.command).pair.partnerPresent = true ∧ ((began s r).disarm Port.command).partnerClaims =
    false ∧ rqField r 1 1 = 2) ∧
    (∃ (s : State) (r : Request), Admitted s 83 true r ∧ Armed s r ∧ r.length = 4 ∧ rqField r 0 1 ≤ 1 ∧ (rqField r 1
    1 = 1 ∨ rqField r 1 1 = 2) ∧ (rqField r 0 1 ≠ if ((began s r).disarm Port.command).bladeB = true then 1 else 0) ∧
    ((began s r).disarm Port.command).pair.partnerPresent = false) ∧
    (∃ (s : State) (r : Request), Admitted s 83 true r ∧ Armed s r ∧ r.length = 4 ∧ rqField r 0 1 ≤ 1 ∧ (rqField r 1
    1 = 1 ∨ rqField r 1 1 = 2) ∧ (rqField r 0 1 ≠ if ((began s r).disarm Port.command).bladeB = true then 1 else 0) ∧
    ((began s r).disarm Port.command).pair.partnerPresent = true ∧ ((began s r).disarm Port.command).partnerClaims =
    true ∧ ((began s r).disarm Port.command).joined = true ∧ ((began s r).disarm Port.command).pair.handingOver =
    none ∧ (rqField r 1 1 = 1 ∨ ((began s r).disarm Port.command).linkRuns = true)) ∧
    (∃ (s : State) (r : Request), Admitted s 83 true r ∧ Armed s r ∧ r.length = 4 ∧ rqField r 0 1 ≤ 1 ∧ (rqField r 1
    1 = 1 ∨ rqField r 1 1 = 2) ∧ (rqField r 0 1 ≠ if ((began s r).disarm Port.command).bladeB = true then 1 else 0) ∧
    ((began s r).disarm Port.command).pair.partnerPresent = true ∧ ((began s r).disarm Port.command).partnerClaims =
    true ∧ ((began s r).disarm Port.command).joined = true ∧ (((began s r).disarm Port.command).pair.handingOver ≠
    none ∨ rqField r 1 1 = 2 ∧ ((began s r).disarm Port.command).linkRuns = false)) ∧
    (∃ (s : State) (r : Request), Admitted s 83 true r ∧ Armed s r ∧ r.length = 4 ∧ rqField r 0 1 ≤ 1 ∧ (rqField r 1
    1 = 1 ∨ rqField r 1 1 = 2) ∧ (rqField r 0 1 ≠ if ((began s r).disarm Port.command).bladeB = true then 1 else 0) ∧
    ((began s r).disarm Port.command).pair.partnerPresent = true ∧ ((began s r).disarm Port.command).partnerClaims =
    true ∧ ((began s r).disarm Port.command).joined = false) ∧
    (∃ (s : State) (r : Request), Admitted s 80 false r ∧ ¬Armed s r ∧ r.length = 0) ∧
    (∃ (s : State) (r : Request), Admitted s 80 false r ∧ Armed s r ∧ HasRoom s 80 r ∧ r.length = 0 ∧ (((began s
    r).disarm Port.command).pair.duplex = Duplex.joining ∨ ((began s r).disarm Port.command).pair.handingOver ≠
    none)) ∧
    (∃ (s : State) (r : Request), Admitted s 80 false r ∧ Armed s r ∧ HasRoom s 80 r ∧ r.length = 0 ∧ ((began s
    r).disarm Port.command).pair.handingOver = none ∧ ((began s r).disarm Port.command).pair.duplex ≠ Duplex.joining
    ∧ ((began s r).disarm Port.command).pair.duplex ≠ Duplex.joined) :=
  ⟨⟨blank (sby .unjoined), op 83 (br 0 2), ⟨by decide +kernel, by decide +kernel, by decide +kernel⟩,
   by unfold Armed; decide +kernel, by decide +kernel⟩,
    ⟨blank (sby .unjoined), op 83 (br 0 1), ⟨by decide +kernel, by decide +kernel, by decide +kernel⟩,
    by unfold Armed; decide +kernel, by decide +kernel⟩,
    ⟨blank (ac .joined), op 80 (rq [] 16), ⟨by decide +kernel, by decide +kernel, by decide +kernel⟩,
    by unfold Armed; decide +kernel, by unfold HasRoom; decide +kernel, by decide +kernel⟩,
    ⟨blank (ac .joined), op 83 (br 0 1 0), ⟨by decide +kernel, by decide +kernel, by decide +kernel⟩,
    by unfold Armed; decide +kernel, by decide +kernel⟩,
    ⟨blank (ac .joined), op 83 (br 2 1), ⟨by decide +kernel, by decide +kernel, by decide +kernel⟩,
    by unfold Armed; decide +kernel, by decide +kernel⟩,
    ⟨blank (ac .joined), op 83 (br 0 1), ⟨by decide +kernel, by decide +kernel, by decide +kernel⟩,
    by unfold Armed; decide +kernel, by decide +kernel⟩,
    ⟨blank (ha (ac .joined)), op 83 (br 0 2), ⟨by decide +kernel, by decide +kernel, by decide +kernel⟩,
    by unfold Armed; decide +kernel, by decide +kernel⟩,
    ⟨blank (ac .solo), op 83 (br 1 1), ⟨by decide +kernel, by decide +kernel, by decide +kernel⟩,
    by unfold Armed; decide +kernel, by decide +kernel⟩,
    ⟨blank (ac .solo), op 83 (br 1 2), ⟨by decide +kernel, by decide +kernel, by decide +kernel⟩,
    by unfold Armed; decide +kernel, by decide +kernel⟩,
    ⟨blank act, op 83 (br 1 2), ⟨by decide +kernel, by decide +kernel, by decide +kernel⟩,
    by unfold Armed; decide +kernel, by decide +kernel⟩,
    ⟨blank (sby .joined), op 83 (br 1 1), ⟨by decide +kernel, by decide +kernel, by decide +kernel⟩,
    by unfold Armed; decide +kernel, by decide +kernel⟩,
    ⟨blank (ha (sby .joined)), op 83 (br 1 2), ⟨by decide +kernel, by decide +kernel, by decide +kernel⟩,
    by unfold Armed; decide +kernel, by decide +kernel⟩,
    ⟨blank (sby .unjoined), op 83 (br 1 2), ⟨by decide +kernel, by decide +kernel, by decide +kernel⟩,
    by unfold Armed; decide +kernel, by decide +kernel⟩,
    ⟨blank (ac .joined), op 80 (rq []), ⟨by decide +kernel, by decide +kernel, by decide +kernel⟩,
    by unfold Armed; decide +kernel, by decide +kernel⟩,
    ⟨blank (ha (ac .joined)), op 80 (rq [] 16), ⟨by decide +kernel, by decide +kernel, by decide +kernel⟩,
    by unfold Armed; decide +kernel, by unfold HasRoom; decide +kernel, by decide +kernel⟩,
    ⟨blank (ac .solo), op 80 (rq [] 16), ⟨by decide +kernel, by decide +kernel, by decide +kernel⟩,
    by unfold Armed; decide +kernel, by unfold HasRoom; decide +kernel, by decide +kernel⟩⟩

theorem witness_ResetEvents :
    (∃ (s : State) (e : StartFacts), (s.blade.flt.fenced = false ∨ s.blade.flt.soloFence = false ∨ s.blade.flag
    33632256 0 = false) ∧ s.blade.flt.frozen = false ∧ (e.dramFirmwareOk = true ∧ (s.blade.slotGood 0 ||
    s.blade.slotGood 1) = true ∧ 32 ≤ (List.filter e.tilePasses.getLsbD (List.range 34)).length ∧ e.marchWords = [] ∧
    e.dramRestOk = true) ∧ (e.partnerPresent = false ∨ (e.partnerPresent && decide (e.partnerSysId ≠ 2166943745)) =
    true ∧ e.partnerActive = false ∧ e.bladeB = false ∨ (e.partnerPresent && decide (e.partnerSysId = 2166943745)) =
    true ∧ (e.partnerAlive = false ∨ e.partnerActive = false) ∧ e.partnerComplete = true ∧ (e.partnerAlive = false ∨
    e.bladeB = false)) ∧ e.carriersReady ≠ 0 ∧ s.blade.hw.startFailed = false ∧ s.blade.flt.fenced = false) ∧
    (∃ (s : State) (e : StartFacts), (s.blade.hw.startFailed = true ∨ s.blade.flt.fenced = true) ∧ e.dramFirmwareOk =
    false) ∧
    (∃ (s : State) (e : StartFacts), e.dramFirmwareOk = true ∧ (s.blade.slotGood 0 || s.blade.slotGood 1) = false) ∧
    (∃ (s : State) (e : StartFacts), e.dramFirmwareOk = true ∧ (s.blade.slotGood 0 || s.blade.slotGood 1) = true ∧
    (List.filter e.tilePasses.getLsbD (List.range 34)).length < 32) ∧
    (∃ (s : State) (e : StartFacts), e.dramFirmwareOk = true ∧ (s.blade.slotGood 0 || s.blade.slotGood 1) = true ∧ 32
    ≤ (List.filter e.tilePasses.getLsbD (List.range 34)).length ∧ e.marchWords = [] ∧ e.dramRestOk = false) ∧
    (∃ (s : State) (e : StartFacts), (e.dramFirmwareOk = true ∧ (s.blade.slotGood 0 || s.blade.slotGood 1) = true ∧
    32 ≤ (List.filter e.tilePasses.getLsbD (List.range 34)).length ∧ e.marchWords = [] ∧ e.dramRestOk = true) ∧
    (e.partnerPresent && decide (e.partnerSysId ≠ 2166943745)) = true ∧ (e.partnerActive = true ∨ e.bladeB = true)) ∧
    (∃ (s : State) (e : StartFacts), (e.dramFirmwareOk = true ∧ (s.blade.slotGood 0 || s.blade.slotGood 1) = true ∧
    32 ≤ (List.filter e.tilePasses.getLsbD (List.range 34)).length ∧ e.marchWords = [] ∧ e.dramRestOk = true) ∧
    (e.partnerPresent && decide (e.partnerSysId = 2166943745)) = true ∧ e.partnerAlive = true ∧ (e.partnerActive =
    true ∨ e.partnerComplete = true ∧ e.bladeB = true)) ∧
    (∃ (s : State) (e : StartFacts), (e.dramFirmwareOk = true ∧ (s.blade.slotGood 0 || s.blade.slotGood 1) = true ∧
    32 ≤ (List.filter e.tilePasses.getLsbD (List.range 34)).length ∧ e.marchWords = [] ∧ e.dramRestOk = true) ∧
    (e.partnerPresent && decide (e.partnerSysId = 2166943745)) = true ∧ (e.partnerAlive = false ∨ e.partnerActive =
    false) ∧ e.partnerComplete = false) ∧
    (∃ (s : State) (e : StartFacts), (e.dramFirmwareOk = true ∧ (s.blade.slotGood 0 || s.blade.slotGood 1) = true ∧
    32 ≤ (List.filter e.tilePasses.getLsbD (List.range 34)).length ∧ e.marchWords = [] ∧ e.dramRestOk = true) ∧
    (e.partnerPresent = false ∨ (e.partnerPresent && decide (e.partnerSysId ≠ 2166943745)) = true ∧ e.partnerActive =
    false ∧ e.bladeB = false ∨ (e.partnerPresent && decide (e.partnerSysId = 2166943745)) = true ∧ (e.partnerAlive =
    false ∨ e.partnerActive = false) ∧ e.partnerComplete = true ∧ (e.partnerAlive = false ∨ e.bladeB = false)) ∧
    e.carriersReady = 0) ∧
    (∃ (s : State), s.blade.flt.fenced = true ∧ s.blade.flt.soloFence = true ∧ s.blade.flag 33632256 0 = true) :=
  ⟨⟨blank (booted act), { e0_2 with partnerPresent := false, partnerAlive := false }, by decide +kernel⟩,
    ⟨blank { booted act with hw.startFailed := true }, { e0_2 with dramFirmwareOk := false }, by decide +kernel⟩,
    ⟨blank (bootless act), e0_2, by decide +kernel⟩,
    ⟨blank (booted act), { e0_2 with tilePasses := 0x7FFFFFFF }, by decide +kernel⟩,
    ⟨blank (booted act), { e0_2 with dramRestOk := false }, by decide +kernel⟩,
    ⟨blank (booted act), { e0_2 with partnerSysId := 5 }, by decide +kernel⟩,
    ⟨blank (booted act), { e0_2 with partnerActive := true }, by decide +kernel⟩,
    ⟨blank (booted act), e0_2, by decide +kernel⟩,
    ⟨blank (booted act), { e0_2 with partnerPresent := false, partnerAlive := false, carriersReady := 0 },
    by decide +kernel⟩,
    ⟨blank { booted act with flt.fenced := true, flt.soloFence := true }, by decide +kernel⟩⟩

theorem witness_FruCommands :
    (∃ (s : State) (r : Request), Admitted s 81 false r ∧ HasRoom s 81 r ∧ r.length = 4 ∧ (18 ≤ rqField r 0 1 ∨
    (began s r).fru (rqField r 0 1) = FruState.absent)) ∧
    (∃ (s : State) (r : Request), Admitted s 82 false r ∧ HasRoom s 82 r ∧ r.length = 4 ∧ (18 ≤ rqField r 0 1 ∨
    (began s r).fru (rqField r 0 1) = FruState.absent)) ∧
    (∃ (s : State) (r : Request), Admitted s 81 false r ∧ HasRoom s 81 r ∧ r.length = 4 ∧ (18 ≤ rqField r 0 1 ∨
    (began s r).fru (rqField r 0 1) = FruState.absent)) ∧
    (∃ (s : State) (r : Request), Admitted s 82 false r ∧ HasRoom s 82 r ∧ r.length = 4 ∧ (18 ≤ rqField r 0 1 ∨
    (began s r).fru (rqField r 0 1) = FruState.absent)) ∧
    (∃ (s : State) (r : Request), Admitted s 81 false r ∧ HasRoom s 81 r ∧ r.length = 4 ∧ rqField r 0 1 < 18 ∧ (began
    s r).fru (rqField r 0 1) ≠ FruState.absent ∧ (began s r).fruBusy = true) ∧
    (∃ (s : State) (r : Request), Admitted s 82 false r ∧ HasRoom s 82 r ∧ r.length = 4 ∧ rqField r 0 1 < 18 ∧ (began
    s r).fru (rqField r 0 1) = FruState.inService) ∧
    (∃ (s : State) (r : Request), Admitted s 81 false r ∧ HasRoom s 81 r ∧ r.length = 4 ∧ rqField r 0 1 < 18 ∧ (began
    s r).fru (rqField r 0 1) ≠ FruState.absent ∧ (began s r).fruBusy = false ∧ (rqField r 0 1 = if (began s r).bladeB
    = true then 1 else 0) ∧ (began s r).pair.handingOver ≠ none) ∧
    (∃ (s : State) (r : Request), Admitted s 82 false r ∧ HasRoom s 82 r ∧ r.length = 4 ∧ rqField r 0 1 < 18 ∧ (began
    s r).fru (rqField r 0 1) = FruState.inService) ∧
    (∃ (s : State) (r : Request), Admitted s 81 false r ∧ HasRoom s 81 r ∧ r.length = 4 ∧ rqField r 0 1 < 18 ∧ (began
    s r).fru (rqField r 0 1) ≠ FruState.absent ∧ (began s r).fruBusy = false ∧ (rqField r 0 1 = if (began s r).bladeB
    = true then 1 else 0) ∧ (began s r).pair.handingOver = none ∧ (began s r).pair.duplex ≠ Duplex.joined) ∧
    (∃ (s : State) (r : Request), Admitted s 82 false r ∧ HasRoom s 82 r ∧ r.length = 4 ∧ rqField r 0 1 < 18 ∧ (began
    s r).fru (rqField r 0 1) = FruState.inService) ∧
    (∃ (s : State) (r : Request), Admitted s 81 false r ∧ HasRoom s 81 r ∧ r.length = 4 ∧ rqField r 0 1 < 18 ∧ (began
    s r).fru (rqField r 0 1) ≠ FruState.absent ∧ (began s r).fruBusy = false ∧ (rqField r 0 1 = if (began s r).bladeB
    = true then 1 else 0) ∧ (began s r).pair.handingOver = none ∧ (began s r).pair.duplex = Duplex.joined) ∧
    (∃ (s : State) (r : Request), Admitted s 82 false r ∧ HasRoom s 82 r ∧ r.length = 4 ∧ rqField r 0 1 < 18 ∧ (began
    s r).fru (rqField r 0 1) = FruState.inService) ∧
    (∃ (s : State) (r : Request) (k : ℕ), Admitted s 81 false r ∧ HasRoom s 81 r ∧ r.length = 4 ∧ rqField r 0 1 < 18
    ∧ (began s r).fru (rqField r 0 1) ≠ FruState.absent ∧ (began s r).fruBusy = false ∧ rqField r 0 1 < 2 ∧ (rqField
    r 0 1 ≠ if (began s r).bladeB = true then 1 else 0) ∧ some (rqField r 0 1) = some k) ∧
    (∃ (s : State) (r : Request), Admitted s 82 false r ∧ HasRoom s 82 r ∧ r.length = 4 ∧ rqField r 0 1 < 18 ∧ (began
    s r).fru (rqField r 0 1) = FruState.inService) ∧
    (∃ (s : State) (r : Request) (k : ℕ), Admitted s 81 false r ∧ HasRoom s 81 r ∧ r.length = 4 ∧ rqField r 0 1 < 18
    ∧ (began s r).fru (rqField r 0 1) ≠ FruState.absent ∧ (began s r).fruBusy = false ∧ 2 ≤ rqField r 0 1 ∧ rqField r
    0 1 < 10 ∧ some (rqField r 0 1) = some k) ∧
    (∃ (s : State) (r : Request), Admitted s 82 false r ∧ HasRoom s 82 r ∧ r.length = 4 ∧ rqField r 0 1 < 18 ∧ (began
    s r).fru (rqField r 0 1) = FruState.inService) ∧
    (∃ (s : State) (r : Request) (k : ℕ), Admitted s 81 false r ∧ HasRoom s 81 r ∧ r.length = 4 ∧ rqField r 0 1 < 18
    ∧ (began s r).fru (rqField r 0 1) ≠ FruState.absent ∧ (began s r).fruBusy = false ∧ 2 ≤ rqField r 0 1 ∧ rqField r
    0 1 < 10 ∧ some (rqField r 0 1) = some k) ∧
    (∃ (s : State) (r : Request), Admitted s 82 false r ∧ HasRoom s 82 r ∧ r.length = 4 ∧ rqField r 0 1 < 18 ∧ (began
    s r).fru (rqField r 0 1) = FruState.inService) ∧
    (∃ (s : State) (r : Request), Admitted s 81 false r ∧ HasRoom s 81 r ∧ r.length = 4 ∧ rqField r 0 1 < 18 ∧ (began
    s r).fru (rqField r 0 1) ≠ FruState.absent ∧ (began s r).fruBusy = false ∧ 10 ≤ rqField r 0 1 ∧ rqField r 0 1 <
    12 ∧ ((began s r).carrier (11 - rqField r 0 1)).state ≠ CarrierState.inService) ∧
    (∃ (s : State) (r : Request), Admitted s 82 false r ∧ HasRoom s 82 r ∧ r.length = 4 ∧ rqField r 0 1 < 18 ∧ (began
    s r).fru (rqField r 0 1) = FruState.inService) ∧
    (∃ (s : State) (r : Request) (k : ℕ), Admitted s 81 false r ∧ HasRoom s 81 r ∧ r.length = 4 ∧ rqField r 0 1 < 18
    ∧ (began s r).fru (rqField r 0 1) ≠ FruState.absent ∧ (began s r).fruBusy = false ∧ 10 ≤ rqField r 0 1 ∧ rqField
    r 0 1 < 12 ∧ ((began s r).carrier (11 - rqField r 0 1)).state = CarrierState.inService ∧ ((began s
    r).carrierTakes (rqField r 0 1 - 10) = false ∨ ∀ x ∈ (began s r).hw.blocks, x.done.getLsbD (rqField r 0 1 - 10) =
    true) ∧ some (rqField r 0 1) = some k) ∧
    (∃ (s : State) (r : Request), Admitted s 82 false r ∧ HasRoom s 82 r ∧ r.length = 4 ∧ rqField r 0 1 < 18 ∧ (began
    s r).fru (rqField r 0 1) = FruState.inService) ∧
    (∃ (s : State) (r : Request), Admitted s 81 false r ∧ HasRoom s 81 r ∧ r.length = 4 ∧ rqField r 0 1 < 18 ∧ (began
    s r).fru (rqField r 0 1) ≠ FruState.absent ∧ (began s r).fruBusy = false ∧ 12 ≤ rqField r 0 1 ∧ rqField r 0 1 <
    14 ∧ (began s r).otherSupplyBad (rqField r 0 1 - 12) = true) ∧
    (∃ (s : State) (r : Request), Admitted s 82 false r ∧ HasRoom s 82 r ∧ r.length = 4 ∧ rqField r 0 1 < 18 ∧ (began
    s r).fru (rqField r 0 1) = FruState.inService) ∧
    (∃ (s : State) (r : Request), Admitted s 81 false r ∧ HasRoom s 81 r ∧ r.length = 4 ∧ rqField r 0 1 < 18 ∧ (began
    s r).fru (rqField r 0 1) ≠ FruState.absent ∧ (began s r).fruBusy = false ∧ 12 ≤ rqField r 0 1 ∧ rqField r 0 1 <
    14 ∧ (began s r).otherSupplyBad (rqField r 0 1 - 12) = false) ∧
    (∃ (s : State) (r : Request), Admitted s 82 false r ∧ HasRoom s 82 r ∧ r.length = 4 ∧ rqField r 0 1 < 18 ∧ (began
    s r).fru (rqField r 0 1) = FruState.inService) ∧
    (∃ (s : State) (r : Request), Admitted s 81 false r ∧ HasRoom s 81 r ∧ r.length = 4 ∧ rqField r 0 1 < 18 ∧ (began
    s r).fru (rqField r 0 1) ≠ FruState.absent ∧ (began s r).fruBusy = false ∧ 14 ≤ rqField r 0 1 ∧ (began s
    r).fansRunning < 4) ∧
    (∃ (s : State) (r : Request), Admitted s 82 false r ∧ HasRoom s 82 r ∧ r.length = 4 ∧ rqField r 0 1 < 18 ∧ (began
    s r).fru (rqField r 0 1) = FruState.inService) ∧
    (∃ (s : State) (r : Request) (k : ℕ), Admitted s 81 false r ∧ HasRoom s 81 r ∧ r.length = 4 ∧ rqField r 0 1 < 18
    ∧ (began s r).fru (rqField r 0 1) ≠ FruState.absent ∧ (began s r).fruBusy = false ∧ 14 ≤ rqField r 0 1 ∧ 4 ≤
    (began s r).fansRunning ∧ some (rqField r 0 1 - 2) = some k) ∧
    (∃ (s : State) (r : Request), Admitted s 82 false r ∧ HasRoom s 82 r ∧ r.length = 4 ∧ rqField r 0 1 < 18 ∧ (began
    s r).fru (rqField r 0 1) = FruState.inService) ∧
    (∃ (s : State) (r : Request) (k : ℕ), Admitted s 81 false r ∧ HasRoom s 81 r ∧ r.length = 4 ∧ rqField r 0 1 < 18
    ∧ (began s r).fru (rqField r 0 1) ≠ FruState.absent ∧ (began s r).fruBusy = false ∧ 14 ≤ rqField r 0 1 ∧ 4 ≤
    (began s r).fansRunning ∧ some (rqField r 0 1 - 2) = some k) ∧
    (∃ (s : State) (r : Request), Admitted s 82 false r ∧ HasRoom s 82 r ∧ r.length = 4 ∧ rqField r 0 1 < 18 ∧ (began
    s r).fru (rqField r 0 1) = FruState.inService) ∧
    (∃ (s : State) (r : Request), Admitted s 81 false r ∧ HasRoom s 81 r ∧ r.length = 4 ∧ rqField r 0 1 < 18 ∧ (began
    s r).fru (rqField r 0 1) ≠ FruState.absent ∧ (began s r).fruBusy = false ∧ (rqField r 0 1 = if (began s r).bladeB
    = true then 1 else 0) ∧ (began s r).pair.handingOver = none ∧ (began s r).pair.duplex ≠ Duplex.joined) ∧
    (∃ (s : State) (r : Request) (k : ℕ), Admitted s 82 false r ∧ HasRoom s 82 r ∧ r.length = 4 ∧ rqField r 0 1 < 18
    ∧ (began s r).fru (rqField r 0 1) ≠ FruState.absent ∧ (began s r).fru (rqField r 0 1) ≠ FruState.inService ∧
    rqField r 0 1 < 10 ∧ some (rqField r 0 1) = some k) ∧
    (∃ (s : State) (r : Request) (k : ℕ), Admitted s 81 false r ∧ HasRoom s 81 r ∧ r.length = 4 ∧ rqField r 0 1 < 18
    ∧ (began s r).fru (rqField r 0 1) ≠ FruState.absent ∧ (began s r).fruBusy = false ∧ 2 ≤ rqField r 0 1 ∧ rqField r
    0 1 < 10 ∧ some (rqField r 0 1) = some k) ∧
    (∃ (s : State) (r : Request) (k : ℕ), Admitted s 82 false r ∧ HasRoom s 82 r ∧ r.length = 4 ∧ rqField r 0 1 < 18
    ∧ (began s r).fru (rqField r 0 1) ≠ FruState.absent ∧ (began s r).fru (rqField r 0 1) ≠ FruState.inService ∧
    rqField r 0 1 < 10 ∧ some (rqField r 0 1) = some k) ∧
    (∃ (s : State) (r : Request), Admitted s 81 false r ∧ HasRoom s 81 r ∧ r.length = 4 ∧ rqField r 0 1 < 18 ∧ (began
    s r).fru (rqField r 0 1) ≠ FruState.absent ∧ (began s r).fruBusy = false ∧ 12 ≤ rqField r 0 1 ∧ rqField r 0 1 <
    14 ∧ (began s r).otherSupplyBad (rqField r 0 1 - 12) = true) ∧
    (∃ (s : State) (r : Request), Admitted s 82 false r ∧ HasRoom s 82 r ∧ r.length = 4 ∧ rqField r 0 1 < 18 ∧ (began
    s r).fru (rqField r 0 1) ≠ FruState.absent ∧ (began s r).fru (rqField r 0 1) ≠ FruState.inService ∧ (rqField r 0
    1 = 12 ∨ rqField r 0 1 = 13)) ∧
    (∃ (s : State) (r : Request), Admitted s 81 false r ∧ HasRoom s 81 r ∧ r.length = 4 ∧ rqField r 0 1 < 18 ∧ (began
    s r).fru (rqField r 0 1) ≠ FruState.absent ∧ (began s r).fruBusy = false ∧ 12 ≤ rqField r 0 1 ∧ rqField r 0 1 <
    14 ∧ (began s r).otherSupplyBad (rqField r 0 1 - 12) = true) ∧
    (∃ (s : State) (r : Request), Admitted s 82 false r ∧ HasRoom s 82 r ∧ r.length = 4 ∧ rqField r 0 1 < 18 ∧ (began
    s r).fru (rqField r 0 1) ≠ FruState.absent ∧ (began s r).fru (rqField r 0 1) ≠ FruState.inService ∧ (rqField r 0
    1 = 12 ∨ rqField r 0 1 = 13)) ∧
    (∃ (s : State) (r : Request), Admitted s 81 false r ∧ HasRoom s 81 r ∧ r.length = 4 ∧ rqField r 0 1 < 18 ∧ (began
    s r).fru (rqField r 0 1) ≠ FruState.absent ∧ (began s r).fruBusy = false ∧ 14 ≤ rqField r 0 1 ∧ (began s
    r).fansRunning < 4) ∧
    (∃ (s : State) (r : Request) (k : ℕ), Admitted s 82 false r ∧ HasRoom s 82 r ∧ r.length = 4 ∧ rqField r 0 1 < 18
    ∧ (began s r).fru (rqField r 0 1) ≠ FruState.absent ∧ (began s r).fru (rqField r 0 1) ≠ FruState.inService ∧ 14 ≤
    rqField r 0 1 ∧ some (rqField r 0 1 - 2) = some k) ∧
    (∃ (s : State) (r : Request), Admitted s 81 false r ∧ HasRoom s 81 r ∧ r.length = 4 ∧ rqField r 0 1 < 18 ∧ (began
    s r).fru (rqField r 0 1) ≠ FruState.absent ∧ (began s r).fruBusy = false ∧ 14 ≤ rqField r 0 1 ∧ (began s
    r).fansRunning < 4) ∧
    (∃ (s : State) (r : Request) (k : ℕ), Admitted s 82 false r ∧ HasRoom s 82 r ∧ r.length = 4 ∧ rqField r 0 1 < 18
    ∧ (began s r).fru (rqField r 0 1) ≠ FruState.absent ∧ (began s r).fru (rqField r 0 1) ≠ FruState.inService ∧ 14 ≤
    rqField r 0 1 ∧ some (rqField r 0 1 - 2) = some k) ∧
    (∃ (s : State) (r : Request), Admitted s 81 false r ∧ HasRoom s 81 r ∧ r.length = 4 ∧ rqField r 0 1 < 18 ∧ (began
    s r).fru (rqField r 0 1) ≠ FruState.absent ∧ (began s r).fruBusy = false ∧ 10 ≤ rqField r 0 1 ∧ rqField r 0 1 <
    12 ∧ ((began s r).carrier (11 - rqField r 0 1)).state ≠ CarrierState.inService) ∧
    (∃ (s : State) (r : Request), Admitted s 82 false r ∧ HasRoom s 82 r ∧ r.length = 4 ∧ rqField r 0 1 < 18 ∧ (began
    s r).fru (rqField r 0 1) ≠ FruState.absent ∧ (began s r).fru (rqField r 0 1) ≠ FruState.inService ∧ (rqField r 0
    1 = 10 ∨ rqField r 0 1 = 11) ∧ ((began s r).carrier (rqField r 0 1 - 10)).capacity ≠ 0 ∧ ((began s r).carrier
    (rqField r 0 1 - 10)).capacity.toNat < 256) ∧
    (∃ (s : State) (r : Request), Admitted s 81 false r ∧ HasRoom s 81 r ∧ r.length = 4 ∧ rqField r 0 1 < 18 ∧ (began
    s r).fru (rqField r 0 1) ≠ FruState.absent ∧ (began s r).fruBusy = false ∧ 10 ≤ rqField r 0 1 ∧ rqField r 0 1 <
    12 ∧ ((began s r).carrier (11 - rqField r 0 1)).state ≠ CarrierState.inService) ∧
    (∃ (s : State) (r : Request), Admitted s 82 false r ∧ HasRoom s 82 r ∧ r.length = 4 ∧ rqField r 0 1 < 18 ∧ (began
    s r).fru (rqField r 0 1) ≠ FruState.absent ∧ (began s r).fru (rqField r 0 1) ≠ FruState.inService ∧ (rqField r 0
    1 = 10 ∨ rqField r 0 1 = 11) ∧ 256 ≤ ((began s r).carrier (rqField r 0 1 - 10)).capacity.toNat ∧ ((began s
    r).carrier (11 - rqField r 0 1)).state ≠ CarrierState.inService) ∧
    (∃ (s : State) (r : Request), Admitted s 81 false r ∧ HasRoom s 81 r ∧ r.length = 4 ∧ rqField r 0 1 < 18 ∧ (began
    s r).fru (rqField r 0 1) ≠ FruState.absent ∧ (began s r).fruBusy = false ∧ 10 ≤ rqField r 0 1 ∧ rqField r 0 1 <
    12 ∧ ((began s r).carrier (11 - rqField r 0 1)).state = CarrierState.inService ∧ ((began s r).carrierTakes
    (rqField r 0 1 - 10) = false ∨ ∀ x ∈ (began s r).hw.blocks, x.done.getLsbD (rqField r 0 1 - 10) = true)) ∧
    (∃ (s : State) (r : Request), Admitted s 82 false r ∧ HasRoom s 82 r ∧ r.length = 4 ∧ rqField r 0 1 < 18 ∧ (began
    s r).fru (rqField r 0 1) ≠ FruState.absent ∧ (began s r).fru (rqField r 0 1) ≠ FruState.inService ∧ (rqField r 0
    1 = 10 ∨ rqField r 0 1 = 11) ∧ 256 ≤ ((began s r).carrier (rqField r 0 1 - 10)).capacity.toNat ∧ ((began s
    r).carrier (11 - rqField r 0 1)).state = CarrierState.inService) ∧
    (∃ (s : State) (r : Request) (k : ℕ), Admitted s 81 false r ∧ HasRoom s 81 r ∧ r.length = 4 ∧ rqField r 0 1 < 18
    ∧ (began s r).fru (rqField r 0 1) ≠ FruState.absent ∧ (began s r).fruBusy = false ∧ 10 ≤ rqField r 0 1 ∧ rqField
    r 0 1 < 12 ∧ ((began s r).carrier (11 - rqField r 0 1)).state = CarrierState.inService ∧ ((began s
    r).carrierTakes (rqField r 0 1 - 10) = false ∨ ∀ x ∈ (began s r).hw.blocks, x.done.getLsbD (rqField r 0 1 - 10) =
    true) ∧ some (rqField r 0 1) = some k) ∧
    (∃ (s : State) (r : Request), Admitted s 82 false r ∧ HasRoom s 82 r ∧ r.length = 4 ∧ rqField r 0 1 < 18 ∧ (began
    s r).fru (rqField r 0 1) = FruState.inService) ∧
    (∃ (s : State) (r : Request), Admitted s 81 false r ∧ HasRoom s 81 r ∧ r.length = 4 ∧ rqField r 0 1 < 18 ∧ (began
    s r).fru (rqField r 0 1) ≠ FruState.absent ∧ (began s r).fruBusy = false ∧ 10 ≤ rqField r 0 1 ∧ rqField r 0 1 <
    12 ∧ ((began s r).carrier (11 - rqField r 0 1)).state = CarrierState.inService ∧ (began s r).carrierTakes
    (rqField r 0 1 - 10) = true ∧ (∃ x ∈ (began s r).hw.blocks, x.done.getLsbD (rqField r 0 1 - 10) = false)) ∧
    (∃ (s : State) (r : Request), Admitted s 82 false r ∧ HasRoom s 82 r ∧ r.length = 4 ∧ rqField r 0 1 < 18 ∧ (began
    s r).fru (rqField r 0 1) = FruState.inService) :=
  ⟨⟨blank act, op 81 (fq 17), ⟨by decide +kernel, by decide +kernel, by decide +kernel⟩,
   by unfold HasRoom; decide +kernel, by decide +kernel⟩,
    ⟨blank act, op 82 (fq 17), ⟨by decide +kernel, by decide +kernel, by decide +kernel⟩,
    by unfold HasRoom; decide +kernel, by decide +kernel⟩,
    ⟨blank act, op 81 (fq 18), ⟨by decide +kernel, by decide +kernel, by decide +kernel⟩,
    by unfold HasRoom; decide +kernel, by decide +kernel⟩,
    ⟨blank act, op 82 (fq 18), ⟨by decide +kernel, by decide +kernel, by decide +kernel⟩,
    by unfold HasRoom; decide +kernel, by decide +kernel⟩,
    ⟨hasFru 17 .inService (pend act), op 81 (fq 17), ⟨by decide +kernel, by decide +kernel, by decide +kernel⟩,
    by unfold HasRoom; decide +kernel, by decide +kernel⟩,
    ⟨hasFru 17 .inService (pend act), op 82 (fq 17), ⟨by decide +kernel, by decide +kernel, by decide +kernel⟩,
    by unfold HasRoom; decide +kernel, by decide +kernel⟩,
    ⟨hasFru 0 .inService { act with pair.handingOver := some (dfr 0x50 0 [0]) }, op 81 (fq 0), ⟨by decide +kernel,
    by decide +kernel, by decide +kernel⟩, by unfold HasRoom; decide +kernel, by decide +kernel⟩,
    ⟨hasFru 0 .inService { act with pair.handingOver := some (dfr 0x50 0 [0]) }, op 82 (fq 0), ⟨by decide +kernel,
    by decide +kernel, by decide +kernel⟩, by unfold HasRoom; decide +kernel, by decide +kernel⟩,
    ⟨hasFru 0 .inService, op 81 (fq 0), ⟨by decide +kernel, by decide +kernel, by decide +kernel⟩,
    by unfold HasRoom; decide +kernel, by decide +kernel⟩,
    ⟨hasFru 0 .inService, op 82 (fq 0), ⟨by decide +kernel, by decide +kernel, by decide +kernel⟩,
    by unfold HasRoom; decide +kernel, by decide +kernel⟩,
    ⟨hasFru 0 .inService { act with pair.duplex := .joined }, op 81 (fq 0), ⟨by decide +kernel, by decide +kernel,
    by decide +kernel⟩, by unfold HasRoom; decide +kernel, by decide +kernel⟩,
    ⟨hasFru 0 .inService { act with pair.duplex := .joined }, op 82 (fq 0), ⟨by decide +kernel, by decide +kernel,
    by decide +kernel⟩, by unfold HasRoom; decide +kernel, by decide +kernel⟩,
    ⟨hasFru 1 .inService, op 81 (fq 1), (1 : Nat), ⟨by decide +kernel, by decide +kernel, by decide +kernel⟩,
    by unfold HasRoom; decide +kernel, by decide +kernel⟩,
    ⟨hasFru 1 .inService, op 82 (fq 1), ⟨by decide +kernel, by decide +kernel, by decide +kernel⟩,
    by unfold HasRoom; decide +kernel, by decide +kernel⟩,
    ⟨hasFru 2 .inService, op 81 (fq 2), (2 : Nat), ⟨by decide +kernel, by decide +kernel, by decide +kernel⟩,
    by unfold HasRoom; decide +kernel, by decide +kernel⟩,
    ⟨hasFru 2 .inService, op 82 (fq 2), ⟨by decide +kernel, by decide +kernel, by decide +kernel⟩,
    by unfold HasRoom; decide +kernel, by decide +kernel⟩,
    ⟨hasFru 9 .inService, op 81 (fq 9), (9 : Nat), ⟨by decide +kernel, by decide +kernel, by decide +kernel⟩,
    by unfold HasRoom; decide +kernel, by decide +kernel⟩,
    ⟨hasFru 9 .inService, op 82 (fq 9), ⟨by decide +kernel, by decide +kernel, by decide +kernel⟩,
    by unfold HasRoom; decide +kernel, by decide +kernel⟩,
    ⟨hasFru 10 .inService, op 81 (fq 10), ⟨by decide +kernel, by decide +kernel, by decide +kernel⟩,
    by unfold HasRoom; decide +kernel, by decide +kernel⟩,
    ⟨hasFru 10 .inService, op 82 (fq 10), ⟨by decide +kernel, by decide +kernel, by decide +kernel⟩,
    by unfold HasRoom; decide +kernel, by decide +kernel⟩,
    ⟨hasFru 11 .inService (act.setCarrier 0 { Carrier.init with state := .inService }), op 81 (fq 11), (11 : Nat),
    ⟨by decide +kernel, by decide +kernel, by decide +kernel⟩, by unfold HasRoom; decide +kernel, by decide +kernel⟩,
    ⟨hasFru 11 .inService (act.setCarrier 0 { Carrier.init with state := .inService }), op 82 (fq 11),
    ⟨by decide +kernel, by decide +kernel, by decide +kernel⟩, by unfold HasRoom; decide +kernel, by decide +kernel⟩,
    ⟨hasFru 12 .inService, op 81 (fq 12), ⟨by decide +kernel, by decide +kernel, by decide +kernel⟩,
    by unfold HasRoom; decide +kernel, by decide +kernel⟩,
    ⟨hasFru 12 .inService, op 82 (fq 12), ⟨by decide +kernel, by decide +kernel, by decide +kernel⟩,
    by unfold HasRoom; decide +kernel, by decide +kernel⟩,
    ⟨hasFru 13 .inService (supplies act), op 81 (fq 13), ⟨by decide +kernel, by decide +kernel, by decide +kernel⟩,
    by unfold HasRoom; decide +kernel, by decide +kernel⟩,
    ⟨hasFru 13 .inService (supplies act), op 82 (fq 13), ⟨by decide +kernel, by decide +kernel, by decide +kernel⟩,
    by unfold HasRoom; decide +kernel, by decide +kernel⟩,
    ⟨hasFru 14 .inService, op 81 (fq 14), ⟨by decide +kernel, by decide +kernel, by decide +kernel⟩,
    by unfold HasRoom; decide +kernel, by decide +kernel⟩,
    ⟨hasFru 14 .inService, op 82 (fq 14), ⟨by decide +kernel, by decide +kernel, by decide +kernel⟩,
    by unfold HasRoom; decide +kernel, by decide +kernel⟩,
    ⟨blank (fans act), op 81 (fq 14), (12 : Nat), ⟨by decide +kernel, by decide +kernel, by decide +kernel⟩,
    by unfold HasRoom; decide +kernel, by decide +kernel⟩,
    ⟨blank (fans act), op 82 (fq 14), ⟨by decide +kernel, by decide +kernel, by decide +kernel⟩,
    by unfold HasRoom; decide +kernel, by decide +kernel⟩,
    ⟨blank (fans act), op 81 (fq 17), (15 : Nat), ⟨by decide +kernel, by decide +kernel, by decide +kernel⟩,
    by unfold HasRoom; decide +kernel, by decide +kernel⟩,
    ⟨blank (fans act), op 82 (fq 17), ⟨by decide +kernel, by decide +kernel, by decide +kernel⟩,
    by unfold HasRoom; decide +kernel, by decide +kernel⟩,
    ⟨hasFru 0 .prepared, op 81 (fq 0), ⟨by decide +kernel, by decide +kernel, by decide +kernel⟩,
    by unfold HasRoom; decide +kernel, by decide +kernel⟩,
    ⟨hasFru 0 .prepared, op 82 (fq 0), (0 : Nat), ⟨by decide +kernel, by decide +kernel, by decide +kernel⟩,
    by unfold HasRoom; decide +kernel, by decide +kernel⟩,
    ⟨hasFru 9 .present, op 81 (fq 9), (9 : Nat), ⟨by decide +kernel, by decide +kernel, by decide +kernel⟩,
    by unfold HasRoom; decide +kernel, by decide +kernel⟩,
    ⟨hasFru 9 .present, op 82 (fq 9), (9 : Nat), ⟨by decide +kernel, by decide +kernel, by decide +kernel⟩,
    by unfold HasRoom; decide +kernel, by decide +kernel⟩,
    ⟨hasFru 12 .prepared, op 81 (fq 12), ⟨by decide +kernel, by decide +kernel, by decide +kernel⟩,
    by unfold HasRoom; decide +kernel, by decide +kernel⟩,
    ⟨hasFru 12 .prepared, op 82 (fq 12), ⟨by decide +kernel, by decide +kernel, by decide +kernel⟩,
    by unfold HasRoom; decide +kernel, by decide +kernel⟩,
    ⟨hasFru 13 .present, op 81 (fq 13), ⟨by decide +kernel, by decide +kernel, by decide +kernel⟩,
    by unfold HasRoom; decide +kernel, by decide +kernel⟩,
    ⟨hasFru 13 .present, op 82 (fq 13), ⟨by decide +kernel, by decide +kernel, by decide +kernel⟩,
    by unfold HasRoom; decide +kernel, by decide +kernel⟩,
    ⟨hasFru 14 .present, op 81 (fq 14), ⟨by decide +kernel, by decide +kernel, by decide +kernel⟩,
    by unfold HasRoom; decide +kernel, by decide +kernel⟩,
    ⟨hasFru 14 .present, op 82 (fq 14), (12 : Nat), ⟨by decide +kernel, by decide +kernel, by decide +kernel⟩,
    by unfold HasRoom; decide +kernel, by decide +kernel⟩,
    ⟨hasFru 17 .present, op 81 (fq 17), ⟨by decide +kernel, by decide +kernel, by decide +kernel⟩,
    by unfold HasRoom; decide +kernel, by decide +kernel⟩,
    ⟨hasFru 17 .present, op 82 (fq 17), (15 : Nat), ⟨by decide +kernel, by decide +kernel, by decide +kernel⟩,
    by unfold HasRoom; decide +kernel, by decide +kernel⟩,
    ⟨hasFru 10 .prepared (act.setCarrier 0 { Carrier.init with capacity := 255 }), op 81 (fq 10), ⟨by decide +kernel,
    by decide +kernel, by decide +kernel⟩, by unfold HasRoom; decide +kernel, by decide +kernel⟩,
    ⟨hasFru 10 .prepared (act.setCarrier 0 { Carrier.init with capacity := 255 }), op 82 (fq 10), ⟨by decide +kernel,
    by decide +kernel, by decide +kernel⟩, by unfold HasRoom; decide +kernel, by decide +kernel⟩,
    ⟨hasFru 11 .prepared (act.setCarrier 1 { Carrier.init with capacity := 256 }), op 81 (fq 11), ⟨by decide +kernel,
    by decide +kernel, by decide +kernel⟩, by unfold HasRoom; decide +kernel, by decide +kernel⟩,
    ⟨hasFru 11 .prepared (act.setCarrier 1 { Carrier.init with capacity := 256 }), op 82 (fq 11), ⟨by decide +kernel,
    by decide +kernel, by decide +kernel⟩, by unfold HasRoom; decide +kernel, by decide +kernel⟩,
    ⟨hasFru 11 .prepared ((act.setCarrier 1 { Carrier.init with capacity := 256 }).setCarrier 0
    { Carrier.init with state := .inService }), op 81 (fq 11), ⟨by decide +kernel, by decide +kernel,
    by decide +kernel⟩, by unfold HasRoom; decide +kernel, by decide +kernel⟩,
    ⟨hasFru 11 .prepared ((act.setCarrier 1 { Carrier.init with capacity := 256 }).setCarrier 0
    { Carrier.init with state := .inService }), op 82 (fq 11), ⟨by decide +kernel, by decide +kernel,
    by decide +kernel⟩, by unfold HasRoom; decide +kernel, by decide +kernel⟩,
    ⟨hasFru 11 .inService (owing 2), op 81 (fq 11), (11 : Nat), ⟨by decide +kernel, by decide +kernel,
    by decide +kernel⟩, by unfold HasRoom; decide +kernel, by decide +kernel⟩,
    ⟨hasFru 11 .inService (owing 2), op 82 (fq 11), ⟨by decide +kernel, by decide +kernel, by decide +kernel⟩,
    by unfold HasRoom; decide +kernel, by decide +kernel⟩,
    ⟨hasFru 11 .inService (owing 0), op 81 (fq 11), ⟨by decide +kernel, by decide +kernel, by decide +kernel⟩,
    by unfold HasRoom; decide +kernel, by decide +kernel⟩,
    ⟨hasFru 11 .inService (owing 0), op 82 (fq 11), ⟨by decide +kernel, by decide +kernel, by decide +kernel⟩,
    by unfold HasRoom; decide +kernel, by decide +kernel⟩⟩

theorem witness_FruEvents :
    (∃ (s : State) (n : Fin 18) (k : Fin 16) (c : ClusterId) (j : Fin 2) (x : JournalBlock) (rest : List
    JournalBlock) (d : ReplyTo) (k : ℕ), s.blade.hw.resilvering ≠ some j ∧ s.blade.flt.fenced = false ∧ fruFeed ↑n =
    some k ∧ (s.blade.hw.cards.getLsbD ↑c = false ∨ (s.blade.cluster ↑c).linkLost = true) ∧ (s.blade.hw.cards.getLsbD
    ↑c = false ∨ (s.blade.feed (2 + ↑c)).on = false) ∧ ((s.blade.feed ↑k).on = false ∨ (s.blade.feed ↑k).present =
    false) ∧ ((s.blade.feed ↑k).tripped = false ∨ (s.blade.feed ↑k).command = true ∨ (s.blade.feed ↑k).partnerCommand
    = true) ∧ s.blade.hw.leaving = some (j, x :: rest, d) ∧ s.blade.active = true ∧ rest = []) ∧
    (∃ (s : State) (k : Fin 16) (c : ClusterId) (j : Fin 2), s.blade.hw.leaving = none ∧ (s.blade.active = false ∨
    s.blade.flt.fenced = true ∨ s.blade.flag rJRNL 0 = false ∨ s.blade.struck fnJournal = true ∨ ¬((s.blade.carrier
    ↑j).state = CarrierState.inService ∨ (s.blade.carrier ↑j).state = CarrierState.resilvering) ∨ ∀ y ∈
    s.blade.hw.blocks, y.done.getLsbD ↑j = true) ∧ s.blade.flt.fenced = false ∧ s.blade.hw.cards.getLsbD ↑c = true ∧
    (s.blade.cluster ↑c).linkLost = false ∧ (s.blade.feed (2 + ↑c)).on = true ∧ s.blade.resuming (2 + ↑c) = none ∧
    (s.blade.feed ↑k).on = true ∧ (s.blade.feed ↑k).present = true ∧ (s.blade.active = false ∨ s.blade.flt.fenced =
    true ∨ s.blade.hw.leaving = none ∧ ¬((s.blade.carrier ↑j).state = CarrierState.inService ∨ (s.blade.carrier
    ↑j).state = CarrierState.resilvering) ∧ (s.blade.carrier ↑j).state ≠ CarrierState.starting)) ∧
    (∃ (s : State) (j : Fin 2) (x : JournalBlock) (q : StagedRecord), s.blade.hw.leaving = none ∧ s.blade.active =
    true ∧ s.blade.flt.fenced = false ∧ s.blade.flag rJRNL 0 = true ∧ s.blade.struck fnJournal = false ∧
    ((s.blade.carrier ↑j).state = CarrierState.inService ∨ (s.blade.carrier ↑j).state = CarrierState.resilvering) ∧
    s.blade.hw.blocks = [x] ∧ x.done.getLsbD ↑j = false ∧ (x.done.getLsbD (1 - ↑j) = true ∨ s.blade.carrierTakes (1 -
    ↑j) = false) ∧ s.blade.hw.journal = [q] ∧ q.block = x.seq ∧ (((s.blade.carrier ↑j).state = CarrierState.inService
    ∨ (s.blade.carrier ↑j).state = CarrierState.resilvering) ∨ (s.blade.carrier ↑j).state = CarrierState.starting)) ∧
    (∃ (s : State), s.blade.flt.fenced = true) ∧
    (∃ (s : State) (j : Fin 2), s.blade.hw.resilvering = some j) ∧
    (∃ (s : State) (j : Fin 2) (x : JournalBlock) (rest : List JournalBlock) (d : ReplyTo), s.blade.hw.leaving = some
    (j, x :: rest, d) ∧ s.blade.flt.fenced = false ∧ rest ≠ []) ∧
    (∃ (s : State) (k : Fin 16), (s.blade.feed ↑k).tripped = true ∧ (s.blade.feed ↑k).command = false ∧ (s.blade.feed
    ↑k).partnerCommand = false) ∧
    (∃ (s : State) (j : Fin 2) (x : JournalBlock), s.blade.hw.leaving = none ∧ s.blade.active = true ∧
    s.blade.flt.fenced = false ∧ s.blade.flag rJRNL 0 = true ∧ s.blade.struck fnJournal = false ∧ ((s.blade.carrier
    ↑j).state = CarrierState.inService ∨ (s.blade.carrier ↑j).state = CarrierState.resilvering) ∧ s.blade.hw.blocks =
    [x] ∧ x.done.getLsbD ↑j = false ∧ x.done.getLsbD (1 - ↑j) = false ∧ s.blade.carrierTakes (1 - ↑j) = true) :=
  ⟨⟨blank { carry 0 .off act with hw.leaving := some (0, [jb 0], LD) }, n3 5, k3_2 15, c3, j0, jb 0, NB, LD, (5 :
   Nat), by decide +kernel⟩,
    ⟨blank { act.setFeed 5 { Feed.init with command := true, present := true } with hw.cards := 8 }, k3_2 5, c3, j0,
    by decide +kernel⟩,
    ⟨blank { block 0 (carry 0 .inService act) with hw.journal := [SR] }, j0, jb 0, SR, by decide +kernel⟩,
    ⟨blank { act with flt.fenced := true }, by decide +kernel⟩,
    ⟨blank { act with hw.resilvering := some 1 }, j1, by decide +kernel⟩,
    ⟨blank { carry 0 .off act with hw.leaving := some (0, [jb 0, jb 0], LD) }, j0, jb 0, [jb 0], LD,
    by decide +kernel⟩,
    ⟨blank (act.setFeed 15 { Feed.init with tripped := true }), k3_2 15, by decide +kernel⟩,
    ⟨blank (block 0 (carry 1 .inService (carry 0 .inService act))), j1, jb 0, by decide +kernel⟩⟩

theorem witness_SystemFormsComplete :
    (∃ (s : State) (n : BitVec 32) (st : Word64) (d : Deferred), s.blade.linkRuns = true ∧ s.blade.armed 192 1 =
    false ∧ s.blade.active = true ∧ s.blade.flt.fatal = false ∧ s.blade.pair.duplex = Duplex.joined ∧
    s.blade.pair.unreleased = [(n, st)] ∧ s.blade.pair.commitsSent = 1 ∧ s.blade.led.trail = [] ∧ s.blade.journalFits
    n = true ∧ s.blade.pair.handingOver = some d ∧ d.operand = n.toNat ∧ s.blade.frame ≠ n) ∧
    (∃ (s : State) (r : Request), Admitted s 83 true r ∧ Armed s r ∧ r.length = 4 ∧ (rqField r 0 1 = if ((began s
    r).disarm Port.command).bladeB = true then 1 else 0) ∧ ((began s r).disarm Port.command).active = false ∧ rqField
    r 1 1 = 1) ∧
    (∃ (s : State) (r : Request), Admitted s 83 true r ∧ Armed s r ∧ r.length = 4 ∧ (rqField r 0 1 = if ((began s
    r).disarm Port.command).bladeB = true then 1 else 0) ∧ ((began s r).disarm Port.command).active = false ∧ rqField
    r 1 1 = 2) ∧
    (∃ (s : State) (d : Deferred), s.blade.isStandby = true ∧ s.blade.joined = false ∧ s.blade.pair.handingOver =
    some d ∧ d.data = [0]) :=
  ⟨⟨blank waits, (7 : BitVec 32), k9, D_3 7, by decide +kernel⟩,
    ⟨blank (sby .unjoined), op 83 (br 0 1), ⟨by decide +kernel, by decide +kernel, by decide +kernel⟩,
    by unfold Armed; decide +kernel, by decide +kernel⟩,
    ⟨blank (sby .unjoined), op 83 (br 0 2), ⟨by decide +kernel, by decide +kernel, by decide +kernel⟩,
    by unfold Armed; decide +kernel, by decide +kernel⟩,
    ⟨blank { sby .unjoined with pair.handingOver := some (D_3 7) }, D_3 7, by decide +kernel⟩⟩

theorem witness_ModuleEvents :
    (∃ (s : State) (k : Fin 5) (j : Fin 7) (t : BitVec 16) (r : Readings) (who : Port) (absent : Bool) (x :
    SupplyReading) (y : SupplyReading) (v : BitVec 16), s.blade.hw.pllLocks.getLsbD ↑k = false ∧ k = 3 ∧
    s.blade.armed 192 2 = false ∧ (overCrit (↑j) t.toInt && !s.blade.flag (rTEMP ↑j) 18 && !s.blade.flt.fenced) =
    true ∧ s.blade.flt.fenced = false ∧ (2 ≤ s.blade.hw.startStep.toNat ∨ s.blade.pair.partnerPresent = false) ∧
    r.supplies = [x, y] ∧ ↑j < 5 ∧ r.temps[↑j]? = some (some v) ∧ selected s.blade.csr.measSel who < 128 ∧ absent =
    true) ∧
    (∃ (s : State) (k : Fin 5) (j : Fin 7) (t : BitVec 16) (who : Port), s.blade.hw.pllLocks.getLsbD ↑k = true ∧ k ≠
    2 ∧ k ≠ 3 ∧ (overCrit (↑j) t.toInt && !s.blade.flag (rTEMP ↑j) 18 && !s.blade.flt.fenced) = false ∧ selected
    s.blade.csr.measSel who = 200) ∧
    (∃ (s : State) (k : Fin 5) (who : Port) (absent : Bool) (c : ℕ), s.blade.hw.pllLocks.getLsbD ↑k = true ∧ k = 3 ∧
    c < 8 ∧ selected s.blade.csr.measSel who < 128 ∧ absent = false) ∧
    (∃ (s : State) (k : Fin 5), s.blade.hw.pllLocks.getLsbD ↑k = false ∧ k ≠ 3 ∧ s.blade.flt.fenced = true) ∧
    (∃ (s : State) (who : Port), 144 ≤ selected s.blade.csr.measSel who ∧ selected s.blade.csr.measSel who < 178 ∧
    s.blade.activeTile (selected s.blade.csr.measSel who - 144) = false) ∧
    (∃ (s : State) (who : Port), 144 ≤ selected s.blade.csr.measSel who ∧ selected s.blade.csr.measSel who < 178 ∧
    s.blade.activeTile (selected s.blade.csr.measSel who - 144) = true ∧ s.blade.domainOff (selected
    s.blade.csr.measSel who - 144) = false ∧ (fun n => s.blade.hw.pllLocks.getLsbD n = true) 0) ∧
    (∃ (s : State) (who : Port), 178 ≤ selected s.blade.csr.measSel who ∧ selected s.blade.csr.measSel who < 186 ∧
    s.blade.domainOff (fnCluster (selected s.blade.csr.measSel who - 178)) = false ∧ (fun n =>
    s.blade.hw.pllLocks.getLsbD n = true) 0) ∧
    (∃ (s : State) (who : Port), selected s.blade.csr.measSel who = 188 ∧ (fun n => s.blade.hw.pllLocks.getLsbD n =
    true) 1) ∧
    (∃ (s : State) (who : Port), selected s.blade.csr.measSel who = 194 ∧ (fun n => s.blade.hw.pllLocks.getLsbD n =
    true) 2) ∧
    (∃ (s : State) (who : Port), selected s.blade.csr.measSel who = 196 ∧ (fun n => s.blade.hw.pllLocks.getLsbD n =
    true) 3) ∧
    (∃ (s : State) (who : Port), selected s.blade.csr.measSel who = 199 ∧ (fun n => s.blade.hw.pllLocks.getLsbD n =
    true) 4) ∧
    (∃ (s : State) (k : Fin 5), s.blade.hw.pllLocks.getLsbD ↑k = true ∧ k = 2) ∧
    (∃ (s : State) (who : Port), selected s.blade.csr.measSel who = 202) :=
  ⟨⟨blank act, p5 3, j7 2, (881 : BitVec 16), rd, who_3, true, sup, { sup with vin := 231 }, (25 : BitVec 16),
   by decide +kernel⟩,
    ⟨meas 200, p5 0, j7 0, (25 : BitVec 16), who_3, by decide +kernel⟩,
    ⟨blank locked, p5 3, Port.command, false, (7 : Nat), by decide +kernel⟩,
    ⟨blank { act with flt.fenced := true }, p5 4, by decide +kernel⟩,
    ⟨meas 147, who_3, by decide +kernel⟩,
    ⟨meas 148, who_3, by decide +kernel⟩,
    ⟨meas 178, who_3, by decide +kernel⟩,
    ⟨meas 188, who_3, by decide +kernel⟩,
    ⟨meas 194, who_3, by decide +kernel⟩,
    ⟨meas 196, who_3, by decide +kernel⟩,
    ⟨meas 199, who_3, by decide +kernel⟩,
    ⟨blank locked, p5 2, by decide +kernel⟩,
    ⟨meas 202, who_3, by decide +kernel⟩⟩

end Sys2Proof.Tests
end

