-- ==== Sys2Proof/Tests/Witness6.lean ====
section
/-! SUPPORT. For every statement a concrete state and operands that meet its hypotheses together, clause by clause: the
clauses whose hypotheses need more than evaluation. -/

open Sys2Proof Sys2Proof.Machine Sys2Proof.Safety

-- One proof at a time: every proof is an evaluation in the kernel.
set_option Elab.async false

namespace Sys2Proof.Tests

/-- A store waits in a state whose memory is in canonical form, and the step answers a next state. -/
theorem witness_EveryStepKeepsMemoryCanonical :
    ∃ s t : State, MemoryWf s ∧ s.pending = [.st8 0 2 1 0] ∧ step s = .next t :=
  ⟨{ coded s4_2 f4_2 (.st8 0 2 1 0) with pending := [.st8 0 2 1 0] }, _, by unfold MemoryWf; decide +kernel, rfl, rfl⟩

theorem witness_CanonicalMemoryDetermined :
    ∃ m m' : Memory, m.cells ≠ [] ∧ m.wf = true ∧ m'.wf = true ∧ (∀ a, m.byte a = m'.byte a) ∧
      (∀ a, m.mark a = m'.mark a) :=
  ⟨s4_2.mem, s4_2.mem, by decide +kernel, by decide +kernel, by decide +kernel, fun _ => rfl, fun _ => rfl⟩

theorem witness_OnlyStoresChangeBytes :
    ∃ (i : Instr) (s t : State), mayStore i = false ∧ exec i s = .next t :=
  ⟨.ld8u 0 3 1 0, coded s4_2 f4_2 (.ld8u 0 3 1 0), _, by decide +kernel, rfl⟩

/-- A context's image of n records of 32 bytes, which fill park staging where n is 2^23. -/
def imageOf (n : Nat) : ParkImage :=
  { ParkImage.init with records := .replicate n { token := tk, location := 0, list := 0, remaining := 0, frame := 0 } }
def staged (n : Nat) : Blade := { act with led.parking := some (P false), led.parked := [(0x101, imageOf n)] }

theorem staged_used (n : Nat) : (staged n).stagingUsed = 32 * n := by
  simp [Blade.stagingUsed, staged, imageOf, msum, ParkImage.init]

theorem staged_full (n : Nat) (h : 0x10000000 < 32 * n + 32) : (staged n).stagingFull = true := by
  simpa [Blade.stagingFull, Blade.stagingShort, staged_used] using h

theorem witness_ParkingEvents_stagingFull :
    ∃ n, (blank (staged n)).blade.led.parking = some (P false) ∧ (P false).unparking = false ∧
      (blank (staged n)).blade.stagingFull = true :=
  ⟨8388608, rfl, rfl, staged_full _ (by decide)⟩

/-- A stored image read back into a staging that another context's records fill. -/
def unparkFull (n : Nat) : Blade :=
  { cx_2 .parked 1 with
    led.parking := some (P true), led.parked := [(0x100, { ParkImage.init with stored := true }), (0x101, imageOf n)] }

theorem unparkFull_short (n : Nat) (h : 0x10000000 < 32 * n) : (unparkFull n).stagingShort 0 = true := by
  simpa [Blade.stagingShort, Blade.stagingUsed, unparkFull, imageOf, msum, ParkImage.init] using h

theorem witness_ParkingEvents_stagingShort :
    ∃ n, let b := (blank (unparkFull n)).blade
      b.led.parking = some (P true) ∧ (P true).unparking = true ∧ b.trailFull = false ∧
      (b.ctx (P true).context.toNat).state = .parked ∧ (b.image (P true).context.toNat).stored = true ∧
      b.anyCarrier = false ∧ b.stagingShort (P true).waiting.length = true :=
  ⟨8388609, rfl, rfl, rfl, rfl, rfl, by decide +kernel, unparkFull_short _ (by decide)⟩

/-- The active blade of a joined pair that waits for the acknowledgement of frame 7. -/
def waitingAck : Blade :=
  { run_3 act with pair.duplex := .joined, pair.unreleased := [(7, 9)], pair.commitsSent := 1 }

theorem witness_ToggleBlocks_ack :
    let b := waitingAck
    b.linkRuns = true ∧ b.armed 192 1 = false ∧ b.blockArrives.active = true ∧ b.blockArrives.flt.fatal = false ∧
      b.blockArrives.pair.duplex ≠ .joining ∧
      (∀ f ∈ b.blockArrives.pair.unreleased.take b.blockArrives.pair.commitsSent, f.1 ≠ 8) ∧
      b.blockArrives.joined = true ∧ b.blockArrives.pair.unreleased = [(7, 9)] ∧
      b.blockArrives.pair.commitsSent = 1 ∧ b.blockArrives.led.trail = [] ∧ b.blockArrives.journalFits 7 = true ∧
      b.blockArrives.pair.handingOver = none := by
  refine ⟨by decide +kernel, by decide +kernel, by decide +kernel, by decide +kernel, by decide +kernel, ?_,
    by decide +kernel, by decide +kernel, by decide +kernel, by decide +kernel, by decide +kernel, by decide +kernel⟩
  have e : waitingAck.blockArrives.pair.unreleased.take waitingAck.blockArrives.pair.commitsSent = [(7, 9)] := by
    decide +kernel
  intro f h
  rw [e] at h
  have := List.mem_singleton.mp h
  subst this
  decide

theorem witness_ToggleBlocks_doubt :
    let b := { run_3 act with pair.duplex := .doubt }
    b.linkRuns = true ∧ b.armed 192 1 = false ∧ b.pair.duplex = .doubt := by
  decide +kernel

/-- An injection of a CRC error of the toggle link is armed in mode CHECK (Table 12.8). -/
theorem witness_ToggleBlocks_crc :
    let b := (run_3 act).setSource 192 { Source.init with mode := 1, remaining := 2 }
    b.linkRuns = true ∧ b.armed 192 1 = true := by
  decide +kernel

/-- The standby of a joined pair that holds one LOG block, and a COMMIT that counts it, whichever the checksum is. -/
theorem witness_ToggleBlocks_commit (w : Word32) :
    let b : Blade := { run_3 R0 with pair.role := .standby, pair.duplex := .joined, pair.log := [[.memory 5 7]] }
    b.linkRuns = true ∧ b.armed 192 1 = false ∧ b.blockArrives.follows = true ∧ b.blockArrives.pair.duplex = .joined ∧
      ∃ (blocks : Nat) (crc : Word32), blocks = b.blockArrives.pair.log.length ∧ crc = w :=
  ⟨by decide +kernel, by decide +kernel, by decide +kernel, by decide +kernel, 1, w, by decide +kernel, rfl⟩

/-- A set of 8 ways whose acceptance waits for a spill block, and a spill store whose other set holds n blocks. -/
def blockedSet : MatchSet := { MatchSet.init with ways := (List.range 8).map other, blocked := true }
def noBlocks (n : Nat) : Blade :=
  let b := bl [tk_2 2 1] (cx_3 .live 3)
  { b with net.sets := [(k2_2, blockedSet), (k2_2 + 1, { MatchSet.init with stack := .replicate (8 * n) tomb })] }

theorem noBlocks_full (n : Nat) (h : 2097152 ≤ n) : (noBlocks n).noBlock blockedSet = true := by
  have e : (noBlocks n).spillBlocks = n := by
    simp [Blade.spillBlocks, noBlocks, msum, MatchSet.blocks, blockedSet, MatchSet.init]
    omega
  have w : blockedSet.ways.length = 8 ∧ blockedSet.stack.length = 0 := by decide +kernel
  have c : blockedSet.ways.head?.any (noBlocks n).cancelledEntry = false := rfl
  simp [Blade.noBlock, e, w, c, spillTotal, h]

def spillFull : State := withCode (noBlocks 2097152)
def blockedToken : Token := tk_2 2 1

theorem spillFull_arrives : Arrives spillFull.blade blockedToken :=
  ⟨by decide +kernel, by decide +kernel, by decide +kernel, by decide +kernel, by decide +kernel, by decide +kernel⟩

theorem spillFull_unharmed : TileUnharmed spillFull.blade 0 := by
  unfold TileUnharmed
  decide +kernel

theorem spillFull_noBlock : spillFull.blade.noBlock blockedSet = true := noBlocks_full 2097152 (Nat.le_refl _)

theorem witness_MatchingEvents_noBlock :
    spillFull.blade.tileBlocked 0 = true ∧ (spillFull.blade.tile 0).waiting = [blockedToken] ∧
      spillFull.blade.mset 0 blockedToken.set = blockedSet ∧ blockedSet.lock = none ∧
      spillFull.blade.readyFull 0 = false ∧ Arrives spillFull.blade blockedToken ∧
      blockedSet.ways.all (·.damage = 0) = true ∧ blockedSet.live = 0 ∧ joinIndex blockedSet.ways blockedToken = none ∧
      TileUnharmed spillFull.blade 0 ∧ spillFull.blade.net.migration = none ∧ blockedSet.blocked = true ∧
      spillFull.blade.noBlock blockedSet = true :=
  ⟨by decide +kernel, by decide +kernel, by decide +kernel, by decide +kernel, by decide +kernel, spillFull_arrives,
    by decide +kernel, by decide +kernel, by decide +kernel, spillFull_unharmed, by decide +kernel, by decide +kernel,
    spillFull_noBlock⟩

/-- A staged microcode image of zero words, but for a jump at the last word. -/
def stagedWords : Memory := { State.reset.mem with cells := [(0x170000000 + 0x40 + 0xFFFF, 0x10)] }

theorem nat_of_zeros (m : Memory) (n : Nat) : ∀ k, (∀ j, j < n → m.byte (k + j) = 0) → m.nat k n = 0 := by
  induction n with
  | zero => intro _ _; rfl
  | succ n ih =>
    intro k h
    have h0 : m.byte k = 0 := h 0 (by omega)
    have hr := ih (k + 1) fun j hj => by
      rw [Nat.add_right_comm, Nat.add_assoc]
      exact h (j + 1) (by omega)
    simp only [Memory.nat, Memory.read, leNat] at hr ⊢
    simp [h0, hr]

theorem zero_word_valid (pc : Nat) (h : pc ≠ 0xFFF) : (uopOf 0).valid pc = true := by
  have e : uopOf 0 = Uop.base := by decide +kernel
  rw [e]
  simp [Uop.valid, Uop.base, ioargValid, ioMinLen, h]

theorem stagedWords_byte (a : Nat) (h : a ≠ 0x17001003F) : stagedWords.byte a = 0 := by
  simp [stagedWords, Memory.byte, mget, Ne.symm h]

theorem microWordsValid_staged : microWordsValid (stagedWords.read imageStagingBase 65600) = true := by
  rw [microWordsValid, List.all_eq_true]
  intro pc hp
  have := List.mem_range.mp hp
  rw [microWord, Memory.fieldAt_read _ _ _ _ _ (by omega)]
  by_cases h : pc = 0xFFF
  · subst h
    decide +kernel
  · rw [nat_of_zeros _ _ _ fun j hj => stagedWords_byte _ (by simp only [imageStagingBase]; omega)]
    exact zero_word_valid pc h

/-- Cluster 0 waits for its activation, and every halyard of it has yielded and holds nothing open. -/
def quietCluster : Blade :=
  (List.range 16).foldl (fun b h => b.setHalyard h { Halyard.init with yielded := true })
    { stg 3 65600 true false with eng.activation := some A0 }

theorem witness_ImageCommands_clusterQuiet :
    let s : State := { State.reset with blade := quietCluster, mem := stagedWords }
    s.blade.eng.activation = some A0 ∧ A0.clusters = [0] ∧ (∀ h, s.blade.halyardQuiet 0 h = true) ∧
      s.mem.marked 0x170000000 s.blade.eng.staging.total = [] ∧ microWordsValid (s.blade.stagedImage s.mem) = true := by
  refine ⟨by decide +kernel, rfl, by decide +kernel, rfl, ?_⟩
  show microWordsValid (stagedWords.read imageStagingBase quietCluster.eng.staging.total) = true
  rw [show quietCluster.eng.staging.total = 65600 from by decide +kernel]
  exact microWordsValid_staged

end Sys2Proof.Tests
end

section
/-! PROOFS. The registers of a firing, and the results of the integer instructions as exact numbers. -/

namespace Sys2Proof.Machine

open Sys2Proof.Safety

@[simp] theorem Firing.reg_zero (f : Firing) : f.reg 0 = 0 := if_pos rfl

@[simp] theorem Firing.bad_zero (f : Firing) : f.bad 0 = false := rfl

@[simp] theorem Firing.write_zero (f : Firing) (v : Word64) (p : Bool) : f.write 0 v p = f := if_pos rfl

/-- A register read after a write to a register other than g0. -/
theorem Firing.reg_write (f : Firing) {r : RegNo} (q : RegNo) (v : Word64) (p : Bool) (hr : r ≠ 0) :
    (f.write r v p).reg q = if q = r then v else f.reg q := by
  by_cases hq : q = 0
  · subst hq
    rw [reg_zero, reg_zero, if_neg (Ne.symm hr)]
  · simp only [Firing.reg, Firing.write, if_neg hr, if_neg hq, mget_mput, BitVec.toNat_inj]

/-- The mask that a write sets or clears holds the bit of its register alone. -/
theorem getLsbD_regMask (r q : RegNo) : (BitVec.ofNat 32 (2 ^ r.toNat)).getLsbD q.toNat = decide (q = r) := by
  rw [BitVec.getLsbD_ofNat, Nat.testBit_two_pow, decide_eq_true q.isLt, Bool.true_and, decide_eq_decide, eq_comm,
    BitVec.toNat_inj]

/-- A poison bit read after a write to a register other than g0. -/
theorem Firing.bad_write (f : Firing) {r : RegNo} (q : RegNo) (v : Word64) (p : Bool) (hr : r ≠ 0) :
    (f.write r v p).bad q = if q = r then p else f.bad q := by
  have hbit : (f.write r v p).poisoned.getLsbD q.toNat = if q = r then p else f.poisoned.getLsbD q.toNat := by
    rw [Firing.write, if_neg hr]
    cases p <;>
      simp only [Bool.false_eq_true, if_false, if_true, BitVec.getLsbD_or, BitVec.getLsbD_and, BitVec.getLsbD_not,
        getLsbD_regMask] <;>
      by_cases hq : q = r <;> simp [hq, Nat.lt_of_lt_of_le q.isLt]
  rw [Firing.bad, hbit]
  by_cases hq : q = r
  · rw [if_pos hq, if_pos hq, hq, decide_eq_true hr, Bool.true_and]
  · rw [if_neg hq, if_neg hq, Firing.bad]

/-! ## Results as exact numbers (R201, R202, R245) -/

theorem mul_eq_ofNat (a b : Word64) : a * b = .ofNat 64 (a.toNat * b.toNat) := by
  rw [BitVec.ofNat_mul, BitVec.ofNat_toNat, BitVec.ofNat_toNat, BitVec.setWidth_eq, BitVec.setWidth_eq]

theorem sub_eq_ofInt (a b : Word64) : a - b = .ofInt 64 ((a.toNat : Int) - b.toNat) := by
  rw [Int.sub_eq_add_neg, BitVec.ofInt_add, BitVec.ofInt_neg, BitVec.ofInt_natCast, BitVec.ofInt_natCast,
    BitVec.ofNat_toNat, BitVec.ofNat_toNat, BitVec.setWidth_eq, BitVec.setWidth_eq, BitVec.sub_eq_add_neg]

theorem neg_eq_ofInt (a : Word64) : 0 - a = .ofInt 64 (-(a.toNat : Int)) := by
  rw [sub_eq_ofInt]
  simp

/-- The carry in of ADDC, SUBB, CARRY and BORROW is bit 0 of rc (Table 4.4). -/
theorem toNat_carryIn (c : Word64) : (c &&& 1).toNat = c.toNat % 2 := by
  rw [BitVec.toNat_and]
  exact Nat.and_one_is_mod _

theorem b2n_carryIn (c : Word64) : b2n (c.getLsbD 0) = c.toNat % 2 := by
  rw [b2n, BitVec.getLsbD, Nat.testBit_zero]
  rcases Nat.mod_two_eq_zero_or_one c.toNat with h | h <;> simp [h]

theorem addCarry_eq_ofNat (a b c : Word64) : a + b + (c &&& 1) = .ofNat 64 (a.toNat + b.toNat + c.toNat % 2) := by
  rw [BitVec.ofNat_add, ← BitVec.add_def, ← toNat_carryIn, BitVec.ofNat_toNat, BitVec.setWidth_eq]

theorem subBorrow_eq_ofInt (a b c : Word64) :
    a - b - (c &&& 1) = .ofInt 64 ((a.toNat : Int) - b.toNat - (c.toNat % 2 : Nat)) := by
  rw [Int.sub_eq_add_neg (b := ((c.toNat % 2 : Nat) : Int)), BitVec.ofInt_add, BitVec.ofInt_neg, ← sub_eq_ofInt,
    ← toNat_carryIn, BitVec.ofInt_natCast, BitVec.ofNat_toNat, BitVec.setWidth_eq, ← BitVec.sub_eq_add_neg]

/-- A carry out is the 65th bit of the exact sum. -/
theorem carryOut_eq_ofNat (a b c : Word64) :
    boolWord (carryOut a b (c.getLsbD 0)) = .ofNat 64 ((a.toNat + b.toNat + c.toNat % 2) / 2 ^ 64) := by
  have ha := a.isLt
  have hb := b.isLt
  have hc := Nat.mod_lt c.toNat (show 2 > 0 by decide)
  rw [carryOut, b2n_carryIn, boolWord]
  split
  · next h =>
    rw [show (a.toNat + b.toNat + c.toNat % 2) / 2 ^ 64 = 1 by have := of_decide_eq_true h; omega]
    rfl
  · next h =>
    rw [Nat.div_eq_of_lt (by simpa using h)]
    rfl

theorem borrowOut_eq_decide (a b c : Word64) :
    borrowOut a b (c.getLsbD 0) = decide (a.toNat < b.toNat + c.toNat % 2) := by
  rw [borrowOut, b2n_carryIn]

/-- SLL of the whole amount (R202): from 64 on nothing is left of the operand. -/
theorem shiftLeft_eq_ofNat (a : Word64) (n : Nat) : shiftLeft a n = .ofNat 64 (a.toNat * 2 ^ n) := by
  apply BitVec.eq_of_toNat_eq
  rw [shiftLeft, BitVec.toNat_ofNat]
  split
  · rw [BitVec.toNat_shiftLeft, Nat.shiftLeft_eq]
  · next h =>
    obtain ⟨k, rfl⟩ := Nat.exists_eq_add_of_le (Nat.le_of_not_lt h)
    rw [Nat.pow_add, Nat.mul_left_comm, Nat.mul_mod_right]
    rfl

theorem shiftRight_eq_ofNat (a : Word64) (n : Nat) : shiftRight a n = .ofNat 64 (a.toNat / 2 ^ n) := by
  rw [shiftRight]
  split
  · apply BitVec.eq_of_toNat_eq
    rw [BitVec.toNat_ushiftRight, Nat.shiftRight_eq_div_pow, BitVec.toNat_ofNat,
      Nat.mod_eq_of_lt (Nat.lt_of_le_of_lt (Nat.div_le_self _ _) a.isLt)]
  · next h =>
    rw [Nat.div_eq_of_lt (Nat.lt_of_lt_of_le a.isLt (Nat.pow_le_pow_right (by decide) (Nat.le_of_not_lt h)))]
    rfl

/-- From 63 on a signed operand has only its sign left. -/
theorem toInt_div_two_pow (a : Word64) {n : Nat} (h : 63 ≤ n) : a.toInt / 2 ^ n = a.toInt / 2 ^ 63 := by
  have h1 := BitVec.le_toInt a
  have h2 := BitVec.toInt_lt (x := a)
  have h3 : (2 : Int) ^ 63 ≤ 2 ^ n := by exact_mod_cast Nat.pow_le_pow_right (by decide) h
  by_cases hs : 0 ≤ a.toInt
  · rw [Int.ediv_eq_zero_of_lt hs (by omega), Int.ediv_eq_zero_of_lt hs (by omega)]
  · have neg_one : ∀ d : Int, 2 ^ 63 ≤ d → a.toInt / d = -1 := fun d hd => by
      have hlow := (Int.le_ediv_iff_mul_le (a := -1) (b := a.toInt) (c := d) (by omega)).2 (by omega)
      have hhigh := Int.ediv_neg_of_neg_of_pos (a := a.toInt) (b := d) (by omega) (by omega)
      omega
    rw [neg_one _ h3, neg_one _ (Int.le_refl _)]

theorem shiftArith_eq_ofInt (a : Word64) (n : Nat) : shiftArith a n = .ofInt 64 (a.toInt / 2 ^ n) := by
  have h : a.toInt / 2 ^ min n 63 = a.toInt / 2 ^ n := by
    rcases Nat.le_total n 63 with h | h
    · rw [Nat.min_eq_left h]
    · rw [Nat.min_eq_right h, toInt_div_two_pow a h]
  rw [← h, shiftArith, ← BitVec.ofInt_toInt (x := a.sshiftRight _), BitVec.toInt_sshiftRight, Int.shiftRight_eq_div_pow]
  norm_cast

/-- The two parts of a rotation have no bit in common. -/
theorem rotated_parts (a : Word64) {k : Nat} (h : k ≤ 64) : a <<< k ||| a >>> (64 - k) = a <<< k + a >>> (64 - k) := by
  refine (BitVec.add_eq_or_of_and_eq_zero _ _ ?_).symm
  ext i hi
  simp only [BitVec.getElem_and, BitVec.getElem_shiftLeft, BitVec.getElem_ushiftRight, BitVec.getElem_zero]
  by_cases hk : i < k
  · simp [hk]
  · simp [BitVec.getLsbD_of_ge a (64 - k + i) (by omega)]

theorem shiftLeft_of_le {k : Nat} (a : Word64) (h : k ≤ 64) : a <<< k = shiftLeft a k := by
  rw [shiftLeft]
  split
  · rfl
  · rw [BitVec.shiftLeft_eq_zero (by omega)]
    rfl

theorem shiftRight_of_le {k : Nat} (a : Word64) (h : k ≤ 64) : a >>> k = shiftRight a k := by
  rw [shiftRight]
  split
  · rfl
  · rw [BitVec.ushiftRight_eq_zero (by omega)]
    rfl

theorem rotLeft_eq_ofNat (a : Word64) (n : Nat) :
    rotLeft a n = .ofNat 64 (a.toNat * 2 ^ (n % 64) + a.toNat / 2 ^ (64 - n % 64)) := by
  have h : n % 64 ≤ 64 := by omega
  rw [rotLeft, BitVec.rotateLeft_def, Nat.mod_mod, rotated_parts a h, shiftLeft_of_le a h,
    shiftRight_of_le a (Nat.sub_le _ _), shiftLeft_eq_ofNat, shiftRight_eq_ofNat, ← BitVec.ofNat_add]

theorem rotRight_eq_ofNat (a : Word64) (n : Nat) :
    rotRight a n = .ofNat 64 (a.toNat / 2 ^ (n % 64) + a.toNat * 2 ^ (64 - n % 64)) := by
  have h : n % 64 ≤ 64 := by omega
  have p := rotated_parts a (Nat.sub_le 64 (n % 64))
  rw [Nat.sub_sub_self h] at p
  rw [rotRight, BitVec.rotateRight_def, Nat.mod_mod, BitVec.or_comm, p, shiftLeft_of_le a (Nat.sub_le _ _),
    shiftRight_of_le a h, shiftLeft_eq_ofNat, shiftRight_eq_ofNat, ← BitVec.ofNat_add, Nat.add_comm]

/-- The least number is its own negation (R203). -/
theorem neg_least (a : Word64) (ha : a.toNat = 2 ^ 63) : 0 - a = a := by
  obtain rfl : a = BitVec.intMin 64 := BitVec.eq_of_toNat_eq ha
  rfl

/-- A quotient by -1 is the negated dividend, which for the least number is that number again (R203). -/
theorem quotS_neg_one (a b : Word64) (ha : a.toNat = 2 ^ 63) (hb : b.toInt = -1) : quotS a b = a := by
  obtain rfl : a = BitVec.intMin 64 := BitVec.eq_of_toNat_eq ha
  rw [quotS, hb]
  rfl

/-! ## SETH and SHIFTI -/

/-- The value that SETH writes: quarter h of the word is the immediate (Table 4.3). -/
theorem getLsbD_setQuarter (x : Word64) (imm : BitVec 16) (h : BitVec 2) (i : Nat) (hi : i < 64) :
    ((x &&& ~~~(BitVec.ofNat 64 (0xFFFF * 2 ^ (16 * h.toNat)))) |||
        BitVec.ofNat 64 (imm.toNat * 2 ^ (16 * h.toNat))).getLsbD i =
      if i / 16 = h.toNat then imm.getLsbD (i % 16) else x.getLsbD i := by
  have ones : ∀ j, (0xFFFF : Nat).testBit j = decide (j < 16) := Nat.testBit_two_pow_sub_one 16
  simp only [BitVec.getLsbD_or, BitVec.getLsbD_and, BitVec.getLsbD_not, BitVec.getLsbD_ofNat, Nat.testBit_mul_two_pow,
    ones, hi, decide_true, Bool.true_and]
  by_cases hq : i / 16 = h.toNat
  · have hlo : 16 * h.toNat ≤ i := by omega
    have hoff : i - 16 * h.toNat = i % 16 := by omega
    simp [hq, hlo, hoff, Nat.mod_lt i (show 16 > 0 by decide), BitVec.getLsbD]
  · by_cases hlo : 16 * h.toNat ≤ i
    · have hoff : 16 ≤ i - 16 * h.toNat := by omega
      simp [hq, hlo, Nat.not_lt.2 hoff, BitVec.testBit_toNat, BitVec.getLsbD_of_ge imm _ hoff]
    · simp [hq, hlo]

/-- The fields of SHIFTI's immediate: the kind in [9:8], the amount in [7:0]. -/
theorem shifti_fields (k : Nat) (n : BitVec 8) (hk : k < 4) :
    (BitVec.ofNat 16 (0x100 * k + n.toNat)).toNat < 1024 ∧
      bits (BitVec.ofNat 16 (0x100 * k + n.toNat)).toNat 0 8 = n.toNat ∧
      bits (BitVec.ofNat 16 (0x100 * k + n.toNat)).toNat 8 2 = k := by
  have hn := n.isLt
  simp only [bits, BitVec.toNat_ofNat]
  omega

/-- The shift of each kind of SHIFTI (Table 4.3). -/
def shiftOfKind (k : Nat) (a : Word64) (n : Nat) : Word64 :=
  match k with
  | 0 => shiftLeft a n
  | 1 => shiftRight a n
  | 2 => shiftArith a n
  | _ => rotLeft a n

theorem add_sext16 (a : Word64) (imm : BitVec 16) : a + sext16 imm = .ofInt 64 ((a.toNat : Int) + imm.toInt) := by
  rw [BitVec.ofInt_add, BitVec.ofInt_natCast, BitVec.ofNat_toNat, BitVec.setWidth_eq]
  rfl

theorem toInt_sext16 (imm : BitVec 16) : (sext16 imm).toInt = imm.toInt := BitVec.toInt_signExtend_of_le (by decide)

theorem eq_sext16_iff (a : Word64) (imm : BitVec 16) : a = sext16 imm ↔ a.toInt = imm.toInt := by
  rw [← toInt_sext16, BitVec.toInt_inj]

theorem slt_sext16 (a : Word64) (imm : BitVec 16) : a.slt (sext16 imm) = decide (a.toInt < imm.toInt) := by
  rw [BitVec.slt_eq_decide, toInt_sext16]

theorem zext16_eq_ofNat (imm : BitVec 16) : zext16 imm = .ofNat 64 imm.toNat := (BitVec.ofNat_toNat 64 imm).symm

theorem toNat_zext16 (imm : BitVec 16) : (zext16 imm).toNat = imm.toNat := BitVec.toNat_setWidth_of_le (by decide)

theorem ult_zext16 (a : Word64) (imm : BitVec 16) : a.ult (zext16 imm) = decide (a.toNat < imm.toNat) := by
  rw [BitVec.ult_eq_decide, toNat_zext16]

end Sys2Proof.Machine
end

section
/-! PROOFS. What a codelet instruction that can issue does: one rule for each frame that instructions share. -/

namespace Sys2Proof.Machine

open Sys2Proof.Safety

/-! ## The rules of codelet instructions (R222, R239, R241) -/

section
variable {s : State} {t : TileId} {f : Firing}

/-- An instruction with a legal word runs its body on what its fetch leaves. -/
theorem runs_body (h : Issues s t f) {i : Instr} {legal : Bool} {body : Blade → Memory → Firing → Memory × Blade}
    (e : exec i s = s.after (s.blade.codelet s.mem t i legal body)) (l : legal = true) :
    Runs s t f i (s.after (body (fetchedBlade s t f) (fetchedMem s t f) f)) := fun c => by
  rw [e, Blade.codelet_issues h i c, if_pos l]

/-- A poisoned source traps POISON (R223, R225). -/
theorem trapPoisoned_trapped (room : (fetchedBlade s t f).trailFull = false) :
    s.after ((fetchedBlade s t f).trapPoisoned (fetchedMem s t f) t f) = .next (trapped s t f trapPOISON 1) :=
  trapNow_trapped _ _ room

/-- An instruction that computes a register from registers. -/
theorem runs_compute (h : Issues s t f) {i : Instr} {legal : Bool} {rd : RegNo} {srcs : List RegNo}
    {v : Firing → Word64} (e : exec i s = s.after (s.blade.compute s.mem t i legal rd srcs v)) (l : legal = true) :
    Runs s t f i (.next (issued s t f (wrote f rd (v f) (srcs.any f.bad)))) := fun c => by
  rw [e, l, Blade.compute_issues h i c]

/-- An instruction over ra and rb writes its result, poisoned where a source is (R222). -/
theorem runs_alu2 (h : Issues s t f) {i : Instr} {rd ra rb : RegNo} {op : Word64 → Word64 → Word64} {v : Word64}
    (e : exec i s = s.after (s.blade.alu2 s.mem i t rd ra rb 0 op)) (hv : op (f.reg ra) (f.reg rb) = v) :
    Runs s t f i (.next (issued s t f (wrote f rd v (f.bad ra || f.bad rb)))) := by
  have r := runs_compute h e rfl
  rwa [hv, List.any_cons, List.any_cons, List.any_nil, Bool.or_false] at r

theorem runs_alu3 (h : Issues s t f) {i : Instr} {rd ra rb rc : RegNo} {op : Word64 → Word64 → Word64 → Word64}
    {v : Word64} (e : exec i s = s.after (s.blade.alu3 s.mem i t rd ra rb rc op))
    (hv : op (f.reg ra) (f.reg rb) (f.reg rc) = v) :
    Runs s t f i (.next (issued s t f (wrote f rd v (f.bad ra || (f.bad rb || f.bad rc))))) := by
  have r := runs_compute h e rfl
  rwa [hv, List.any_cons, List.any_cons, List.any_cons, List.any_nil, Bool.or_false] at r

/-- An instruction with the one source ra. -/
theorem runs_compute1 (h : Issues s t f) {i : Instr} {legal : Bool} {rd ra : RegNo} {op : Firing → Word64} {v : Word64}
    (e : exec i s = s.after (s.blade.compute s.mem t i legal rd [ra] op)) (l : legal = true) (hv : op f = v) :
    Runs s t f i (.next (issued s t f (wrote f rd v (f.bad ra)))) := by
  have r := runs_compute h e l
  rwa [hv, List.any_cons, List.any_nil, Bool.or_false] at r

/-- A division by a register that is not zero. -/
theorem runs_divide (h : Issues s t f) {i : Instr} {rd ra rb : RegNo} {op : Word64 → Word64 → Word64} {v : Word64}
    (e : exec i s = s.after (s.blade.divide s.mem i t rd ra rb 0 op)) (hb : f.reg rb ≠ 0)
    (hv : op (f.reg ra) (f.reg rb) = v) :
    Runs s t f i (.next (issued s t f (wrote f rd v (f.bad ra || f.bad rb)))) := by
  have r := runs_body h e rfl
  rwa [if_neg hb, hv, Firing.advance_write] at r

/-- A division by zero traps DIVZERO (R203). -/
theorem runs_divide_zero (h : Issues s t f) {i : Instr} {rd ra rb : RegNo} {op : Word64 → Word64 → Word64}
    (e : exec i s = s.after (s.blade.divide s.mem i t rd ra rb 0 op)) (hb : f.reg rb = 0)
    (room : (fetchedBlade s t f).trailFull = false) : Runs s t f i (.next (trapped s t f trapDIVZERO 0)) := by
  have r := runs_body h e rfl
  rwa [if_pos hb, trapNow_trapped _ _ room] at r

/-- SHIFTI of kind k, its amount an immediate. -/
theorem runs_shifti (h : Issues s t f) (rd ra : RegNo) (k : Nat) (n : BitVec 8) {imm : BitVec 16} {v : Word64}
    (hk : k < 4) (himm : imm = .ofNat 16 (0x100 * k + n.toNat)) (hv : shiftOfKind k (f.reg ra) n.toNat = v) :
    Runs s t f (.shifti t rd ra imm) (.next (issued s t f (wrote f rd v (f.bad ra)))) := by
  obtain ⟨hlegal, hamount, hkind⟩ := shifti_fields k n hk
  rw [himm]
  refine runs_compute1 h rfl (decide_eq_true hlegal) ?_
  simp only [hamount, hkind]
  exact hv

/-- What holds of the state that an instruction answers. -/
theorem runsTo_of_runs {i : Instr} {u : State} {P : State → Prop} (r : Runs s t f i (.next u)) (p : P u) :
    RunsTo s t f i P :=
  fun c => ⟨u, r c, p⟩

end

end Sys2Proof.Machine
end

section
/-! PROOFS. Emissions and adjustments: which operands SEND, SENDD and ADJ refuse, and what they leave. -/

namespace Sys2Proof.Machine

open Sys2Proof.Safety

/-! ## Emissions and adjustments (R226 to R231) -/

theorem ofNat_bits (w tag lo : Nat) : BitVec.ofNat w (bits tag lo w) = .ofNat w (tag / 2 ^ lo) :=
  BitVec.eq_of_toNat_eq (by rw [BitVec.toNat_ofNat, BitVec.toNat_ofNat, bits, Nat.mod_mod])

/-- The token that the tag in rt, the value in rv and the fields of SEND or SENDD make. -/
theorem sendToken_eq (i : SendFields) (f : Firing) :
    sendToken i f =
      { context := .ofNat 16 ((f.reg i.rt).toNat / 2 ^ 32), iteration := .ofNat 12 ((f.reg i.rt).toNat / 2 ^ 20),
        port := i.port, kind := if i.ctrl = 0 then 0 else 2, node := .ofNat 20 (f.reg i.rt).toNat, cls := i.cls,
        ordered := false, poison := f.bad i.rv, sequence := 0, flow := 0, value := f.reg i.rv, parityBad := 0 } := by
  have hnode := ofNat_bits 20 (f.reg i.rt).toNat 0
  rw [Nat.pow_zero, Nat.div_one] at hnode
  simp only [sendToken, Token.data, ofNat_bits 16, ofNat_bits 12, hnode]

theorem audited_iff (cls : BitVec 3) : audited cls = true ↔ 1 ≤ cls.toNat ∧ cls.toNat ≤ 4 := by
  simp only [audited, Bool.and_eq_true, decide_eq_true_eq]

/-- A sound tag and a value that is sound or of no audited class pass R223. -/
theorem sendBadPoison_eq_false {i : SendFields} {f : Firing} (ht : f.bad i.rt = false)
    (hv : f.bad i.rv = true → i.cls = 0) : sendBadPoison i f = false := by
  rw [sendBadPoison, ht, Bool.false_or]
  cases h : f.bad i.rv with
  | false => rfl
  | true => rw [hv h]; rfl

theorem sendBadArg_iff (i : SendFields) (f : Firing) :
    sendBadArg i f = true ↔ 2 ^ 48 ≤ (f.reg i.rt).toNat ∨ 5 ≤ i.cls.toNat ∨ i.port = 3 ∨ (i.ctrl = 1 ∧ i.cls ≠ 0) := by
  simp only [sendBadArg, Bool.or_eq_true, Bool.and_eq_true, decide_eq_true_eq, or_assoc]

theorem sendBadArg_eq_false {i : SendFields} {f : Firing} (htag : (f.reg i.rt).toNat < 2 ^ 48) (hcls : i.cls.toNat < 5)
    (hport : i.port ≠ 3) (hctrl : i.ctrl = 1 → i.cls = 0) : sendBadArg i f = false := by
  rw [Bool.eq_false_iff, ne_eq, sendBadArg_iff]
  rintro (h | h | h | ⟨h, hne⟩)
  · exact Nat.not_le.2 htag h
  · exact Nat.not_le.2 hcls h
  · exact hport h
  · exact hne (hctrl h)

section
variable {s : State} {t : TileId} {f : Firing} {i : SendFields}

/-- A token joins an output buffer that has room (R228). -/
theorem emit_room (b : Blade) (m : Memory) (e : Emission) (hroom : f.emissions.length < 16) :
    b.emit m t f e = (m, b.putFiring t { f with emissions := f.emissions ++ [e] }.advance) :=
  if_neg (Nat.not_le.2 hroom)

/-- A full output buffer traps EMIT_LIMIT (R230). -/
theorem emit_full (b : Blade) (m : Memory) (e : Emission) (hfull : 16 ≤ f.emissions.length) :
    b.emit m t f e = b.trapNow m t f trapEMIT_LIMIT :=
  if_pos hfull

/-- SEND with unpoisoned operands traps SEND_ARG or emits its token. -/
theorem runs_send (h : Issues s t f) (hlegal : i.zero = 0 ∧ i.rdl = 0 ∧ i.list = 0) (hp : sendBadPoison i f = false) :
    Runs s t f (.send t i) (s.after (if sendBadArg i f then
        (fetchedBlade s t f).trapNow (fetchedMem s t f) t f trapSEND_ARG
      else (fetchedBlade s t f).emit (fetchedMem s t f) t f (.now
        (f.order ((fetchedMem s t f).desc f.slotB f.node.toNat).orderedRelease (sendToken i f))))) := by
  obtain ⟨hzero, hrdl, hlist⟩ := hlegal
  have r := runs_body h (i := .send t i) rfl (by simp only [hzero, hrdl, hlist, decide_true, Bool.and_self])
  rwa [hp, if_neg Bool.false_ne_true] at r

/-- SENDD with unpoisoned operands traps SEND_ARG, then DELAY_ARG (log entry 52), or emits its delayed token. -/
theorem runs_sendd (h : Issues s t f) (hzero : i.zero = 0) (hp : sendBadPoison i f = false)
    (hdl : f.bad i.rdl = false) : Runs s t f (.sendd t i) (s.after (if sendBadArg i f then
        (fetchedBlade s t f).trapNow (fetchedMem s t f) t f trapSEND_ARG
      else if (f.reg i.rdl).toNat = 0 || delayMax i.list < (f.reg i.rdl).toNat then
        (fetchedBlade s t f).trapNow (fetchedMem s t f) t f trapDELAY_ARG
      else (fetchedBlade s t f).emit (fetchedMem s t f) t f
        (.delayed { token := sendToken i f, list := i.list.toFin, amount := (f.reg i.rdl).toNat }))) := by
  have r := runs_body h (i := .sendd t i) rfl (decide_eq_true hzero)
  rwa [hp, hdl, Bool.or_false, if_neg Bool.false_ne_true] at r

theorem runs_send_badArg (h : Issues s t f) (hlegal : i.zero = 0 ∧ i.rdl = 0 ∧ i.list = 0)
    (hp : sendBadPoison i f = false) (ha : sendBadArg i f = true) (room : (fetchedBlade s t f).trailFull = false) :
    Runs s t f (.send t i) (.next (trapped s t f trapSEND_ARG 0)) := by
  have r := runs_send h hlegal hp
  rwa [if_pos ha, trapNow_trapped _ _ room] at r

theorem runs_sendd_badArg (h : Issues s t f) (hzero : i.zero = 0) (hp : sendBadPoison i f = false)
    (hdl : f.bad i.rdl = false) (ha : sendBadArg i f = true) (room : (fetchedBlade s t f).trailFull = false) :
    Runs s t f (.sendd t i) (.next (trapped s t f trapSEND_ARG 0)) := by
  have r := runs_sendd h hzero hp hdl
  rwa [if_pos ha, trapNow_trapped _ _ room] at r

/-- A SEND with good operands meets a buffer with room or a full one. -/
theorem runs_send_good (h : Issues s t f) (hlegal : i.zero = 0 ∧ i.rdl = 0 ∧ i.list = 0)
    (hp : sendBadPoison i f = false) (ha : sendBadArg i f = false) {tok : Token}
    (htok : f.order ((fetchedMem s t f).desc f.slotB f.node.toNat).orderedRelease (sendToken i f) = tok) :
    (f.emissions.length < 16 → Runs s t f (.send t i)
      (.next (issued s t f { f with emissions := f.emissions ++ [Emission.now tok] }.advance))) ∧
    (16 ≤ f.emissions.length → (fetchedBlade s t f).trailFull = false →
      Runs s t f (.send t i) (.next (trapped s t f trapEMIT_LIMIT 0))) := by
  have r := runs_send h hlegal hp
  rw [ha, if_neg Bool.false_ne_true, htok] at r
  refine ⟨fun hroom => ?_, fun hfull room => ?_⟩
  · rwa [emit_room _ _ _ hroom] at r
  · rwa [emit_full _ _ _ hfull, trapNow_trapped _ _ room] at r

/-- A SENDD with good operands otherwise has an amount within its list's range or one outside it (R229). -/
theorem runs_sendd_good (h : Issues s t f) (hzero : i.zero = 0) (hp : sendBadPoison i f = false)
    (hdl : f.bad i.rdl = false) (ha : sendBadArg i f = false) {tok : Token} (htok : sendToken i f = tok) :
    (1 ≤ (f.reg i.rdl).toNat → (f.reg i.rdl).toNat ≤ delayMax i.list → f.emissions.length < 16 →
      Runs s t f (.sendd t i) (.next (issued s t f { f with emissions := f.emissions ++ [Emission.delayed
        { token := tok, list := i.list.toFin, amount := (f.reg i.rdl).toNat }] }.advance))) ∧
    ((f.reg i.rdl).toNat = 0 ∨ delayMax i.list < (f.reg i.rdl).toNat → (fetchedBlade s t f).trailFull = false →
      Runs s t f (.sendd t i) (.next (trapped s t f trapDELAY_ARG 0))) := by
  have r := runs_sendd h hzero hp hdl
  simp only [ha, htok, Bool.false_eq_true, if_false, Bool.or_eq_true, decide_eq_true_eq] at r
  refine ⟨fun hone hmost hroom => ?_, fun hout room => ?_⟩
  · rwa [if_neg (by omega), emit_room _ _ _ hroom] at r
  · rwa [if_pos hout, trapNow_trapped _ _ room] at r

end

section
variable {s : State} {t : TileId} {f : Firing}

/-- ADJ takes a class in three bits: POISON, then ADJ_ARG, then ADJ_LIMIT, or one more adjustment (R231). -/
theorem runs_adj (h : Issues s t f) (ra : RegNo) (cls : BitVec 3) (reason : BitVec 16) :
    Runs s t f (.adj t (cls.setWidth 5) ra reason) (s.after (
      if f.bad ra then (fetchedBlade s t f).trapPoisoned (fetchedMem s t f) t f
      else if !audited cls || 0xFF00 ≤ reason.toNat then
        (fetchedBlade s t f).trapNow (fetchedMem s t f) t f trapADJ_ARG
      else if 8 ≤ f.adjustments.length then (fetchedBlade s t f).trapNow (fetchedMem s t f) t f trapADJ_LIMIT
      else (fetchedMem s t f, (fetchedBlade s t f).putFiring t { f with
        adjustments :=
          f.adjustments ++ [({ cls := cls, value := f.reg ra, reason := reason } : Adjustment)] }.advance))) := by
  have hcls : (cls.setWidth 5).toNat = cls.toNat := BitVec.toNat_setWidth_of_le (by decide)
  have hlegal : (cls.setWidth 5).toNat < 8 := by
    rw [hcls]
    exact cls.isLt
  have htrunc : (cls.setWidth 5).truncate 3 = cls := BitVec.setWidth_setWidth_of_le cls (by decide)
  have r := runs_body h (i := .adj t (cls.setWidth 5) ra reason) rfl (decide_eq_true hlegal)
  rwa [htrunc] at r

end

end Sys2Proof.Machine
end

section
/-! PROOFS. Words of memory: where they are kept, the bytes of their numbers, and reads and stores of sound words. -/

namespace Sys2Proof.Machine

open Sys2Proof.Safety

/-! ## Fetches change no byte (R198) -/

@[simp] theorem byte_loadWord (b : Blade) (m : Memory) (a x : Nat) : (b.loadWord m a).mem.byte x = m.byte x := by
  unfold Blade.loadWord
  split
  · rfl
  · dsimp only
    split <;> rfl

theorem byte_readLine (b : Blade) (m : Memory) (a words x : Nat) : (b.readLine m a words).1.byte x = m.byte x := by
  unfold Blade.readLine
  generalize List.range words = l
  induction l generalizing m b with
  | nil => rfl
  | cons i l ih => exact (ih _ _).trans (byte_loadWord ..)

theorem byte_fetchedMem (s : State) (t : TileId) (f : Firing) (x : Nat) : (fetchedMem s t f).byte x = s.mem.byte x := by
  unfold fetchedMem Blade.fetch
  dsimp only
  split
  · rfl
  · split
    · exact byte_readLine ..
    · split <;> exact byte_readLine ..

/-! ## Counting moves no word of memory (R330, Table 7.20) -/

/-- A blade keeps the words of memory where another does. -/
structure SamePlaces (b c : Blade) : Prop where
  place : ∀ a, c.place a = b.place a
  offline : ∀ a, c.offline a = b.offline a

theorem firstFrom_congr {p q : Nat → Bool} {n i : Nat} (h : ∀ j, i ≤ j → j < i + n → p j = q j) :
    firstFrom p n i = firstFrom q n i := by
  induction n generalizing i with
  | zero => rfl
  | succ n ih =>
    rw [firstFrom, firstFrom, h i (Nat.le_refl i) (by omega), ih fun j hij hj => h j (by omega) (by omega)]

/-- The registers of MEM_REPAIR end below rMEM + 0x800 (Table 16.5): a write from there on moves no row. -/
theorem setReg_samePlaces (b : Blade) {k : Nat} (v : Word32) (hk : rMEM + 0x800 ≤ k) : SamePlaces b (b.setReg k v) := by
  have hreg : ∀ a i, i < 4 → (b.setReg k v).reg (rREPAIR (bankOf a) i) = b.reg (rREPAIR (bankOf a) i) := by
    intro a i hi
    have := Nat.mod_lt (a / 2 ^ 6) (Nat.two_pow_pos 6)
    refine b.setReg_other k v _ ?_
    simp only [rREPAIR, bankOf, bits]
    omega
  have hspare : ∀ a row, (b.setReg k v).spareOf (bankOf a) row = b.spareOf (bankOf a) row := fun a row => by
    refine firstFrom_congr fun i _ hi => ?_
    rw [Blade.flag, Blade.field, hreg a i (by omega)]
    rfl
  refine ⟨fun a => ?_, fun a => rfl⟩
  simp only [Blade.place, Blade.spareFor, hspare, Blade.setReg_bank]

theorem SamePlaces.trans {b c d : Blade} (h : SamePlaces b c) (k : SamePlaces c d) : SamePlaces b d :=
  ⟨fun a => (k.place a).trans (h.place a), fun a => (k.offline a).trans (h.offline a)⟩

theorem count64_samePlaces (b : Blade) {k : Nat} (n : Nat) (hk : rMEM + 0x800 ≤ k) : SamePlaces b (b.count64 k n) :=
  (setReg_samePlaces b _ hk).trans (setReg_samePlaces _ _ (Nat.le_add_right_of_le hk))

/-! ## Numbers in bytes (R12) -/

theorem Memory.nat_succ (m : Memory) (k n : Nat) : m.nat k (n + 1) = (m.byte k).toNat + 256 * m.nat (k + 1) n := rfl

/-- The number of i + n bytes is that of the first i plus that of the other n above them. -/
theorem Memory.nat_add (m : Memory) (k i n : Nat) : m.nat k (i + n) = m.nat k i + 256 ^ i * m.nat (k + i) n := by
  induction i generalizing k with
  | zero => simp [Memory.nat, Memory.read, leNat]
  | succ i ih =>
    rw [Nat.add_right_comm, nat_succ, nat_succ, ih, show k + 1 + i = k + (i + 1) by omega]
    ring

theorem Memory.nat_lt (m : Memory) (k n : Nat) : m.nat k n < 256 ^ n := by
  induction n generalizing k with
  | zero => simp [Memory.nat, Memory.read, leNat]
  | succ n ih =>
    have hb := (m.byte k).isLt
    have := ih (k + 1)
    rw [nat_succ, Nat.pow_succ']
    omega

/-- A field of whole bytes of a number in memory is the number of those bytes. -/
theorem Memory.bits_nat (m : Memory) (k : Nat) {j n l : Nat} (h : j + n ≤ l) :
    bits (m.nat k l) (8 * j) (8 * n) = m.nat (k + j) n := by
  obtain ⟨r, rfl⟩ := Nat.exists_eq_add_of_le h
  rw [bits, Nat.pow_mul, Nat.pow_mul, Nat.add_assoc, Memory.nat_add, Memory.nat_add,
    Nat.add_mul_div_left _ _ (Nat.pow_pos (by decide)), Nat.div_eq_of_lt (m.nat_lt k j), Nat.zero_add,
    Nat.add_mul_mod_self_left, Nat.mod_eq_of_lt (m.nat_lt _ n)]

/-- A byte of a number, bit by bit. -/
theorem getLsbD_byteOf (v i j : Nat) (hj : j < 8) :
    (BitVec.ofNat 8 (v / 256 ^ i)).getLsbD j = v.testBit (8 * i + j) := by
  rw [BitVec.getLsbD_ofNat, show (256 : Nat) = 2 ^ 8 from rfl, ← Nat.pow_mul, Nat.testBit_div_two_pow, Nat.add_comm,
    decide_eq_true hj, Bool.true_and]

theorem byteOf_nat (m : Memory) {k i n : Nat} (hi : i < n) : BitVec.ofNat 8 (m.nat k n / 256 ^ i) = m.byte (k + i) := by
  have h := m.bits_nat k (show i + 1 ≤ n from hi)
  rw [bits, Nat.pow_mul] at h
  apply BitVec.eq_of_toNat_eq
  rw [BitVec.toNat_ofNat]
  simpa [Memory.nat, Memory.read, leNat] using h

theorem getD_leBytes (n v i : Nat) (hi : i < n) : (leBytes n v).getD i 0 = BitVec.ofNat 8 (v / 256 ^ i) := by
  induction n generalizing v i with
  | zero => omega
  | succ n ih =>
    cases i with
    | zero => simp [leBytes]
    | succ i =>
      rw [leBytes, List.getD_cons_succ, ih _ _ (by omega), Nat.div_div_eq_div_mul, Nat.pow_succ']

/-! ## Words of memory (R304 to R307) -/

/-- A sound word reads as its bytes, and the read leaves all as it was. -/
theorem loadWord_sound {b : Blade} {m : Memory} {a : Nat} (hon : b.offline a = false)
    (hs : m.mark (b.place a) = .sound) :
    b.loadWord m a = { value := .ofNat 64 (m.nat (b.place a) 8), poison := false, mem := m, blade := b } := by
  simp only [Blade.loadWord, hon, Bool.false_eq_true, if_false, hs]

/-- The bytes that the write of a word leaves. -/
theorem byte_writeWord64 (b : Blade) (m : Memory) (a : Nat) (v : Word64) (p : Bool) (x : Nat) :
    (b.writeWord64 m a v p).1.byte x =
      if b.place a ≤ x ∧ x < b.place a + 8 then BitVec.ofNat 8 (v.toNat / 256 ^ (x - b.place a)) else m.byte x := by
  simp only [Blade.writeWord64, Memory.byte_setMark, Memory.byte_write, length_leBytes]
  split
  · next h => rw [getD_leBytes _ _ _ (by omega)]
  · rfl

/-- The word that a store of n bytes at byte j of a word writes: those bytes of its value, the others as before. -/
theorem byteOf_merge (m : Memory) (k j n v i : Nat) (hi : i < 8) :
    BitVec.ofNat 8 (((BitVec.ofNat 64 (m.nat k 8) &&& ~~~BitVec.ofNat 64 ((2 ^ (8 * n) - 1) * 2 ^ (8 * j))) |||
      (BitVec.ofNat 64 (v * 2 ^ (8 * j)) &&& BitVec.ofNat 64 ((2 ^ (8 * n) - 1) * 2 ^ (8 * j)))).toNat / 256 ^ i) =
      if j ≤ i ∧ i < j + n then BitVec.ofNat 8 (v / 256 ^ (i - j)) else m.byte (k + i) := by
  apply BitVec.eq_of_getLsbD_eq
  intro t ht
  rw [getLsbD_byteOf _ _ _ ht, BitVec.testBit_toNat]
  simp only [BitVec.getLsbD_or, BitVec.getLsbD_and, BitVec.getLsbD_not, BitVec.getLsbD_ofNat, Nat.testBit_mul_two_pow,
    Nat.testBit_two_pow_sub_one, show 8 * i + t < 64 by omega, decide_true, Bool.true_and]
  split
  · next h =>
    have hlo : 8 * j ≤ 8 * i + t := by omega
    have hhi : 8 * i + t - 8 * j < 8 * n := by omega
    rw [getLsbD_byteOf _ _ _ ht, show 8 * (i - j) + t = 8 * i + t - 8 * j by omega]
    simp [hlo, hhi]
  · next h =>
    have hout : (decide (8 * j ≤ 8 * i + t) && decide (8 * i + t - 8 * j < 8 * n)) = false := by
      rw [Bool.and_eq_false_iff, decide_eq_false_iff_not, decide_eq_false_iff_not]
      omega
    rw [← byteOf_nat m hi, getLsbD_byteOf _ _ _ ht]
    simp [hout]

/-- A store of n bytes within a sound word changes exactly those bytes, and of the blade what an armed injection on the
word's checker changes. -/
theorem store_sound {b : Blade} {m : Memory} {a n : Nat} (v : Word64) (p : Bool) (hn : a % 8 + n ≤ 8)
    (hon : b.offline a = false) (hword : b.offline (a / 8 * 8) = false) (hs : m.mark (wordPlace b a) = .sound) :
    (b.store m a n v p).2 = (b.writtenMark (a / 8 * 8)).2 ∧
    ∀ x, (b.store m a n v p).1.byte x =
      if wordPlace b a + a % 8 ≤ x ∧ x < wordPlace b a + a % 8 + n then
        BitVec.ofNat 8 (v.toNat / 256 ^ (x - (wordPlace b a + a % 8)))
      else m.byte x := by
  unfold wordPlace at *
  by_cases h8 : n = 8
  · subst h8
    have ha : a / 8 * 8 = a := by omega
    have hj : a % 8 = 0 := by omega
    rw [Blade.store, if_pos rfl, Blade.store64, hon, if_neg Bool.false_ne_true, ha, hj, Nat.add_zero]
    exact ⟨rfl, fun _ => byte_writeWord64 ..⟩
  · rw [Blade.store, if_neg h8, Blade.merge8, hon, if_neg Bool.false_ne_true, loadWord_sound hword hs]
    refine ⟨rfl, fun x => ?_⟩
    dsimp only
    rw [if_neg Bool.false_ne_true, byte_writeWord64]
    by_cases hx : b.place (a / 8 * 8) ≤ x ∧ x < b.place (a / 8 * 8) + 8
    · obtain ⟨i, rfl⟩ := Nat.exists_eq_add_of_le hx.1
      rw [if_pos hx, Nat.add_sub_cancel_left, byteOf_merge m _ _ _ _ _ (by omega)]
      simp only [Nat.add_sub_add_left, Nat.add_le_add_iff_left, Nat.add_assoc, Nat.add_lt_add_iff_left]
    · rw [if_neg hx, if_neg (by omega)]

end Sys2Proof.Machine
end

section
/-! PROOFS. Compare-and-swap of codelets. -/

namespace Sys2Proof.Machine

open Sys2Proof.Safety

/-! ## Loads and compare-and-swap (R217, R311, R334) -/

/-- A load of n bytes within a sound word of stored bytes gives their number and leaves all as it was. -/
theorem load_sound {b : Blade} {m : Memory} {a n : Nat} (hn : a % 8 + n ≤ 8) (hback : backing a = .bytes)
    (hword : b.offline (a / 8 * 8) = false) (hs : m.mark (wordPlace b a) = .sound) :
    b.load m a n = { value := .ofNat 64 (m.nat (wordPlace b a + a % 8) n), poison := false, mem := m, blade := b } := by
  have hlt : m.nat (wordPlace b a) 8 < 2 ^ 64 := m.nat_lt _ 8
  have hfield : bits (m.nat (wordPlace b a) 8) (8 * (a % 8)) (8 * n) = m.nat (wordPlace b a + a % 8) n :=
    m.bits_nat _ hn
  rw [Blade.load, hback]
  dsimp only
  rw [loadWord_sound hword hs, BitVec.toNat_ofNat]
  rw [wordPlace] at hlt hfield ⊢
  rw [Nat.mod_eq_of_lt hlt, hfield]

/-- The blade once a compare-and-swap has been counted at its bank or its channel (Table 7.27). -/
def casCounted (b : Blade) (a : Nat) : Blade := b.count64 (if a < sramSize then rATOM else rATOM + 0x10)

theorem casCounted_samePlaces (b : Blade) (a : Nat) : SamePlaces b (casCounted b a) := by
  refine count64_samePlaces b 1 ?_
  split <;> decide

/-- A compare-and-swap within a sound word reads the old value; where it is the one expected it writes the new one, and
elsewhere it counts its failure. -/
theorem cas_sound {b : Blade} {m : Memory} {a n : Nat} (expected new : Word64) (hn : a % 8 + n ≤ 8)
    (hback : backing a = .bytes) (hon : b.offline a = false) (hword : b.offline (a / 8 * 8) = false)
    (hs : m.mark (wordPlace b a) = .sound) {old : Nat} (hold : m.nat (wordPlace b a + a % 8) n = old) {same : Bool}
    (hsame : decide (old = expected.toNat % 256 ^ n) = same) :
    ∃ m', b.cas m a n expected new =
        { value := .ofNat 64 old, poison := false, mem := m', blade :=
          if same then ((casCounted b a).writtenMark (a / 8 * 8)).2 else (casCounted b a).count64 (rATOM + 8) } ∧
      ∀ x, m'.byte x =
        if same = true ∧ wordPlace b a + a % 8 ≤ x ∧ x < wordPlace b a + a % 8 + n then
          BitVec.ofNat 8 (new.toNat / 256 ^ (x - (wordPlace b a + a % 8)))
        else m.byte x := by
  have places := casCounted_samePlaces b a
  have hplace : wordPlace (casCounted b a) a = wordPlace b a := places.place _
  have hon' : (casCounted b a).offline a = false := (places.offline _).trans hon
  have hword' : (casCounted b a).offline (a / 8 * 8) = false := (places.offline _).trans hword
  have hs' : m.mark (wordPlace (casCounted b a) a) = .sound := by rw [hplace, hs]
  have hlt : old < 2 ^ 64 := hold ▸
    Nat.lt_of_lt_of_le (m.nat_lt _ n) (Nat.pow_le_pow_right (show 256 > 0 by decide) (show n ≤ 8 by omega))
  have hcount : (if a < sramSize then b.count64 rATOM else b.count64 (rATOM + 0x10)) = casCounted b a := by
    rw [casCounted]
    split <;> rfl
  have hload := load_sound hn hback hword' hs'
  obtain ⟨hblade, hbyte⟩ := store_sound (b := casCounted b a) new false hn hon' hword' hs'
  rw [hplace] at hbyte
  rw [hplace, hold] at hload
  rw [Blade.cas, hcount, hload]
  dsimp only
  rw [if_neg Bool.false_ne_true, BitVec.toNat_ofNat, Nat.mod_eq_of_lt hlt, Nat.pow_mul,
    show (2 : Nat) ^ 8 = 256 from rfl]
  cases same with
  | true =>
    rw [if_pos (of_decide_eq_true hsame), hblade]
    exact ⟨_, rfl, fun x => by simp only [hbyte x, true_and]⟩
  | false =>
    rw [if_neg (of_decide_eq_false hsame)]
    exact ⟨_, rfl, fun x => by rw [if_neg fun h => Bool.false_ne_true h.1]⟩

/-- The application region stores bytes (Table 7.5). -/
theorem dramBacking_app {o : Nat} (h : 0xC0000000 ≤ o) : dramBacking o = .bytes := by
  unfold dramBacking
  repeat rw [if_neg (by omega)]

/-- The shared SRAM and the application region, where a compare-and-swap may go (R218). -/
theorem casRegion {a : Word64} (h : a.toNat < 0x1000000 ∨ (0x1C0000000 ≤ a.toNat ∧ a.toNat < 0x300000000)) :
    backing a.toNat = .bytes ∧ (windowOf a = some .sram ∨ windowOf a = some .app) := by
  rcases h with h | ⟨hlo, hhi⟩
  · exact ⟨if_pos h, .inl (if_pos h)⟩
  · refine ⟨?_, .inr ?_⟩
    · have hdram : dramBase ≤ a.toNat := Nat.le_trans (by decide) hlo
      rw [backing, if_neg (Nat.not_lt.2 (Nat.le_trans (by decide) hlo)), if_pos ⟨hdram, hhi⟩]
      exact dramBacking_app (Nat.le_sub_of_add_le hlo)
    · rw [windowOf, if_neg (by omega), if_neg (by omega), if_neg (by omega), if_pos ⟨hlo, hhi⟩]

section
variable {s : State} {t : TileId} {f : Firing} {i : Instr} {rd ra rb rc : RegNo} {n : Nat}

/-- A compare-and-swap of unpoisoned operands at an aligned address of its regions. -/
theorem runs_cas (h : Issues s t f) (e : exec i s = s.after (s.blade.casInsn s.mem i t rd ra rb rc n))
    (ha : f.bad ra = false) (hb : f.bad rb = false) (hc : f.bad rc = false)
    (hw : windowOf (f.reg ra) = some .sram ∨ windowOf (f.reg ra) = some .app) (hal : (f.reg ra).toNat % n = 0)
    {r : Loaded} (hr : (fetchedBlade s t f).cas (fetchedMem s t f) (f.reg ra).toNat n (f.reg rb) (f.reg rc) = r) :
    Runs s t f i (.next (ends s r.mem (r.blade.putFiring t (wrote f rd r.value r.poison)))) := by
  have x := runs_body h e rfl
  simp only [ha, hb, hc, Bool.or_false, Bool.false_eq_true, if_false] at x
  rcases hw with hw | hw <;>
  · simp only [hw, hal, hr, ne_eq, not_true_eq_false, if_false, Firing.advance_write] at x
    exact x

/-- A poisoned operand of a compare-and-swap traps POISON (R223). -/
theorem runs_cas_poisoned (h : Issues s t f) (e : exec i s = s.after (s.blade.casInsn s.mem i t rd ra rb rc n))
    (hp : f.bad ra = true ∨ f.bad rb = true ∨ f.bad rc = true) (room : (fetchedBlade s t f).trailFull = false) :
    Runs s t f i (.next (trapped s t f trapPOISON 1)) := by
  have hp' : (f.bad ra || f.bad rb || f.bad rc) = true := by
    simpa only [Bool.or_eq_true, or_assoc] using hp
  have r := runs_body h e rfl
  rwa [if_pos hp', trapPoisoned_trapped room] at r

end

end Sys2Proof.Machine
end

section
/-! PROOFS. The statements on the codelet instruction set (chapter 4). -/

open Sys2Proof Sys2Proof.Machine Sys2Proof.Safety

/-- Settles O27: the laws of a read after a write, g0 apart. -/
theorem registerFile : Obligations.RegisterFile := by
  intro f r q v p
  refine ⟨f.reg_zero, f.bad_zero, f.write_zero v p, ?_⟩
  by_cases hr : r = 0
  · simp only [hr, Firing.write_zero, ne_eq, not_true_eq_false, and_false, if_false, and_self]
  · simp only [f.reg_write q v p hr, f.bad_write q v p hr, ne_eq, hr, not_false_eq_true, and_true, and_self]

/-- Settles O3: each result is what the arithmetic of its instruction gives, by the laws of results as exact numbers. -/
theorem integerResults : Obligations.IntegerResults := by
  refine ⟨fun s t f rd ra rb rc h => ?_, fun s t f rd ra rb n h => ?_, fun s t f rd ra imm q h => ?_⟩
  · intro a b c cin two three truth
    exact ⟨runs_alu2 h rfl (BitVec.add_def a b), runs_alu2 h rfl (sub_eq_ofInt a b),
      runs_alu3 h rfl (addCarry_eq_ofNat a b c), runs_alu3 h rfl (subBorrow_eq_ofInt a b c),
      runs_alu3 h rfl (carryOut_eq_ofNat a b c),
      runs_alu3 h rfl (congrArg boolWord (borrowOut_eq_decide a b c)),
      runs_compute1 h rfl rfl (neg_eq_ofInt a),
      runs_alu2 h rfl rfl, runs_alu2 h rfl rfl, runs_alu2 h rfl rfl, runs_alu2 h rfl rfl,
      runs_alu2 h rfl (congrArg boolWord (decide_eq_decide.2 BitVec.toNat_inj.symm)),
      runs_alu2 h rfl (congrArg boolWord BitVec.slt_eq_decide),
      runs_alu2 h rfl (congrArg boolWord BitVec.ult_eq_decide),
      runs_alu3 h rfl (ite_not ..), runs_alu2 h rfl (mul_eq_ofNat a b), runs_alu2 h rfl rfl, runs_alu2 h rfl rfl⟩
  · intro a sll srl sra rol ror two imm
    exact ⟨runs_alu2 h rfl (shiftLeft_eq_ofNat ..), runs_alu2 h rfl (shiftRight_eq_ofNat ..),
      runs_alu2 h rfl (shiftArith_eq_ofInt ..), runs_alu2 h rfl (rotLeft_eq_ofNat ..),
      runs_alu2 h rfl (rotRight_eq_ofNat ..),
      runs_shifti h rd ra 0 n (by decide) (by rw [Nat.mul_zero, Nat.zero_add]) (shiftLeft_eq_ofNat ..),
      runs_shifti h rd ra 1 n (by decide) rfl (shiftRight_eq_ofNat ..),
      runs_shifti h rd ra 2 n (by decide) rfl (shiftArith_eq_ofInt ..),
      runs_shifti h rd ra 3 n (by decide) rfl (rotLeft_eq_ofNat ..)⟩
  · intro a one truth
    have hquarter : (q.setWidth 5).toNat = q.toNat := BitVec.toNat_setWidth_of_le (by decide)
    refine ⟨runs_compute1 h rfl rfl (add_sext16 a imm),
      runs_compute1 h rfl rfl (congrArg (a &&& ·) (zext16_eq_ofNat imm)),
      runs_compute1 h rfl rfl (congrArg (a ||| ·) (zext16_eq_ofNat imm)),
      runs_compute1 h rfl rfl (congrArg (a ^^^ ·) (zext16_eq_ofNat imm)),
      runs_compute1 h rfl rfl (congrArg boolWord (decide_eq_decide.2 (eq_sext16_iff a imm))),
      runs_compute1 h rfl rfl (congrArg boolWord (slt_sext16 a imm)),
      runs_compute1 h rfl rfl (congrArg boolWord (ult_zext16 a imm)), ?_⟩
    have hlegal : (q.setWidth 5).toNat < 4 := by
      rw [hquarter]
      exact q.isLt
    refine runsTo_of_runs (runs_compute1 h rfl (decide_eq_true hlegal) rfl) ⟨_, rfl, fun i hi => ?_⟩
    rw [hquarter]
    exact getLsbD_setQuarter (f.reg rd) imm q i hi

/-- Settles O4: the quotients are the model's own once rb is not zero; the edges are those of the least number. -/
theorem divisionResults : Obligations.DivisionResults := by
  intro s t f rd ra rb h a b two
  refine ⟨fun hb => ⟨runs_divide h rfl hb rfl, runs_divide h rfl hb rfl, runs_divide h rfl hb BitVec.udiv_def,
    runs_divide h rfl hb BitVec.umod_def⟩, fun hb room i hi => ?_, fun ha => ⟨?_, fun hb => ?_⟩⟩
  · simp only [List.mem_cons, List.not_mem_nil, or_false] at hi
    rcases hi with rfl | rfl | rfl | rfl <;> exact runs_divide_zero h rfl hb room
  · exact runs_compute1 h rfl rfl (neg_least a ha)
  · have hne : b ≠ 0 := fun e => by simp [e] at hb
    refine ⟨runs_divide h rfl hne (quotS_neg_one a b ha hb), runs_divide h rfl hne ?_⟩
    rw [remS, hb]
    simp

/-- Settles O11: the rules of SEND, SENDD and ADJ, each where its operands pass or fail the tests of R226 to R231. -/
theorem emissionResults : Obligations.EmissionResults := by
  refine ⟨fun s t f i list h hz ht hv htag hcls hport hctrl => ?_, fun s t f ra cls reason h => ?_⟩
  · intro tag tok release sent later n joins now most
    have hp : sendBadPoison i f = false := sendBadPoison_eq_false ht hv
    have ha : sendBadArg i f = false := sendBadArg_eq_false htag hcls hport hctrl
    have htok : f.order release (sendToken now f) = sent := congrArg (f.order release) (sendToken_eq now f)
    obtain ⟨hnow, hfull⟩ := runs_send_good h (i := now) ⟨hz, rfl, rfl⟩ hp ha htok
    have hlater := fun hdl : f.bad i.rdl = false => runs_sendd_good h (i := later) hz hp hdl ha (sendToken_eq later f)
    exact ⟨fun hroom => ⟨hnow hroom, fun hdl hone hmost => (hlater hdl).1 hone hmost hroom⟩,
      fun room => ⟨fun hlen => hfull hlen room, fun hdl hout => (hlater hdl).2 hout room⟩⟩
  · intro i good
    have r := runs_adj h ra cls reason
    have hgood : (!audited cls || decide (0xFF00 ≤ reason.toNat)) = true ↔ ¬ good := by
      simp only [good, ← audited_iff, Bool.or_eq_true, Bool.not_eq_true', decide_eq_true_eq, not_and_or,
        Bool.not_eq_true, Nat.not_lt]
    simp only [hgood] at r
    refine ⟨fun hbad hok hroom => ?_, fun room => ⟨fun hbad => ?_, fun hbad hno => ?_, fun hbad hok hfull => ?_, ?_⟩⟩
    · rwa [hbad, if_neg Bool.false_ne_true, if_neg (not_not.2 hok), if_neg (Nat.not_le.2 hroom)] at r
    · rwa [if_pos hbad, trapPoisoned_trapped room] at r
    · rwa [hbad, if_neg Bool.false_ne_true, if_pos hno, trapNow_trapped _ _ room] at r
    · rwa [hbad, if_neg Bool.false_ne_true, if_neg (not_not.2 hok), if_pos hfull, trapNow_trapped _ _ room] at r
    · intro x hz ht hv hdl harg
      have hp := sendBadPoison_eq_false ht fun hb => absurd (hv.symm.trans hb) Bool.false_ne_true
      have ha := (sendBadArg_iff x f).2 harg
      exact ⟨runs_send_badArg h ⟨hz, rfl, rfl⟩ hp ha room, runs_sendd_badArg h hz hp hdl ha room⟩

/-- Settles O10: a compare-and-swap within a sound word, 8 or 4 bytes wide, and the trap of a poisoned operand. -/
theorem compareAndSwapResults : Obligations.CompareAndSwapResults := by
  intro s t f rd ra rb rc h b m a k
  refine ⟨fun ha hb hc hreg hon hword hs p hp hal => ?_, fun hp room => ?_⟩
  · intro old same counted after
    obtain ⟨hback, hwin⟩ := casRegion hreg
    have hwhole : a % 8 + p.2 ≤ 8 ∧ exec p.1 s = s.after (s.blade.casInsn s.mem p.1 t rd ra rb rc p.2) := by
      simp only [List.mem_cons, List.not_mem_nil, or_false] at hp
      rcases hp with rfl | rfl <;> exact ⟨by simp only at hal ⊢; omega, rfl⟩
    obtain ⟨hn, e⟩ := hwhole
    obtain ⟨m', hcas, hbyte⟩ := cas_sound (f.reg rb) (f.reg rc) hn hback hon hword hs
      (old := old) rfl (same := same) rfl
    refine runsTo_of_runs (runs_cas h e ha hb hc hwin hal hcas) ⟨rfl, fun x => ?_⟩
    exact (hbyte x).trans (by rw [byte_fetchedMem])
  · exact ⟨runs_cas_poisoned h rfl hp room, runs_cas_poisoned h rfl hp room⟩

end
